-- ==== Sys2Proof/Machine/AddrMap.lean ====
section
/-!
DEFINITION. Machine/AddrMap.lean: the local map and what serves each part of it (10 R238 to R245, R284; 01 R18; 11 R261).
-/
namespace Sys2Proof.Machine
open Sys2Proof

/-- The parts of the local map (Table 10.1). -/
inductive Place where
  | lining | hbm | window | host | reserved
  deriving DecidableEq, Repr

def place (a : Nat) : Place :=
  if a < 0x01000000000 then .lining
  else if a < 0x0D000000000 then .hbm
  else if a < 0x0F000000000 then .reserved
  else if a < 0x0F004000000 then .window
  else if a < 0x40000000000 then .reserved
  else if a < 0x80000000000 then .host
  else .reserved

/-- The windows of the register-window region (Table 10.2), with the offset within each. -/
inductive Window where
  | glide (t off : Nat)
  | ownership (off : Nat)
  | mailbox (off : Nat)
  | hedom (off : Nat)
  | reserved
  deriving DecidableEq, Repr

def windowOf (a : Nat) : Window :=
  let o := a - 0x0F000000000
  if o < 0xC00000 then (if o % 0x10000 < 0x1000 then .glide (o / 0x10000) (o % 0x10000) else .reserved)
  else if o < 0x1000000 then .reserved
  else if o < 0x1000000 + 0xD0000 then .ownership (o - 0x1000000)
  else if o < 0x2000000 then .reserved
  else if o < 0x2010000 then .mailbox (o - 0x2000000)
  else if o < 0x3000000 then .reserved
  else if o < 0x3100000 then .hedom (o - 0x3000000)
  else .reserved

/-- The granule of an address, numbered over both kinds: the Lining index, or 32,768 plus the HBM index (R238, R39). -/
def granuleOf (a : Nat) : Option Nat :=
  match place a with
  | .lining => some (a / 0x200000)
  | .hbm => some (32768 + (a - 0x01000000000) / 0x200000)
  | _ => none

/-- The local address at which a granule begins. -/
def granuleBase (g : Nat) : Nat := if g < 32768 then g * 0x200000 else 0x01000000000 + (g - 32768) * 0x200000

def granuleCount : Nat := 425984

/-- A tile's die, row and column (R18). -/
def tileDie (t : Nat) : Nat := t / 96
def tileRow (t : Nat) : Nat := (t % 96) / 12
def tileCol (t : Nat) : Nat := t % 12

/-- The granule at which a tile's slice begins, and the number of granules that it spans (R242). -/
def sliceFirst (t : Nat) : Nat := 16384 * tileDie t + 2048 * tileRow t + 171 * tileCol t - tileCol t / 3
def sliceSize (t : Nat) : Nat := if tileCol t % 3 = 2 then 170 else 171

/-- The column of the slice that maps the granule at offset `o` of a row: the largest whose first offset does not exceed it. -/
def sliceCol (o : Nat) : Nat → Nat
  | 0 => 0
  | c + 1 => if 171 * (c + 1) - (c + 1) / 3 ≤ o then c + 1 else sliceCol o c

/-- The tile above whose slice a Lining granule lies (R242). -/
def sliceTile (g : Nat) : Nat := 96 * (g / 16384) + 12 * (g % 16384 / 2048) + sliceCol (g % 2048) 11

/-- The stack and channel of an HBM address (R245). -/
def hbmDie (a : Nat) : Nat := if a < 0x07000000000 then 0 else 1
def hbmStack (a : Nat) : Nat := 4 * hbmDie a + (a - (if a < 0x07000000000 then 0x01000000000 else 0x07000000000)) / 0x200000 % 4
def hbmChannel (a : Nat) : Nat := (field a 12 8) ^^^ (field a 17 13)

/-- The home agent of an address: a slice's by its tile, a channel's by 192 + 32 stack + channel (R241, R244). -/
def homeOf (a : Nat) : Nat :=
  match place a with
  | .lining => sliceTile (a / 0x200000)
  | _ => 192 + 32 * hbmStack a + hbmChannel a

/-- The unit whose bytes a throttle window counts: a slice's by its tile, a stack's by 192 + stack (R254, R424). -/
def windowUnit (a : Nat) : Nat :=
  match place a with
  | .lining => sliceTile (a / 0x200000)
  | _ => 192 + hbmStack a

/-- The die that holds a memory address. -/
def memDie (a : Nat) : Nat := match place a with | .lining => a / 0x00800000000 | _ => hbmDie a

/-- The tile, stack and die numbers that an error record gives a memory address: KIND and MUNIT of Table 20.7. -/
def memKind (a : Nat) : Nat := match place a with | .lining => 0 | .hbm => 1 | _ => 5
def memUnit (a : Nat) : Nat := match place a with | .lining => memDie a | .hbm => hbmStack a | _ => 0xFF

/-- The package and local parts of a global physical address (R261, R238). -/
def pkgOf (pa : Nat) : Nat := pa / 2 ^ 44 % 4096
def localOf (pa : Nat) : Nat := pa % 2 ^ 44

/-- The line of an address, and the lines that `n` bytes from it touch. -/
def lineOf (a : Nat) : Nat := a / 64
def linesOf (a n : Nat) : Nat := if n = 0 then 0 else (a + n - 1) / 64 - a / 64 + 1

/-- The charge of Table 19.4 for one line of memory. -/
def lineCharge (pkg own a : Nat) : Nat :=
  if pkg ≠ own then 4
  else match place a with
    | .lining => 1
    | .hbm => 2
    | .host => 3
    | _ => 0

/-- The charge of a request of the host or of the fabric at its home (R421): for every line that it touches. -/
def homeCharge (a n : Nat) : Nat := lineCharge 0 0 a * linesOf a n

end Sys2Proof.Machine
end

