-- ==== Sys2Proof/Machine/Catalogue.lean ====
section
/-!
DEFINITION. Machine/Catalogue.lean: the catalogue of the dictionary (17 R398, Table 17.8): one row for each line of the
manual's object tables, with its type, access codes, default, range, persistence and marks.
-/
namespace Sys2Proof.Machine
open Sys2Proof

/-- The types of Table 17.1. -/
inductive OTy where
  | bool | u8 | u16 | u32 | u64 | u128 | i16 | i32
  | str (n : Nat)
  | oct (n : Nat)
  deriving DecidableEq, Repr

/-- The forms of the Default column (R382). -/
inductive DKind where
  | num | start | package | cloak | measured | firmware | none
  deriving DecidableEq, Repr

/-- A row: indices, subindices, type, access (2 bits for each of H, M, C, S, F from bit 0 on, as in Table 17.7), default and
its form, lowest and highest value (lengths for octets), persistence (0 no, 1 aon, 2 fuse) and the FLAGS bits of Table 17.7. -/
structure ObjRow where
  idxLo : Nat
  idxHi : Nat
  subLo : Nat
  subHi : Nat
  ty : OTy
  acc : Nat
  dflt : Nat
  dk : DKind
  lo : Int
  hi : Int
  persist : Nat
  flags : Nat
  deriving DecidableEq, Repr

def cat0 : List ObjRow :=
  [.mk 0x0000 0x0000 1 1 .u16 0x155 1 .num 1 1 0 0,
   .mk 0x0000 0x0000 2 2 .u16 0x155 0 .firmware 0 65535 0 0,
   .mk 0x0000 0x0000 3 3 .u32 0x155 0 .firmware 0 4294967295 0 0,
   .mk 0x0000 0x0000 4 4 (.oct 32) 0x155 0 .firmware 0 32 0 0,
   .mk 0x0001 0x0001 1 1 .u32 0x3FF 0 .num 0 16777215 0 2,
   .mk 0x0001 0x0001 2 2 (.oct 64) 0x155 0 .firmware 0 64 0 2,
   .mk 0x0002 0x0002 1 1 .u64 0x145 0 .num 0 18446744073709551615 0 128,
   .mk 0x0002 0x0002 2 2 .u64 0x145 0 .num 0 18446744073709551615 0 128,
   .mk 0x0002 0x0002 3 3 .u64 0x145 0 .num 0 18446744073709551615 0 128,
   .mk 0x0002 0x0002 4 4 .u64 0x145 0 .num 0 18446744073709551615 0 128,
   .mk 0x0002 0x0002 5 5 .u64 0x145 0 .num 0 18446744073709551615 0 128,
   .mk 0x0002 0x0002 6 6 .u64 0x145 0 .num 0 18446744073709551615 0 128,
   .mk 0x0003 0x0003 1 1 .bool 0x208 0 .none 0 1 0 0,
   .mk 0x0003 0x0003 2 2 .u16 0x145 0 .num 0 65535 1 0,
   .mk 0x0004 0x0004 1 1 .bool 0x208 0 .none 0 1 0 0,
   .mk 0x0004 0x0004 2 2 .u32 0x145 0 .num 0 4294967295 1 0,
   .mk 0x1000 0x1000 1 1 (.str 16) 0x155 0 .package 0 16 2 0,
   .mk 0x1000 0x1000 2 2 .u16 0x155 0 .package 1344 1536 2 0,
   .mk 0x1000 0x1000 3 3 .u16 0x155 0 .start 0 1536 0 0,
   .mk 0x1000 0x1000 4 4 .u16 0x155 0 .start 0 192 0 0,
   .mk 0x1000 0x1000 5 5 .u16 0x155 256 .num 256 256 2 0,
   .mk 0x1100 0x1100 1 1 .u32 0x155 0 .start 0 4294967295 0 0,
   .mk 0x1100 0x1100 2 2 .u32 0x155 0 .start 0 4294967295 0 0,
   .mk 0x1100 0x1100 3 3 .u32 0x155 0 .start 0 4294967295 0 0,
   .mk 0x1100 0x1100 4 4 .u32 0x155 0 .start 0 4294967295 0 0,
   .mk 0x1100 0x1100 5 5 .u32 0x155 0 .start 0 4294967295 0 0,
   .mk 0x1100 0x1100 6 6 .u32 0x155 0 .start 0 4294967295 0 0,
   .mk 0x1200 0x1200 1 1 .u8 0x155 0 .num 0 64 0 0,
   .mk 0x1200 0x1200 2 2 .bool 0x155 0 .num 0 1 0 0,
   .mk 0x1200 0x1200 3 3 .u8 0x155 64 .num 64 64 2 0,
   .mk 0x1200 0x1200 4 4 .bool 0x155 0 .num 0 1 0 0,
   .mk 0x1201 0x1201 1 64 .u8 0x145 0 .num 0 5 0 0,
   .mk 0x1202 0x1202 1 64 .u16 0x04F 0 .num 0 9000 0 0,
   .mk 0x1203 0x1203 1 1 .u8 0x010 0 .cloak 1 64 0 2,
   .mk 0x1203 0x1203 2 2 .u8 0x010 0 .cloak 3 4 0 2,
   .mk 0x1203 0x1203 3 3 .u16 0x010 0 .cloak 0 9000 0 2,
   .mk 0x1203 0x1203 4 4 .u16 0x010 0 .cloak 1 192 0 2,
   .mk 0x1203 0x1203 5 5 .u32 0x010 0 .cloak 0 425984 0 2,
   .mk 0x1310 0x1310 1 192 .u64 0x377 0 .num 0 18446744073709551615 0 129,
   .mk 0x1311 0x1311 1 192 .u64 0x377 0 .num 0 18446744073709551615 0 129]

def cat1 : List ObjRow :=
  [.mk 0x1312 0x1312 1 192 .u64 0x377 0 .num 0 18446744073709551615 0 129,
   .mk 0x1313 0x1313 1 192 .u32 0x377 0 .num 0 4294967295 0 129,
   .mk 0x1400 0x1400 1 1 .u16 0x155 8192 .num 8192 8192 2 0,
   .mk 0x1400 0x1400 2 2 .u32 0x35F 512 .num 16 65535 0 0,
   .mk 0x1400 0x1400 3 3 .u32 0x35F 1048576 .num 65536 4294967295 0 0,
   .mk 0x1410 0x1410 1 192 .u64 0x377 0 .num 0 18446744073709551615 0 129,
   .mk 0x1411 0x1411 1 192 .u64 0x377 0 .num 0 18446744073709551615 0 129,
   .mk 0x1412 0x1412 1 192 .u64 0x377 0 .num 0 18446744073709551615 0 129,
   .mk 0x1413 0x1413 1 192 .u64 0x377 0 .num 0 18446744073709551615 0 129,
   .mk 0x1500 0x1500 1 192 .u8 0x155 0 .package 0 255 2 0,
   .mk 0x1501 0x1501 1 192 .u8 0x155 0 .start 0 255 0 0,
   .mk 0x1502 0x1502 1 192 .u16 0x155 0 .start 0 65535 0 0,
   .mk 0x1503 0x1503 1 192 .u8 0x155 0 .start 0 255 0 0,
   .mk 0x1510 0x1510 1 192 .u64 0x377 0 .num 0 18446744073709551615 0 129,
   .mk 0x1511 0x1511 1 192 .u64 0x377 0 .num 0 18446744073709551615 0 129,
   .mk 0x1512 0x1512 1 192 .u64 0x377 0 .num 0 18446744073709551615 0 129,
   .mk 0x1610 0x1610 1 192 .u64 0x377 0 .num 0 18446744073709551615 0 129,
   .mk 0x1611 0x1611 1 192 .u64 0x377 0 .num 0 18446744073709551615 0 129,
   .mk 0x1612 0x1612 1 192 .u64 0x377 0 .num 0 18446744073709551615 0 129,
   .mk 0x1710 0x1710 1 192 .u64 0x377 0 .num 0 18446744073709551615 0 129,
   .mk 0x1711 0x1711 1 192 .u64 0x377 0 .num 0 18446744073709551615 0 129,
   .mk 0x1712 0x1712 1 192 .u64 0x377 0 .num 0 18446744073709551615 0 129,
   .mk 0x1713 0x1713 1 192 .u64 0x377 0 .num 0 18446744073709551615 0 129,
   .mk 0x1810 0x1810 1 192 .u64 0x377 0 .num 0 18446744073709551615 0 129,
   .mk 0x1811 0x1811 1 192 .u64 0x377 0 .num 0 18446744073709551615 0 129,
   .mk 0x1812 0x1812 1 192 .u64 0x377 0 .num 0 18446744073709551615 0 129,
   .mk 0x1813 0x1813 1 192 .u64 0x377 0 .num 0 18446744073709551615 0 129,
   .mk 0x1814 0x1814 1 192 .u64 0x377 0 .num 0 18446744073709551615 0 129,
   .mk 0x1815 0x1815 1 192 .u64 0x377 0 .num 0 18446744073709551615 0 129,
   .mk 0x1900 0x1900 1 1 .u32 0x155 65536 .num 65536 65536 2 0,
   .mk 0x1900 0x1900 2 2 .u32 0x155 786432 .num 786432 786432 2 0,
   .mk 0x1901 0x1901 1 1 .u8 0x35F 85 .num 70 94 0 68,
   .mk 0x1901 0x1901 2 2 .u8 0x35F 88 .num 70 94 0 68,
   .mk 0x1901 0x1901 3 3 .u8 0x35F 91 .num 70 94 0 68,
   .mk 0x1901 0x1901 4 4 .u8 0x35F 94 .num 70 94 0 68,
   .mk 0x1902 0x1902 1 8 .i16 0x155 0 .measured (-40) 150 0 16,
   .mk 0x1903 0x1903 1 8 .u8 0x155 0 .num 0 4 0 16,
   .mk 0x1904 0x1904 1 1 .u16 0x35F 12 .num 1 168 0 0,
   .mk 0x1904 0x1904 2 2 .u16 0x35F 24 .num 1 168 0 0,
   .mk 0x1910 0x1910 1 8 .u64 0x145 0 .num 0 18446744073709551615 0 144]

def cat2 : List ObjRow :=
  [.mk 0x1911 0x1911 1 8 .u64 0x145 0 .num 0 18446744073709551615 0 144,
   .mk 0x1912 0x1912 1 8 .u64 0x145 0 .num 0 18446744073709551615 0 144,
   .mk 0x1913 0x1913 1 2 .u64 0x145 0 .num 0 18446744073709551615 0 144,
   .mk 0x1914 0x1914 1 2 .u64 0x145 0 .num 0 18446744073709551615 0 144,
   .mk 0x1920 0x1920 1 8 .u64 0x345 0 .num 0 18446744073709551615 0 144,
   .mk 0x1921 0x1921 1 8 .u64 0x345 0 .num 0 18446744073709551615 0 144,
   .mk 0x1922 0x1922 1 8 .u64 0x345 0 .num 0 18446744073709551615 0 144,
   .mk 0x1A00 0x1A00 1 1 .u32 0x155 131072 .num 131072 131072 2 0,
   .mk 0x1A01 0x1A01 1 1 .u64 0x143 0 .num 0 18446744073709551615 0 0,
   .mk 0x1A01 0x1A01 2 2 .u16 0x143 256 .num 16 4096 0 0,
   .mk 0x1A01 0x1A01 3 3 .u32 0x143 0 .num 0 4294967295 0 0,
   .mk 0x1A01 0x1A01 4 4 .u32 0x141 0 .num 0 4294967295 0 0,
   .mk 0x1A01 0x1A01 5 5 .bool 0x143 0 .num 0 1 0 0,
   .mk 0x1A10 0x1A10 1 192 .u64 0x377 0 .num 0 18446744073709551615 0 129,
   .mk 0x1A11 0x1A11 1 192 .u64 0x377 0 .num 0 18446744073709551615 0 129,
   .mk 0x1A12 0x1A12 1 192 .u64 0x377 0 .num 0 18446744073709551615 0 129,
   .mk 0x1B00 0x1B00 1 2 .u64 0x345 0 .num 0 18446744073709551615 0 144,
   .mk 0x1B01 0x1B01 1 2 .u64 0x345 0 .num 0 18446744073709551615 0 144,
   .mk 0x1B02 0x1B02 1 1 .u64 0x345 0 .num 0 18446744073709551615 0 144,
   .mk 0x1B03 0x1B03 1 1 .u64 0x345 0 .num 0 18446744073709551615 0 144,
   .mk 0x1B10 0x1B10 1 192 .u64 0x377 0 .num 0 18446744073709551615 0 129,
   .mk 0x1B11 0x1B11 1 192 .u64 0x377 0 .num 0 18446744073709551615 0 129,
   .mk 0x1C00 0x1C00 1 1 .u16 0x15F 0 .start 0 4095 0 0,
   .mk 0x1C00 0x1C00 2 2 .bool 0x35F 0 .num 0 1 0 0,
   .mk 0x1C00 0x1C00 3 3 .u32 0x14F 0 .num 0 4294967295 0 0,
   .mk 0x1C00 0x1C00 4 4 .u32 0x14D 0 .num 0 4294967295 0 0,
   .mk 0x1C00 0x1C00 5 5 .bool 0x15F 1 .num 0 1 0 0,
   .mk 0x1C00 0x1C00 6 6 .u8 0x14F 16 .num 2 31 0 0,
   .mk 0x1C00 0x1C00 7 7 .u32 0x15F 200 .num 10 100000 0 0,
   .mk 0x1C00 0x1C00 8 8 .u32 0x15F 10000 .num 100 1000000 0 0,
   .mk 0x1C00 0x1C00 9 9 .bool 0x14D 0 .num 0 1 0 0,
   .mk 0x1C01 0x1C01 1 32 .u8 0x155 0 .start 0 255 0 0,
   .mk 0x1C02 0x1C02 1 32 .u8 0x34F 0 .num 0 2 0 0,
   .mk 0x1C03 0x1C03 1 32 .bool 0x34F 0 .num 0 1 0 0,
   .mk 0x1C20 0x1C21 1 128 .u128 0x35F 0 .num 0 340282366920938463463374607431768211455 0 0,
   .mk 0x1C30 0x1C30 1 64 .u128 0x177 0 .num 0 340282366920938463463374607431768211455 0 0,
   .mk 0x1C40 0x1C40 1 64 .u32 0x0D5 0 .num 0 4294967295 0 0,
   .mk 0x1C50 0x1C50 1 32 .u64 0x345 0 .num 0 18446744073709551615 0 128,
   .mk 0x1C51 0x1C51 1 32 .u64 0x345 0 .num 0 18446744073709551615 0 128,
   .mk 0x1C52 0x1C52 1 32 .u64 0x345 0 .num 0 18446744073709551615 0 128]

def cat3 : List ObjRow :=
  [.mk 0x1C53 0x1C53 1 32 .u64 0x345 0 .num 0 18446744073709551615 0 128,
   .mk 0x1C54 0x1C54 1 32 .u64 0x345 0 .num 0 18446744073709551615 0 128,
   .mk 0x1C55 0x1C55 1 32 .u32 0x345 0 .num 0 4294967295 0 128,
   .mk 0x1C56 0x1C56 1 32 .u32 0x345 0 .num 0 4294967295 0 128,
   .mk 0x1C60 0x1C60 1 1 .u64 0x345 0 .num 0 18446744073709551615 0 128,
   .mk 0x1C60 0x1C60 2 2 .u64 0x345 0 .num 0 18446744073709551615 0 128,
   .mk 0x1C60 0x1C60 3 3 .u64 0x345 0 .num 0 18446744073709551615 0 128,
   .mk 0x1C60 0x1C60 4 4 .u32 0x345 0 .num 0 4294967295 0 128,
   .mk 0x1D00 0x1D1F 1 128 .u32 0x34F 0 .num 0 4294967295 0 0,
   .mk 0x1E00 0x1E00 1 1 .u8 0x155 0 .start 0 255 0 0,
   .mk 0x1E00 0x1E00 2 2 .u8 0x34F 0 .num 0 2 0 0,
   .mk 0x1E00 0x1E00 3 3 .u64 0x153 0 .num 0 4503599625273344 0 0,
   .mk 0x1E00 0x1E00 4 4 .u32 0x153 0 .num 0 4194304 0 0,
   .mk 0x1E00 0x1E00 5 5 .bool 0x153 0 .num 0 1 0 0,
   .mk 0x1E00 0x1E00 6 6 .u32 0x15F 100 .num 10 100000 0 0,
   .mk 0x1E01 0x1E01 1 64 .u32 0x04F 0 .num 0 262144 0 0,
   .mk 0x1E02 0x1E02 1 1 .u32 0x155 262144 .num 262144 262144 2 0,
   .mk 0x1E02 0x1E02 2 2 .u32 0x145 0 .num 0 262144 0 0,
   .mk 0x1E03 0x1E03 1 5 .u16 0x343 2048 .num 0 2048 0 0,
   .mk 0x1E04 0x1E04 1 64 .u32 0x045 0 .num 0 262144 0 0,
   .mk 0x1E10 0x1E10 1 9 .u64 0x345 0 .num 0 18446744073709551615 0 128,
   .mk 0x1E11 0x1E11 1 1 .u64 0x345 0 .num 0 18446744073709551615 0 128,
   .mk 0x1E12 0x1E12 1 64 .u128 0x155 0 .num 0 340282366920938463463374607431768211455 0 16,
   .mk 0x1F00 0x1F00 1 1 (.oct 32) 0x155 0 .package 0 32 2 0,
   .mk 0x1F00 0x1F00 2 2 (.oct 4096) 0x155 0 .start 0 4096 0 0,
   .mk 0x1F00 0x1F00 3 3 .u8 0x155 0 .start 0 1 0 0,
   .mk 0x1F00 0x1F00 4 4 (.oct 1616) 0x1D5 0 .start 0 1616 0 0,
   .mk 0x1F01 0x1F01 1 1 .u32 0x155 0 .start 0 64 0 0,
   .mk 0x1F01 0x1F01 2 2 .u32 0x155 0 .start 0 64 0 0,
   .mk 0x1F01 0x1F01 3 3 .u8 0x155 0 .package 0 64 2 0,
   .mk 0x1F01 0x1F01 4 4 .u8 0x155 0 .package 0 64 2 0,
   .mk 0x1F01 0x1F01 5 5 .u8 0x155 0 .start 0 2 0 0,
   .mk 0x1F01 0x1F01 6 6 .bool 0x04C 0 .num 0 1 0 0,
   .mk 0x1F01 0x1F01 7 7 .u8 0x145 0 .num 0 255 0 0,
   .mk 0x1F02 0x1F02 1 1 .u8 0x04A 0 .none 1 3 0 0,
   .mk 0x1F02 0x1F02 2 2 .u32 0x04F 0 .num 0 16777216 0 0,
   .mk 0x1F02 0x1F02 3 3 (.oct 4096) 0x00A 0 .none 1 4096 0 0,
   .mk 0x1F02 0x1F02 4 4 .u8 0x145 0 .num 0 255 0 0,
   .mk 0x1F03 0x1F03 1 1 (.oct 64) 0x044 0 .start 0 64 0 32,
   .mk 0x1F03 0x1F03 2 2 (.oct 256) 0x048 0 .none 0 256 0 0]

def cat4 : List ObjRow :=
  [.mk 0x1F03 0x1F03 3 3 .u8 0x155 0 .num 0 3 0 0,
   .mk 0x1F03 0x1F03 4 4 .u8 0x144 0 .num 0 255 0 0,
   .mk 0x1F10 0x1F10 1 64 (.oct 1616) 0x045 0 .num 0 1616 0 0,
   .mk 0x1F11 0x1F11 1 1 (.oct 1616) 0x010 0 .cloak 0 1616 0 2,
   .mk 0x2000 0x2000 1 1 (.oct 6) 0x155 0 .package 0 6 2 0,
   .mk 0x2000 0x2000 2 2 .u8 0x35D 0 .start 1 31 1 0,
   .mk 0x2000 0x2000 3 3 .u8 0x34D 32 .num 32 255 1 0,
   .mk 0x2000 0x2000 4 4 .u8 0x34D 0 .num 0 7 1 0,
   .mk 0x2000 0x2000 5 5 .u16 0x34D 34997 .num 1536 65535 1 0,
   .mk 0x2000 0x2000 6 6 .u8 0x145 0 .measured 0 255 0 0,
   .mk 0x2001 0x2001 1 8 (.oct 32) 0x14D 0 .num 0 32 1 0,
   .mk 0x2002 0x2002 1 5 .u128 0x145 0 .num 0 340282366920938463463374607431768211455 0 0,
   .mk 0x2002 0x2002 6 6 .u16 0x208 0 .none 1 65535 0 0,
   .mk 0x2003 0x2003 1 1 .u32 0x34D 5000 .num 100 600000 1 0,
   .mk 0x2003 0x2003 2 2 .u32 0x34D 1000 .num 100 10000 1 0,
   .mk 0x2004 0x2004 1 5 .u8 0x145 0 .num 0 32 0 0,
   .mk 0x2005 0x2005 1 1 .u64 0x345 0 .num 0 18446744073709551615 0 128,
   .mk 0x2005 0x2005 2 2 .u64 0x345 0 .num 0 18446744073709551615 0 128,
   .mk 0x2005 0x2005 3 3 .u64 0x345 0 .num 0 18446744073709551615 0 128,
   .mk 0x2005 0x2005 4 4 .u64 0x345 0 .num 0 18446744073709551615 0 128,
   .mk 0x2005 0x2005 5 5 .u64 0x345 0 .num 0 18446744073709551615 0 128,
   .mk 0x2005 0x2005 6 6 .u64 0x345 0 .num 0 18446744073709551615 0 128,
   .mk 0x2100 0x2100 1 1 .u16 0x35F 1800 .num 300 1800 1 4,
   .mk 0x2100 0x2100 2 2 .u8 0x35F 0 .num 0 4 1 4,
   .mk 0x2101 0x2101 1 1 .u16 0x35F 2600 .num 1200 2600 0 0,
   .mk 0x2101 0x2101 2 2 .u16 0x155 0 .start 1200 2600 0 0,
   .mk 0x2101 0x2101 3 3 .bool 0x20A 0 .none 0 1 0 0,
   .mk 0x2101 0x2101 4 4 .u32 0x155 0 .num 0 4294967295 0 0,
   .mk 0x2101 0x2101 5 9 .u64 0x155 0 .num 0 18446744073709551615 0 0,
   .mk 0x2102 0x2102 1 1 .u16 0x145 9000 .num 1500 9000 0 0,
   .mk 0x2102 0x2102 2 2 .u16 0x155 1000 .num 1000 1000 2 0,
   .mk 0x2102 0x2102 3 3 .u16 0x145 7200 .num 0 7200 0 0,
   .mk 0x2102 0x2102 4 4 .u16 0x145 0 .num 0 7200 0 0,
   .mk 0x2102 0x2102 5 5 .u16 0x145 0 .start 0 7200 0 0,
   .mk 0x2103 0x2103 1 1 .u8 0x34D 95 .num 80 104 0 64,
   .mk 0x2103 0x2103 2 2 .u8 0x34D 99 .num 80 104 0 64,
   .mk 0x2103 0x2103 3 3 .u8 0x34D 102 .num 80 104 0 64,
   .mk 0x2103 0x2103 4 4 .u8 0x34D 16 .num 8 64 0 0,
   .mk 0x2103 0x2103 5 5 .bool 0x34D 1 .num 0 1 0 0,
   .mk 0x2104 0x2104 1 3 .u64 0x140 0 .num 0 18446744073709551615 0 128]

def cat5 : List ObjRow :=
  [.mk 0x2104 0x2104 4 4 .u32 0x145 0 .num 0 4294967295 0 128,
   .mk 0x2104 0x2104 5 5 .u32 0x145 0 .num 0 4294967295 0 128,
   .mk 0x2104 0x2104 6 6 .u32 0x145 0 .num 0 4294967295 0 128,
   .mk 0x2104 0x2104 7 7 .u32 0x145 0 .num 0 4294967295 0 128,
   .mk 0x2105 0x2105 1 1 .u16 0x155 0 .measured 0 4000 0 16,
   .mk 0x2105 0x2105 2 3 .u16 0x155 0 .measured 0 4000 0 16,
   .mk 0x2105 0x2105 4 5 .i16 0x155 0 .measured (-40) 150 0 16,
   .mk 0x2105 0x2105 6 7 .u8 0x155 0 .num 0 3 0 16,
   .mk 0x2105 0x2105 8 8 .u64 0x145 0 .num 0 18446744073709551615 0 144,
   .mk 0x2105 0x2105 9 9 .u64 0x145 0 .num 0 18446744073709551615 0 144,
   .mk 0x2110 0x2110 1 192 .u32 0x155 0 .measured 0 4294967295 0 17,
   .mk 0x2111 0x2111 1 192 .i16 0x155 0 .measured (-40) 150 0 17,
   .mk 0x2200 0x2200 1 1 .u8 0x155 1 .num 0 6 0 0,
   .mk 0x2200 0x2200 2 2 .u32 0x155 0 .num 0 4294967295 0 0,
   .mk 0x2200 0x2200 3 3 .u32 0x155 0 .num 0 4294967295 1 0,
   .mk 0x2200 0x2200 4 4 .bool 0x20A 0 .none 0 1 0 0,
   .mk 0x2200 0x2200 5 5 .u8 0x34D 1 .num 0 1 0 0,
   .mk 0x2200 0x2200 6 6 .u16 0x145 0 .num 0 65535 0 0,
   .mk 0x2200 0x2200 7 7 .u16 0x208 0 .none 0 65535 0 0,
   .mk 0x2200 0x2200 8 8 .u32 0x155 0 .num 0 4294967295 0 0,
   .mk 0x2200 0x2200 9 9 .bool 0x155 0 .num 0 1 0 0,
   .mk 0x2201 0x2201 1 15 .u8 0x155 0 .num 0 3 0 0,
   .mk 0x2202 0x2202 1 32 .u32 0x155 0 .num 0 4294967295 0 0,
   .mk 0x2202 0x2202 33 33 .u16 0x155 0 .num 0 65535 0 0,
   .mk 0x2203 0x2203 1 1 .u8 0x35F 100 .num 80 104 1 4,
   .mk 0x2203 0x2203 2 2 .u8 0x35F 90 .num 70 94 1 4,
   .mk 0x2203 0x2203 3 3 .u16 0x35F 1750 .num 300 1800 1 4,
   .mk 0x2203 0x2203 4 4 .u16 0x35F 1 .num 1 65535 1 4,
   .mk 0x2204 0x2204 1 64 (.oct 32) 0x141 0 .num 32 32 0 16,
   .mk 0x2204 0x2204 65 65 .bool 0x002 0 .none 0 1 0 16,
   .mk 0x2204 0x2204 66 66 .u32 0x141 0 .num 0 4294967295 0 16,
   .mk 0x2205 0x2205 1 64 (.oct 32) 0x144 0 .num 32 32 0 16,
   .mk 0x2205 0x2205 65 65 .bool 0x008 0 .none 0 1 0 16,
   .mk 0x2205 0x2205 66 66 .u32 0x144 0 .num 0 4294967295 0 16,
   .mk 0x2206 0x2206 1 64 (.oct 32) 0x010 0 .num 32 32 0 2,
   .mk 0x2207 0x2207 1 9 .u64 0x145 0 .num 0 18446744073709551615 0 144,
   .mk 0x2300 0x2300 1 1 .u16 0x155 0 .start 0 4095 0 0,
   .mk 0x2300 0x2300 2 2 .u8 0x155 0 .measured 0 31 0 0,
   .mk 0x2300 0x2300 3 3 .bool 0x145 0 .measured 0 1 0 0,
   .mk 0x2301 0x2301 1 1 .u16 0x34F 800 .num 770 830 1 4]

def cat6 : List ObjRow :=
  [.mk 0x2301 0x2301 2 2 .u16 0x34F 800 .num 770 830 1 4,
   .mk 0x2301 0x2301 3 3 .u16 0x34F 700 .num 680 720 1 4,
   .mk 0x2301 0x2301 4 4 .u16 0x34F 850 .num 830 870 1 4,
   .mk 0x2301 0x2301 5 5 .u16 0x34F 1200 .num 1170 1230 1 4,
   .mk 0x2301 0x2301 6 6 .u16 0x34F 850 .num 820 900 1 4,
   .mk 0x2301 0x2301 7 7 .u16 0x34F 800 .num 770 850 1 4,
   .mk 0x2301 0x2301 8 8 .u16 0x34F 750 .num 720 800 1 4,
   .mk 0x2302 0x2302 1 8 .u16 0x155 0 .measured 0 4000 0 16,
   .mk 0x2302 0x2302 9 16 .u16 0x155 0 .measured 0 2000 0 16,
   .mk 0x2302 0x2302 17 18 .u16 0x155 0 .measured 0 2500 0 16,
   .mk 0x2302 0x2302 19 19 .u32 0x145 0 .num 0 4294967295 0 144,
   .mk 0x2303 0x2303 1 8 .u8 0x34F 64 .num 8 119 1 0,
   .mk 0x2303 0x2303 9 9 .u32 0x145 0 .num 0 4294967295 0 128,
   .mk 0x2304 0x2304 1 1 .u32 0x34D 115200 .num 9600 1000000 1 0,
   .mk 0x2304 0x2304 2 2 .bool 0x345 0 .num 0 1 0 0,
   .mk 0x2304 0x2304 3 3 .u8 0x145 0 .num 0 1 0 0,
   .mk 0x2304 0x2304 4 4 .bool 0x155 0 .num 0 1 0 0]

/-- Every row, in ascending order of pairs. -/
def catalogue : List ObjRow := cat0 ++ cat1 ++ cat2 ++ cat3 ++ cat4 ++ cat5 ++ cat6

/-- The row of a pair (subindex 0 is not in the rows). -/
def catRow (idx sub : Nat) : Option ObjRow :=
  catalogue.find? (fun r => decide (r.idxLo ≤ idx) && decide (idx ≤ r.idxHi) && decide (r.subLo ≤ sub) && decide (sub ≤ r.subHi))

/-- The highest subindex of a present index (R379). -/
def catHighest (idx : Nat) : Option Nat :=
  catalogue.foldl (fun (m : Option Nat) r =>
    if r.idxLo ≤ idx ∧ idx ≤ r.idxHi then some (match m with | some x => Nat.max x r.subHi | none => r.subHi) else m) none

/-- The size of a type in bytes; for strings and octets, the size that the type names. -/
def OTy.size : OTy → Nat
  | .bool => 1
  | .u8 => 1
  | .u16 => 2
  | .u32 => 4
  | .u64 => 8
  | .u128 => 16
  | .i16 => 2
  | .i32 => 4
  | .str n => n
  | .oct n => n

/-- Its code in Table 17.1. -/
def OTy.code : OTy → Nat
  | .bool => 1
  | .u8 => 2
  | .u16 => 3
  | .u32 => 4
  | .u64 => 5
  | .u128 => 6
  | .i16 => 7
  | .i32 => 8
  | .str _ => 0x10
  | .oct _ => 0x11

/-- The indices present and the objects present (objects 0x0000.02 and 0x0000.03). -/
def catIndices : Nat := 153
def catObjects : Nat := 12466

end Sys2Proof.Machine
end

