-- ==== Sys2Proof/Machine/Hash.lean ====
section
/-!
DEFINITION. Hash.lean: SHA-256, SHA-384, HMAC and HKDF (00 R15, Table 0.6), written from the standards that the spec names: PRESUMED
(assumption 4).
-/
namespace Sys2Proof.Crypto

/-! ### Byte strings and numbers -/

/-- The `n` bytes of a number, most significant first. -/
def be (n v : Nat) : Bytes := (natLe n v).reverse

/-- The number that a byte string spells, most significant byte first. -/
def beVal (b : Bytes) : Nat := leNat b.reverse

/-- The ASCII bytes of a text, without a terminator. -/
def text (t : String) : Bytes := t.toList.map (fun c => BitVec.ofNat 8 c.toNat)

/-- The first `k` blocks of `n` bytes. -/
def blocks : Nat → Nat → Bytes → List Bytes
  | 0, _, _ => []
  | k + 1, n, m => m.take n :: blocks k n (m.drop n)

/-- Exclusive or, byte by byte, as long as the shorter one. -/
def xorBytes (a b : Bytes) : Bytes := List.zipWith (· ^^^ ·) a b

/-! ### SHA-2 -/

/-- One of the two SHA-2 families: the width of a word, the amounts of the four functions (the last of `small0` and `small1` is a shift,
the others rotate), the constants of the rounds. -/
structure Sha2 where
  w : Nat
  big0 : Nat × Nat × Nat
  big1 : Nat × Nat × Nat
  small0 : Nat × Nat × Nat
  small1 : Nat × Nat × Nat
  k : List Nat

/-- The round constants: the first 64 fraction bits of the cube roots of the first 80 primes. -/
def roundConstants : List Nat :=
  [0x428a2f98d728ae22, 0x7137449123ef65cd, 0xb5c0fbcfec4d3b2f, 0xe9b5dba58189dbbc, 0x3956c25bf348b538,
   0x59f111f1b605d019, 0x923f82a4af194f9b, 0xab1c5ed5da6d8118, 0xd807aa98a3030242, 0x12835b0145706fbe,
   0x243185be4ee4b28c, 0x550c7dc3d5ffb4e2, 0x72be5d74f27b896f, 0x80deb1fe3b1696b1, 0x9bdc06a725c71235,
   0xc19bf174cf692694, 0xe49b69c19ef14ad2, 0xefbe4786384f25e3, 0x0fc19dc68b8cd5b5, 0x240ca1cc77ac9c65]
  ++ [0x2de92c6f592b0275, 0x4a7484aa6ea6e483, 0x5cb0a9dcbd41fbd4, 0x76f988da831153b5, 0x983e5152ee66dfab,
   0xa831c66d2db43210, 0xb00327c898fb213f, 0xbf597fc7beef0ee4, 0xc6e00bf33da88fc2, 0xd5a79147930aa725,
   0x06ca6351e003826f, 0x142929670a0e6e70, 0x27b70a8546d22ffc, 0x2e1b21385c26c926, 0x4d2c6dfc5ac42aed,
   0x53380d139d95b3df, 0x650a73548baf63de, 0x766a0abb3c77b2a8, 0x81c2c92e47edaee6, 0x92722c851482353b]
  ++ [0xa2bfe8a14cf10364, 0xa81a664bbc423001, 0xc24b8b70d0f89791, 0xc76c51a30654be30, 0xd192e819d6ef5218,
   0xd69906245565a910, 0xf40e35855771202a, 0x106aa07032bbd1b8, 0x19a4c116b8d2d0c8, 0x1e376c085141ab53,
   0x2748774cdf8eeb99, 0x34b0bcb5e19b48a8, 0x391c0cb3c5c95a63, 0x4ed8aa4ae3418acb, 0x5b9cca4f7763e373,
   0x682e6ff3d6b2b8a3, 0x748f82ee5defb2fc, 0x78a5636f43172f60, 0x84c87814a1f0ab72, 0x8cc702081a6439ec]
  ++ [0x90befffa23631e28, 0xa4506cebde82bde9, 0xbef9a3f7b2c67915, 0xc67178f2e372532b, 0xca273eceea26619c,
   0xd186b8c721c0c207, 0xeada7dd6cde0eb1e, 0xf57d4f7fee6ed178, 0x06f067aa72176fba, 0x0a637dc5a2c898a6,
   0x113f9804bef90dae, 0x1b710b35131c471b, 0x28db77f523047d84, 0x32caab7b40c72493, 0x3c9ebe0a15c9bebc,
   0x431d67c49c100d4c, 0x4cc5d4becb3e42b6, 0x597f299cfc657e2a, 0x5fcb6fab3ad6faec, 0x6c44198c4a475817]

/-- SHA-256's words have 32 bits. Its constants are the upper halves of the first 64. -/
def sha2Of32 : Sha2 := ⟨32, (2, 13, 22), (6, 11, 25), (7, 18, 3), (17, 19, 10), (roundConstants.take 64).map (· / 2 ^ 32)⟩

/-- SHA-384's words have 64 bits. -/
def sha2Of64 : Sha2 := ⟨64, (28, 34, 39), (14, 18, 41), (1, 8, 7), (19, 61, 6), roundConstants⟩

/-- A word rotated right. -/
def rotr (w x n : Nat) : Nat := x >>> n ||| x <<< (w - n) % 2 ^ w

/-- Three rotations together. -/
def Sha2.big (p : Sha2) (r : Nat × Nat × Nat) (x : Nat) : Nat := rotr p.w x r.1 ^^^ rotr p.w x r.2.1 ^^^ rotr p.w x r.2.2

/-- Two rotations and a shift. -/
def Sha2.small (p : Sha2) (r : Nat × Nat × Nat) (x : Nat) : Nat := rotr p.w x r.1 ^^^ rotr p.w x r.2.1 ^^^ x >>> r.2.2

/-- One round: the first of the 16 waiting words is used and the next one of the schedule joins them. -/
def Sha2.round (p : Sha2) (c : List Nat × List Nat) (k : Nat) : List Nat × List Nat :=
  match c with
  | (w0 :: ws, [a, b, c, d, e, f, g, h]) =>
    let m := 2 ^ p.w
    let t1 := h + p.big p.big1 e + (e &&& f ^^^ (m - 1 - e) &&& g) + k + w0
    let t2 := p.big p.big0 a + (a &&& b ^^^ a &&& c ^^^ b &&& c)
    let next := (p.small p.small1 (ws.getD 13 0) + ws.getD 8 0 + p.small p.small0 (ws.getD 0 0) + w0) % m
    (ws ++ [next], [(t1 + t2) % m, a, b, c, (d + t1) % m, e, f, g])
  | x => x

/-- One block. -/
def Sha2.block (p : Sha2) (h : List Nat) (b : Bytes) : List Nat :=
  let words := (blocks 16 (p.w / 8) b).map beVal
  List.zipWith (fun x y => (x + y) % 2 ^ p.w) h (p.k.foldl p.round (words, h)).2

/-- The padded message: a one bit, zeros, and the length in bits. -/
def Sha2.pad (p : Sha2) (m : Bytes) : Bytes :=
  let n := m.length
  let size := 2 * p.w
  m ++ 0x80 :: List.replicate ((2 * size - (n + 1 + p.w / 4) % size) % size) 0 ++ be (p.w / 4) (8 * n)

/-- The hash of a message from a starting state. -/
def Sha2.hash (p : Sha2) (h : List Nat) (m : Bytes) : Bytes :=
  let b := p.pad m
  ((blocks (b.length / (2 * p.w)) (2 * p.w) b).foldl p.block h).flatMap (be (p.w / 8))

/-- SHA-256 as bytes: from the fraction bits of the square roots of the first 8 primes. -/
@[irreducible] def hash256 (m : Bytes) : Bytes :=
  sha2Of32.hash [0x6a09e667, 0xbb67ae85, 0x3c6ef372, 0xa54ff53a, 0x510e527f, 0x9b05688c, 0x1f83d9ab, 0x5be0cd19] m

/-- SHA-384 as bytes: from the fraction bits of the square roots of the ninth to the sixteenth prime, cut to 48 bytes. -/
@[irreducible] def hash384 (m : Bytes) : Bytes :=
  (sha2Of64.hash [0xcbbb9d5dc1059ed8, 0x629a292a367cd507, 0x9159015a3070dd17, 0x152fecd8f70e5939, 0x67332667ffc00b31, 0x8eb44a8768581511, 0xdb0c2e0d64f98fa7, 0x47b5481dbefa4fa4] m).take 48

/-- SHA-256 of a byte string, its first byte the most significant one. -/
def sha256 (m : Bytes) : BitVec 256 := BitVec.ofNat 256 (beVal (hash256 m))

/-- SHA-384 of a byte string, its first byte the most significant one. -/
def sha384 (m : Bytes) : BitVec 384 := BitVec.ofNat 384 (beVal (hash384 m))

/-! ### HMAC and HKDF -/

/-- A hash function with the sizes of its block and its result. -/
structure HashFn where
  f : Bytes → Bytes
  block : Nat
  size : Nat

def fn256 : HashFn := ⟨hash256, 64, 32⟩
def fn384 : HashFn := ⟨hash384, 128, 48⟩

/-- HMAC (RFC 2104). -/
def hmac (h : HashFn) (key m : Bytes) : Bytes :=
  let k := if h.block < key.length then h.f key else key
  let k := k ++ List.replicate (h.block - k.length) 0
  h.f (k.map (· ^^^ 0x5C) ++ h.f (k.map (· ^^^ 0x36) ++ m))

/-- HKDF's first step (RFC 5869): an empty salt is one of zero bytes. -/
def extract (h : HashFn) (salt ikm : Bytes) : Bytes := hmac h (if salt.isEmpty then List.replicate h.size 0 else salt) ikm

/-- HKDF's second step: the blocks T(i), each from the one before. -/
def expandBlocks (h : HashFn) (prk info : Bytes) : Nat → Nat → Bytes → Bytes
  | 0, _, _ => []
  | n + 1, i, last =>
    let t := hmac h prk (last ++ info ++ be 1 i)
    t ++ expandBlocks h prk info n (i + 1) t

def expand (h : HashFn) (prk info : Bytes) (len : Nat) : Bytes := (expandBlocks h prk info ((len + h.size - 1) / h.size) 1 []).take len

/-- HKDF-SHA-384 (R48, R336, R362, R402): `len` bytes from a salt, an input key and an info string. -/
def hkdf384 (salt ikm info : Bytes) (len : Nat) : Bytes := expand fn384 (extract fn384 salt ikm) info len

end Sys2Proof.Crypto
end

