-- ==== Sys2Proof/Machine/Cipher.lean ====
section
/-!
DEFINITION. Cipher.lean: AES-256 and its modes GCM, XTS and CMAC (00 R15, Table 0.6), written from the standards that the spec names:
PRESUMED (assumption 4). A key of 256 bits is a number whose most significant byte is the key's first; so is a 96-bit nonce.
-/
namespace Sys2Proof.Crypto

/-! ### AES-256 -/

/-- The byte `x` of a table of 256 bytes. -/
def tableByte (t : Nat) (x : Byte) : Byte := BitVec.ofNat 8 (t >>> (8 * x.toNat))

def sTable : Nat :=
  0x16bb54b00f2d99416842e6bf0d89a18cdf2855cee9871e9b948ed9691198f8e19e1dc186b95735610ef6034866b53e708a8bbd4b1f74dde8c6b4a61c2e2578ba08ae7a65eaf4566ca94ed58d6d37c8e779e4959162acd3c25c2406490a3a32e0db0b5ede14b8ee4688902a22dc4f816073195d643d7ea7c41744975fec130ccdd2f3ff1021dab6bcf5389d928f40a351a89f3c507f02f94585334d43fbaaefd0cf584c4a39becb6a5bb1fc20ed00d153842fe329b3d63b52a05a6e1b1a2c830975b227ebe28012079a059618c323c7041531d871f1e5a534ccf73f362693fdb7c072a49cafa2d4adf04759fa7dc982ca76abd7fe2b670130c56f6bf27b777c63

def sInvTable : Nat :=
  0x7d0c2155631469e126d677ba7e042b17619953833cbbebc8b0f52aae4d3be0a0ef9cc9939f7ae52d0d4ab519a97f51605fec8027591012b131c7078833a8dd1ff45acd78fec0db9a2079d2c64b3e56fc1bbe18aa0e62b76f89c5291d711af1476edf751ce837f9e28535ade72274ac9673e6b4f0cecff297eadc674f4111913a6b8a130103bdafc1020f3fca8f1e2cd00645b3b80558e4f70ad3bc8c00abd890849d8da75746155edab9edfd5048706c92b6655dcc5ca4d41698688664f6f87225d18b6d49a25b76b224d92866a12e084ec3fa420b954cee3d23c2a632947b54cbe9dec444438e3487ff2f9b8239e37cfbd7f3819ea340bf38a53630d56a0952

def subByte (x : Byte) : Byte := tableByte sTable x
def subByteInv (x : Byte) : Byte := tableByte sInvTable x

/-- A byte times 2 in GF(2^8). -/
def twice (x : Byte) : Byte := x <<< 1 ^^^ (if x.getLsbD 7 then 0x1B else 0)

/-- A byte times a constant of four bits. -/
def times (c : Nat) (x : Byte) : Byte :=
  (if c.testBit 0 then x else 0) ^^^ (if c.testBit 1 then twice x else 0) ^^^ (if c.testBit 2 then twice (twice x) else 0)
    ^^^ (if c.testBit 3 then twice (twice (twice x)) else 0)

/-- The bytes of a state taken in another order. -/
def permute (order : List Nat) (b : Bytes) : Bytes := order.map (fun i => b.getD i 0)

/-- Each column times a circulant matrix. -/
def mixWith (m : List Nat) (b : Bytes) : Bytes :=
  (blocks 4 4 b).flatMap (fun col => (List.range 4).map (fun r =>
    (List.range 4).foldl (fun (a : Byte) c => a ^^^ times (m.getD ((c + 4 - r) % 4) 0) (col.getD c 0)) 0))

def shiftRows : Bytes → Bytes := permute [0, 5, 10, 15, 4, 9, 14, 3, 8, 13, 2, 7, 12, 1, 6, 11]
def shiftRowsInv : Bytes → Bytes := permute [0, 13, 10, 7, 4, 1, 14, 11, 8, 5, 2, 15, 12, 9, 6, 3]

/-- The words of the key schedule after the first eight, in turn from the last eight: word `i`, with its round constant. -/
def scheduleFrom : Nat → Nat → Byte → List Bytes → List Bytes
  | 0, _, _, _ => []
  | n + 1, i, rc, last =>
    let t := last.getD 7 []
    let t := if i % 8 = 0 then xorBytes ((permute [1, 2, 3, 0] t).map subByte) [rc, 0, 0, 0] else if i % 8 = 4 then t.map subByte else t
    let w := xorBytes (last.getD 0 []) t
    w :: scheduleFrom n (i + 1) (if i % 8 = 0 then twice rc else rc) (last.drop 1 ++ [w])

/-- The 15 round keys of a key. -/
def roundKeys (key : Nat) : List Bytes :=
  let first := blocks 8 4 (be 32 key)
  blocks 15 16 ((first ++ scheduleFrom 52 8 1 first).flatMap id)

/-- AES-256 on one block under its round keys. -/
def encryptWith (k : List Bytes) (b : Bytes) : Bytes :=
  let mid := ((k.drop 1).take 13).foldl (fun s r => xorBytes (mixWith [2, 3, 1, 1] (shiftRows (s.map subByte))) r) (xorBytes b (k.getD 0 []))
  xorBytes (shiftRows (mid.map subByte)) (k.getD 14 [])

/-- Its inverse. -/
def decryptWith (k : List Bytes) (b : Bytes) : Bytes :=
  let start := (shiftRowsInv (xorBytes b (k.getD 14 []))).map subByteInv
  ((k.drop 1).take 13).foldr (fun r s => (shiftRowsInv (mixWith [14, 11, 13, 9] (xorBytes s r))).map subByteInv) start |> xorBytes (k.getD 0 [])

/-! ### GCM -/

/-- A product in GCM's field: bit 127 of a number is the field element's first bit. -/
def ghashMul : Nat → Nat → Nat → Nat → Nat
  | 0, _, _, z => z
  | n + 1, x, v, z =>
    ghashMul n x (v >>> 1 ^^^ (if v.testBit 0 then 0xE1 <<< 120 else 0)) (if x.testBit n then z ^^^ v else z)

/-- Zeros up to a multiple of 16 bytes. -/
def pad16 (b : Bytes) : Bytes := b ++ List.replicate ((16 - b.length % 16) % 16) 0

def ghash (h : Nat) (b : Bytes) : Nat := (blocks (b.length / 16) 16 b).foldl (fun y x => ghashMul 128 (y ^^^ beVal x) h 0) 0

/-- Counter mode from counter 2 on. -/
def gcmStream (k : List Bytes) (nonce n : Nat) : Bytes :=
  (List.range ((n + 15) / 16)).flatMap (fun i => encryptWith k (be 16 (nonce % 2 ^ 96 * 2 ^ 32 + (i + 2) % 2 ^ 32)))

/-- AES-256-GCM: the ciphertext of a plaintext under a key and a nonce. The additional data enters the tag only. -/
@[irreducible] def gcmSeal (key nonce : Nat) (_aad pt : Bytes) : Bytes := xorBytes pt (gcmStream (roundKeys key) nonce pt.length)

/-- AES-256-GCM: the plaintext of a ciphertext. -/
def gcmOpen (key nonce : Nat) (aad ct : Bytes) : Bytes := gcmSeal key nonce aad ct

/-- AES-256-GCM: the 16-byte tag of a plaintext with its additional data. -/
@[irreducible] def gcmTag (key nonce : Nat) (aad pt : Bytes) : BitVec 128 :=
  let k := roundKeys key
  let ct := gcmSeal key nonce aad pt
  let y := ghash (beVal (encryptWith k (be 16 0))) (pad16 aad ++ pad16 ct ++ be 8 (8 * aad.length) ++ be 8 (8 * ct.length))
  BitVec.ofNat 128 (y ^^^ beVal (encryptWith k (be 16 (nonce % 2 ^ 96 * 2 ^ 32 + 1))))

/-! ### CMAC -/

/-- A subkey: twice a block in CMAC's field. -/
def cmacDouble (x : Nat) : Nat := x * 2 % 2 ^ 128 ^^^ (if x.testBit 127 then 0x87 else 0)

/-- AES-256-CMAC over a byte string. -/
@[irreducible] def cmac (key : Nat) (m : Bytes) : BitVec 128 :=
  let k := roundKeys key
  let k1 := cmacDouble (beVal (encryptWith k (be 16 0)))
  let n := Nat.max 1 ((m.length + 15) / 16)
  let tail := m.drop (16 * (n - 1))
  let last := if tail.length = 16 then beVal tail ^^^ k1 else beVal (tail ++ 0x80 :: List.replicate (15 - tail.length) 0) ^^^ cmacDouble k1
  let c := (blocks (n - 1) 16 m).foldl (fun c b => encryptWith k (xorBytes c b)) (be 16 0)
  BitVec.ofNat 128 (beVal (encryptWith k (xorBytes c (be 16 last))))

/-! ### XTS -/

/-- The next block's tweak: twice the last in XTS's field, whose numbers are little-endian. -/
def nextTweak (t : Nat) : Nat := t * 2 % 2 ^ 128 ^^^ (if t.testBit 127 then 0x87 else 0)

/-- The blocks of one data unit of whole blocks, each with its tweak. -/
def xtsBlocks (f : Bytes → Bytes) : Nat → Nat → Bytes → Bytes
  | 0, _, _ => []
  | n + 1, t, m => xorBytes (f (xorBytes (m.take 16) (natLe 16 t))) (natLe 16 t) ++ xtsBlocks f n (nextTweak t) (m.drop 16)

/-- The first tweak: the unit's number, encrypted under the key's second half. -/
def firstTweak (key tweak : Nat) : Nat := leNat (encryptWith (roundKeys (key % 2 ^ 256)) (natLe 16 tweak))

/-- AES-256-XTS over one data unit of whole blocks (R249). The 512-bit key's first half encrypts the data. -/
@[irreducible] def xts (key tweak : Nat) (m : Bytes) : Bytes :=
  xtsBlocks (encryptWith (roundKeys (key / 2 ^ 256))) (m.length / 16) (firstTweak key tweak) m

/-- Its inverse. -/
@[irreducible] def xtsOpen (key tweak : Nat) (c : Bytes) : Bytes :=
  xtsBlocks (decryptWith (roundKeys (key / 2 ^ 256))) (c.length / 16) (firstTweak key tweak) c

end Sys2Proof.Crypto
end

