-- ==== Sys2Proof/Config.lean ====
section
/-!
DEFINITION. Config.lean: what the spec leaves open, as constants without a body. No proof can see a value of one of
them, so a statement holds whatever the value is. They are the free values of the model (assumption 1), the fixed
hashes and instruction lists that the spec names and does not give (assumptions 2 and 3), and what certificates and error-correcting codes
leave to standards without saying which choice of theirs (assumption 4).
-/
namespace Sys2Proof

/-- A free value: `freeValue n use i` is the `i`-th value that a command whose counter reads `n` leaves open at the place
named `use`. Nothing constrains it. DESIGN CHOICE (assumption 1). -/
opaque freeValue (n use i : Nat) : Nat

/-- A free bit. -/
def freeBit (n use i : Nat) : Bool := freeValue n use i % 2 == 1

/-- A free choice of one of `k` values, numbered from 0. -/
def freePick (n use i k : Nat) : Nat := freeValue n use i % k

/-- The draw of an array's rounding generator: a value of the key, of the number of the fold and of the cell (06 R156; the generator is
not given). -/
opaque foldDraw (key : BitVec 128) (fold cell : Nat) : Nat

/-- The set that the fixed hash of R272 gives a page number, a page size and an ASID (the hash is not given). -/
opaque collarHash (page size asid : Nat) : Nat

/-- The set of a home agent's snoop filter, and of the host-line tracker, that a line falls into (R285, R299; not given). -/
opaque filterSet (line : Nat) : Nat

/-- The fixed hash that chooses one port of a route entry (14_tlastozal_fabric); the hash is not given. -/
opaque portHash (srcPkg dstPkg addr : Nat) : Nat

/-- The 64-bit result of an instruction whose meaning stands in Lerunar's separate instruction set reference (R67):
`otherOp group func a b c`. The spec gives the group and the operands, not the function. -/
opaque otherOp (group func a b c : Nat) : Nat

/-- The place of an element of a GMMA operand (0 A, 1 B, 2 the accumulators) among the elements of its registers (R209: the
layout across lanes stands in the separate reference). -/
opaque gmmaLayout (operand row col : Nat) : Nat

/-- What a certificate that the device generates says (16 R364, Table 16.3). `tcb` holds the model, the SVN and the fwid of the
TcbInfo extension, whose vendor is "Lerunar". -/
structure Cert where
  serial : Bytes
  issuer : String
  subject : String
  notBefore : String
  notAfter : String
  key : Bytes
  ca : Bool
  pathLen : Option Nat
  keyCertSign : Bool
  digitalSignature : Bool
  tcb : String × Nat × BitVec 384
  deriving DecidableEq, Repr

namespace Crypto

/-- The DER of what a certificate's signature covers, and of the certificate with its signature (R364: X.509 version 3). -/
opaque derTbs (c : Cert) : Bytes
opaque derCert (tbs sig : Bytes) : Bytes

/-- The two certificates of the boot flash's identity region (Table 16.7), the device CA's first; none where it is unreadable. -/
opaque identityCerts (region : Bytes) : Option (Bytes × Bytes)

/-- The subject key of a certificate, the bytes that its signature covers, and its signature. -/
opaque certKey (der : Bytes) : Bytes
opaque certTbs (der : Bytes) : Bytes
opaque certSig (der : Bytes) : Bytes

/-- The check symbols of a Reed–Solomon code over 8-bit symbols with `n` of them; the spec gives neither the field's polynomial
nor the generator (R247, R248). -/
opaque rsCheck (n : Nat) (m : Bytes) : Bytes

/-- The subject key of the last certificate of a chain, where every certificate verifies and the chain ends in the Lerunar
root (R336, R364). -/
opaque chainKey (chain : Bytes) : Option Bytes

end Crypto
end Sys2Proof
end

