-- ==== Sys2Proof/Machine/Num.lean ====
section
/-!
DEFINITION. Machine/Num.lean: number formats, exact values, rounding and conversion
(06_accumulation_and_numerics R144 to R151, R167; Tables 6.1, 6.2, 6.9).
-/
namespace Sys2Proof.Machine
open Sys2Proof

/-- A value that an encoding stands for: NaN (signalling or not), an infinity, or the number (-1)^neg * m * 2^e, exact. -/
inductive Val where
  | nan (signalling : Bool)
  | inf (neg : Bool)
  | fin (neg : Bool) (m : Nat) (e : Int)
  deriving DecidableEq, Repr, Inhabited

/-- What the top exponent code of a floating-point format holds (Table 6.1). -/
inductive Specials where
  | infNan      -- infinity and NaN, as in IEEE 754-2019 and FP8-E5M2
  | nanTop      -- ordinary numbers, and NaN for the all-ones fraction (FP8-E4M3)
  | none        -- ordinary numbers only (FP4-E2M1)
  deriving DecidableEq, Repr

/-- A number format: floating point with its field widths and bias, or an integer (Table 6.1). -/
inductive Fmt where
  | flt (ebits fbits bias : Nat) (sp : Specials)
  | int (w : Nat) (signed : Bool)
  deriving DecidableEq, Repr

def f64 : Fmt := .flt 11 52 1023 .infNan
def f32 : Fmt := .flt 8 23 127 .infNan
def f16 : Fmt := .flt 5 10 15 .infNan
def bf16 : Fmt := .flt 8 7 127 .infNan
def e4m3 : Fmt := .flt 4 3 7 .nanTop
def e5m2 : Fmt := .flt 5 2 15 .infNan
def fp4 : Fmt := .flt 2 1 1 .none
def w48 : Fmt := .flt 10 37 511 .infNan
def i8 : Fmt := .int 8 true
def i4 : Fmt := .int 4 true
def i32 : Fmt := .int 32 true

/-- The format of a code of Table 3.11; BS8 (9) is a codec and the codes 11 to 15 are reserved. -/
def fmtOfCode (c : Nat) : Option Fmt :=
  match c with
  | 0 => some e4m3
  | 1 => some e5m2
  | 2 => some i8
  | 3 => some bf16
  | 4 => some f16
  | 5 => some fp4
  | 6 => some i4
  | 7 => some f32
  | 8 => some w48
  | 10 => some i32
  | _ => none

/-- The width of a format in bits. -/
def Fmt.width : Fmt → Nat
  | .flt eb fb _ _ => 1 + eb + fb
  | .int w _ => w

/-- The width in bits of the format of a code (W48 where the code names none). -/
def codeWidth (c : Nat) : Nat := match fmtOfCode c with | some f => f.width | none => 48

def zeroVal : Val := .fin false 0 0

/-- The value of an encoding (Tables 6.1 and 6.2). -/
def decodeVal (f : Fmt) (bits : Nat) : Val :=
  match f with
  | .int w sgn =>
    let v := bits % 2 ^ w
    if sgn && v.testBit (w - 1) then .fin true (2 ^ w - v) 0 else .fin false v 0
  | .flt eb fb bias sp =>
    let fr := bits % 2 ^ fb
    let ex := (bits / 2 ^ fb) % 2 ^ eb
    let ng := bits.testBit (eb + fb)
    let num : Val :=
      if ex = 0 then (if fr = 0 then .fin ng 0 0 else .fin ng fr (1 - (bias : Int) - (fb : Int)))
      else .fin ng (2 ^ fb + fr) ((ex : Int) - (bias : Int) - (fb : Int))
    if ex = 2 ^ eb - 1 then
      match sp with
      | .infNan => if fr = 0 then .inf ng else .nan (! fr.testBit (fb - 1))
      | .nanTop => if fr = 2 ^ fb - 1 then .nan false else num
      | .none => num
    else num

/-- Rounding directions (Table 4.2). -/
inductive Rm where
  | rne | rtz | rdn | rup
  deriving DecidableEq, Repr

/-- The direction of a two-bit FRM field (Table 4.2). -/
def rmOfBits (n : Nat) : Rm :=
  match n % 4 with
  | 0 => .rne
  | 1 => .rtz
  | 2 => .rdn
  | _ => .rup

/-- Exception flags: [4] invalid, [3] divide by zero, [2] overflow, [1] underflow, [0] inexact (Table 7.4). -/
abbrev Flags := BitVec 5
def fNV : Flags := 16
def fDZ : Flags := 8
def fOF : Flags := 4
def fUF : Flags := 2
def fNX : Flags := 1

/-- The value with its sign turned. -/
def Val.neg : Val → Val
  | .nan s => .nan s
  | .inf n => .inf (! n)
  | .fin n m e => .fin (! n) m e

/-- The absolute value. -/
def Val.abs : Val → Val
  | .nan s => .nan s
  | .inf _ => .inf false
  | .fin _ m e => .fin false m e

def Val.isNan : Val → Bool
  | .nan _ => true
  | _ => false

def Val.isInf : Val → Bool
  | .inf _ => true
  | _ => false

def Val.isZero : Val → Bool
  | .fin _ 0 _ => true
  | _ => false

def Val.isNeg : Val → Bool
  | .nan _ => false
  | .inf n => n
  | .fin n _ _ => n

def Val.isFin : Val → Bool
  | .fin _ _ _ => true
  | _ => false

/-- A result and the flags that forming it raises. -/
structure VF where
  v : Val
  fl : Flags
  deriving DecidableEq, Repr

def sigFlag (x : Val) : Flags := match x with | .nan true => fNV | _ => 0

/-- `m * 2^e` at the exponent `e0`, for `e0` not above `e`. -/
def alignTo (e0 : Int) (m : Nat) (e : Int) : Nat := m * 2 ^ (e - e0).toNat

/-- The signed integer with a sign and a magnitude. -/
def signedOf (n : Bool) (m : Nat) : Int := if n then - (m : Int) else (m : Int)

/-- The exact sum (R148, R149): an exact zero sum of numbers of unlike sign is +0, and -0 toward minus infinity. -/
def Val.add (rm : Rm) (x y : Val) : VF :=
  match x, y with
  | .nan a, .nan b => ⟨.nan false, if a || b then fNV else 0⟩
  | .nan a, _ => ⟨.nan false, if a then fNV else 0⟩
  | _, .nan b => ⟨.nan false, if b then fNV else 0⟩
  | .inf a, .inf b => if a = b then ⟨.inf a, 0⟩ else ⟨.nan false, fNV⟩
  | .inf a, .fin _ _ _ => ⟨.inf a, 0⟩
  | .fin _ _ _, .inf b => ⟨.inf b, 0⟩
  | .fin n1 m1 e1, .fin n2 m2 e2 =>
    if m1 = 0 ∧ m2 = 0 then ⟨.fin (if n1 = n2 then n1 else decide (rm = Rm.rdn)) 0 0, 0⟩
    else if m1 = 0 then ⟨.fin n2 m2 e2, 0⟩
    else if m2 = 0 then ⟨.fin n1 m1 e1, 0⟩
    else
      let e0 := if e1 ≤ e2 then e1 else e2
      let s := signedOf n1 (alignTo e0 m1 e1) + signedOf n2 (alignTo e0 m2 e2)
      if s = 0 then ⟨.fin (decide (rm = Rm.rdn)) 0 0, 0⟩
      else ⟨.fin (decide (s < 0)) s.natAbs e0, 0⟩

/-- The exact difference. -/
def Val.sub (rm : Rm) (x y : Val) : VF := Val.add rm x y.neg

/-- The exact product (R149): infinity times zero is NaN and raises invalid. -/
def Val.mul (x y : Val) : VF :=
  match x, y with
  | .nan a, .nan b => ⟨.nan false, if a || b then fNV else 0⟩
  | .nan a, _ => ⟨.nan false, if a then fNV else 0⟩
  | _, .nan b => ⟨.nan false, if b then fNV else 0⟩
  | .inf a, .inf b => ⟨.inf (a != b), 0⟩
  | .inf a, .fin b m _ => if m = 0 then ⟨.nan false, fNV⟩ else ⟨.inf (a != b), 0⟩
  | .fin a m _, .inf b => if m = 0 then ⟨.nan false, fNV⟩ else ⟨.inf (a != b), 0⟩
  | .fin a m1 e1, .fin b m2 e2 => if m1 * m2 = 0 then ⟨.fin (a != b) 0 0, 0⟩ else ⟨.fin (a != b) (m1 * m2) (e1 + e2), 0⟩

/-- `x * y + z`, exact before the one rounding (R174). -/
def Val.fma (rm : Rm) (x y z : Val) : VF :=
  let p := Val.mul x y
  let s := Val.add rm p.v z
  ⟨s.v, p.fl ||| s.fl⟩

/-- A quotient to 140 bits and a sticky bit below them: rounding it to any format of Table 6.1 rounds the exact
quotient. -/
def quotVal (neg : Bool) (m1 : Nat) (e1 : Int) (m2 : Nat) (e2 : Int) : Val :=
  let k := 140 + Nat.log2 m2
  let q := (m1 * 2 ^ k) / m2
  let r := (m1 * 2 ^ k) % m2
  .fin neg (2 * q + (if r = 0 then 0 else 1)) (e1 - e2 - (k : Int) - 1)

/-- The quotient under IEEE 754-2019. -/
def Val.div (x y : Val) : VF :=
  match x, y with
  | .nan a, .nan b => ⟨.nan false, if a || b then fNV else 0⟩
  | .nan a, _ => ⟨.nan false, if a then fNV else 0⟩
  | _, .nan b => ⟨.nan false, if b then fNV else 0⟩
  | .inf _, .inf _ => ⟨.nan false, fNV⟩
  | .inf a, .fin b _ _ => ⟨.inf (a != b), 0⟩
  | .fin a _ _, .inf b => ⟨.fin (a != b) 0 0, 0⟩
  | .fin a m1 e1, .fin b m2 e2 =>
    if m2 = 0 then (if m1 = 0 then ⟨.nan false, fNV⟩ else ⟨.inf (a != b), fDZ⟩)
    else if m1 = 0 then ⟨.fin (a != b) 0 0, 0⟩
    else ⟨quotVal (a != b) m1 e1 m2 e2, 0⟩

/-- The integer square root, one result bit a round: `isqrtGo k r n` extends the root `r`. -/
def isqrtGo : Nat → Nat → Nat → Nat
  | 0, r, _ => r
  | k + 1, r, n =>
    let c := r + 2 ^ k
    isqrtGo k (if c * c ≤ n then c else r) n

def isqrt (n : Nat) : Nat := isqrtGo (Nat.log2 n / 2 + 1) 0 n

/-- The square root under IEEE 754-2019, with a sticky bit below 140 bits. -/
def Val.sqrt (x : Val) : VF :=
  match x with
  | .nan a => ⟨.nan false, if a then fNV else 0⟩
  | .inf false => ⟨.inf false, 0⟩
  | .inf true => ⟨.nan false, fNV⟩
  | .fin n m e =>
    if m = 0 then ⟨.fin n 0 0, 0⟩
    else if n then ⟨.nan false, fNV⟩
    else
      let odd := e % 2 ≠ 0
      let m1 := if odd then 2 * m else m
      let e1 := if odd then e - 1 else e
      let n4 := m1 * 2 ^ 280
      let r := isqrt n4
      ⟨.fin false (2 * r + (if r * r = n4 then 0 else 1)) (e1 / 2 - 140 - 1), 0⟩

/-- `x < y` of two values that are not NaN, with -0 below +0 where `zeros` says so (R174). -/
def Val.lt (zeros : Bool) (x y : Val) : Bool :=
  match x, y with
  | .nan _, _ => false
  | _, .nan _ => false
  | .inf a, .inf b => a && ! b
  | .inf a, .fin _ _ _ => a
  | .fin _ _ _, .inf b => ! b
  | .fin n1 m1 e1, .fin n2 m2 e2 =>
    if m1 = 0 ∧ m2 = 0 then zeros && n1 && ! n2
    else
      let e0 := if e1 ≤ e2 then e1 else e2
      decide (signedOf n1 (alignTo e0 m1 e1) < signedOf n2 (alignTo e0 m2 e2))

/-- Equal numbers (the zeros are equal). -/
def Val.eqv (x y : Val) : Bool :=
  match x, y with
  | .nan _, _ => false
  | _, .nan _ => false
  | _, _ => ! Val.lt false x y && ! Val.lt false y x

/-- The larger and the smaller of two values; NaN when either is NaN (R174). -/
def Val.max (x y : Val) : VF :=
  if x.isNan || y.isNan then ⟨.nan false, sigFlag x ||| sigFlag y⟩ else ⟨if Val.lt true x y then y else x, 0⟩

def Val.min (x y : Val) : VF :=
  if x.isNan || y.isNan then ⟨.nan false, sigFlag x ||| sigFlag y⟩ else ⟨if Val.lt true y x then y else x, 0⟩

/-- Whether a discarded remainder `r` of `2^s` moves the magnitude `q` up. -/
def roundsUp (rm : Rm) (neg : Bool) (q r s : Nat) : Bool :=
  match rm with
  | .rne => decide (2 ^ s < 2 * r) || (decide (2 * r = 2 ^ s) && decide (q % 2 = 1))
  | .rtz => false
  | .rdn => neg && decide (r ≠ 0)
  | .rup => ! neg && decide (r ≠ 0)

/-- `m * 2^e` rounded to a multiple of `2^q`: the multiple, and whether it is inexact. -/
def roundAt (rm : Rm) (neg : Bool) (m : Nat) (e q : Int) : Nat × Bool :=
  if q ≤ e then (m * 2 ^ (e - q).toNat, false)
  else
    let s := (q - e).toNat
    let d := m / 2 ^ s
    let r := m % 2 ^ s
    (if roundsUp rm neg d r s then d + 1 else d, decide (r ≠ 0))

/-- The exponent of the unit in the last place of a `p`-bit number near `m * 2^e`. -/
def ulpExp (m : Nat) (e : Int) (p : Nat) : Int := e + (Nat.log2 m : Int) + 1 - (p : Int)

/-- The canonical NaN of a format (R147); a format without NaN has none. -/
def canonNan : Fmt → Nat
  | .flt eb fb _ .infNan => (2 ^ eb - 1) * 2 ^ fb + 2 ^ (fb - 1)
  | .flt eb fb _ .nanTop => (2 ^ eb - 1) * 2 ^ fb + (2 ^ fb - 1)
  | .flt _ _ _ .none => 0
  | .int _ _ => 0

/-- The encoding of an infinity of a format that has one. -/
def infBits (f : Fmt) (neg : Bool) : Nat :=
  match f with
  | .flt eb fb _ _ => (flag neg) * 2 ^ (eb + fb) + (2 ^ eb - 1) * 2 ^ fb
  | .int _ _ => 0

/-- The encoding of the largest finite magnitude, or of the most positive or most negative integer (Table 6.1). -/
def maxBits (f : Fmt) (neg : Bool) : Nat :=
  match f with
  | .flt eb fb _ .infNan => (flag neg) * 2 ^ (eb + fb) + (2 ^ eb - 1) * 2 ^ fb - 1
  | .flt eb fb _ .nanTop => (flag neg) * 2 ^ (eb + fb) + 2 ^ (eb + fb) - 2
  | .flt eb fb _ .none => (flag neg) * 2 ^ (eb + fb) + 2 ^ (eb + fb) - 1
  | .int w true => if neg then 2 ^ (w - 1) else 2 ^ (w - 1) - 1
  | .int w false => if neg then 0 else 2 ^ w - 1

/-- The encoding of `m * 2^q`, a number that the format holds exactly. -/
def packFlt (eb fb bias : Nat) (neg : Bool) (m : Nat) (q : Int) : Nat :=
  let sgn := (flag neg) * 2 ^ (eb + fb)
  if m = 0 then sgn
  else
    let l := Nat.log2 m
    let ex := q + (l : Int)
    if ex < 1 - (bias : Int) then sgn + m * 2 ^ (q - (1 - (bias : Int) - (fb : Int))).toNat
    else
      let fr := if l ≤ fb then m * 2 ^ (fb - l) else m / 2 ^ (l - fb)
      sgn + ((ex + (bias : Int)).toNat) * 2 ^ fb + (fr - 2 ^ fb)

/-- What a rounding or a conversion gives: the bits, the flags of strict mode, whether the event is "counted" in the sense
of Table 6.9, and whether a nonzero number became zero (UNDERS, Table 7.4). -/
structure Conv where
  bits : Nat
  fl : Flags
  counted : Bool
  under : Bool
  deriving DecidableEq, Repr

/-- Whether the magnitude `m * 2^q` exceeds the largest finite number of a floating-point format. -/
def beyond (eb fb bias : Nat) (sp : Specials) (m : Nat) (q : Int) : Bool :=
  let top : Int := match sp with
    | .infNan => (2 ^ eb : Nat) - 2 - (bias : Int)
    | _ => (2 ^ eb : Nat) - 1 - (bias : Int)
  let mx : Nat := match sp with
    | .nanTop => 2 ^ (fb + 1) - 2
    | _ => 2 ^ (fb + 1) - 1
  Val.lt false (.fin false mx (top - (fb : Int))) (.fin false m q)

/-- Overflow of a format with infinities under IEEE 754-2019: infinity, or the largest finite number, by direction. -/
def ieeeOverflow (f : Fmt) (rm : Rm) (neg : Bool) : Nat :=
  match rm with
  | .rne => infBits f neg
  | .rtz => maxBits f neg
  | .rdn => if neg then infBits f neg else maxBits f neg
  | .rup => if neg then maxBits f neg else infBits f neg

/-- A value converted to a format (R151, R167, Table 6.9): `strict` chooses the column of strict mode. -/
def convert (strict : Bool) (f : Fmt) (rm : Rm) (v : Val) : Conv :=
  match f, v with
  | .flt _ _ _ .none, .nan _ => ⟨0, fNV, ! strict, false⟩
  | .flt eb fb b sp, .nan sg => ⟨canonNan (.flt eb fb b sp), if sg then fNV else 0, false, false⟩
  | .flt eb fb b .infNan, .inf n => ⟨infBits (.flt eb fb b .infNan) n, 0, false, false⟩
  | .flt eb fb b .nanTop, .inf n =>
    if strict then ⟨canonNan (.flt eb fb b .nanTop), fNV, false, false⟩ else ⟨maxBits (.flt eb fb b .nanTop) n, 0, true, false⟩
  | .flt eb fb b .none, .inf n => ⟨maxBits (.flt eb fb b .none) n, fNV, true, false⟩
  | .flt eb fb b sp, .fin n m e =>
    if m = 0 then ⟨packFlt eb fb b n 0 0, 0, false, false⟩
    else
      let un := ulpExp m e (fb + 1)
      let free := roundAt rm n m e un
      if beyond eb fb b sp free.1 un then
        match sp with
        | .infNan =>
          if strict then ⟨infBits (.flt eb fb b sp) n, fOF ||| fNX, false, false⟩
          else ⟨maxBits (.flt eb fb b sp) n, 0, true, false⟩
        | .nanTop =>
          if strict then ⟨canonNan (.flt eb fb b sp), fOF ||| fNX, false, false⟩
          else ⟨maxBits (.flt eb fb b sp) n, 0, true, false⟩
        | .none => ⟨maxBits (.flt eb fb b sp) n, fOF ||| fNX, true, false⟩
      else
        let emin : Int := 1 - (b : Int)
        let tiny := Val.lt false (.fin false free.1 un) (.fin false 1 emin)
        let sub : Int := emin - (fb : Int)
        let q := if un < sub then sub else un
        let r := roundAt rm n m e q
        ⟨packFlt eb fb b n r.1 q,
         (if r.2 then fNX else 0) ||| (if tiny && r.2 then fUF else 0), false, decide (r.1 = 0)⟩
  | .int _ _, .nan _ => ⟨0, fNV, ! strict, false⟩
  | .int w sg, .inf n => ⟨maxBits (.int w sg) n, fNV, true, false⟩
  | .int w sg, .fin n m e =>
    let r := roundAt rm n m e 0
    let i := signedOf n r.1
    let lo : Int := if sg then - ((2 ^ (w - 1) : Nat) : Int) else 0
    let hi : Int := if sg then ((2 ^ (w - 1) : Nat) : Int) - 1 else ((2 ^ w : Nat) : Int) - 1
    if i < lo then ⟨maxBits (.int w sg) true, fNV, true, false⟩
    else if hi < i then ⟨maxBits (.int w sg) false, fNV, true, false⟩
    else ⟨ofSigned w i, if r.2 then fNX else 0, false, decide (m ≠ 0 ∧ r.1 = 0)⟩

/-- The result of an arithmetic operation rounded under IEEE 754-2019: its overflow gives infinity or the largest finite number by
direction, where a conversion gives infinity (Table 6.9). -/
def ieeeRound (f : Fmt) (rm : Rm) (x : VF) : Nat × Flags :=
  let c := convert true f rm x.v
  (if c.fl.getLsbD 2 && x.v.isFin then ieeeOverflow f rm x.v.isNeg else c.bits, c.fl ||| x.fl)

/-- A W48 encoding read as its value. -/
def wVal (b : BitVec 48) : Val := decodeVal w48 b.toNat

/-- A value rounded to W48, to nearest even, with the flags that the arrays can raise. -/
def wRound (x : VF) : BitVec 48 × Flags :=
  let c := convert true w48 .rne x.v
  (BitVec.ofNat 48 c.bits, (c.fl ||| x.fl) &&& (fNV ||| fNX))

/-- A W48 adder that rounds to nearest even (R151, R153). -/
def wAdd (x y : BitVec 48) : BitVec 48 × Flags := wRound (Val.add .rne (wVal x) (wVal y))

/-- One level of a balanced tree: adjacent pairs added, in index order (R153). -/
def treeLevel : List (BitVec 48) → List (BitVec 48) × Flags
  | x :: y :: t =>
    let s := wAdd x y
    let r := treeLevel t
    (s.1 :: r.1, s.2 ||| r.2)
  | xs => (xs, 0)

/-- The balanced tree over a list, `k` levels (R153). -/
def treeSum : Nat → List (BitVec 48) → Flags → BitVec 48 × Flags
  | 0, xs, fl => (xs.headD 0, fl)
  | k + 1, xs, fl =>
    let r := treeLevel xs
    treeSum k r.1 (fl ||| r.2)

/-- The sum of 32 terms by the five-level tree. -/
def tree32 (xs : List (BitVec 48)) : BitVec 48 × Flags := treeSum 5 xs 0

/-- A magnitude in W48. One beyond its largest finite value, which only values that ACLD loads can give, has no result by R155, and is a
free value of the operands (DESIGN CHOICE, assumption 81). -/
def foldPack (s c : BitVec 48) (neg : Bool) (m : Nat) (q : Int) : BitVec 48 :=
  if m ≠ 0 ∧ 512 ≤ (Nat.log2 m : Int) + q then BitVec.ofNat 48 (freeValue (s.toNat * 2 ^ 48 + c.toNat) 48 m)
  else BitVec.ofNat 48 (packFlt 10 37 511 neg m q)

/-- The fold of a carry into S under stochastic rounding (R155): the draw `g` of 24 bits against the first 24 bits that
truncation discards. NaN and infinity are kept unchanged. -/
def stochasticFold (g : Nat) (s c : BitVec 48) : BitVec 48 × Flags :=
  match (Val.add .rne (wVal s) (wVal c)).v with
  | .fin n m e =>
    if m = 0 then (BitVec.ofNat 48 (packFlt 10 37 511 n 0 0), 0)
    else
      let un := ulpExp m e 38
      let q := if un < -547 then -547 else un
      if q ≤ e then (foldPack s c n (alignTo q m e) q, 0)
      else
        let sft := (q - e).toNat
        let a := m / 2 ^ sft
        let f := ((m % 2 ^ sft) * 2 ^ 24) / 2 ^ sft
        (foldPack s c n (if g % 2 ^ 24 < f then a + 1 else a) q, fNX)
  | x => wRound ⟨x, 0⟩

end Sys2Proof.Machine
end

