-- ==== Sys2Proof/Machine/Tab.lean ====
section
/-!
DEFINITION. Machine/Tab.lean: the two shapes in which the state holds many things of one kind, as plain data:
a table with an entry for every index (`tabGet`, `tabSet`) and a sparse map in canonical form (`kvGet`, `kvSet`).
-/
namespace Sys2Proof.Machine
open Sys2Proof

/-- Entry `i` of a table; an index beyond the list reads the entry that stands there at reset. -/
def tabGet {α : Type} (d : α) : List α → Nat → α
  | [], _ => d
  | x :: _, 0 => x
  | _ :: t, n + 1 => tabGet d t n

/-- Entry `i` replaced by `v`. -/
def tabSet {α : Type} (d : α) : List α → Nat → α → List α
  | [], 0, v => [v]
  | [], n + 1, v => d :: tabSet d [] n v
  | _ :: t, 0, v => v :: t
  | x :: t, n + 1, v => x :: tabSet d t n v

/-- A sparse map: pairs of key and value with keys strictly rising. -/
abbrev Kv (α : Type) := List (Nat × α)

/-- The value at a key; a key that is not listed reads `d`. -/
def kvGet {α : Type} (d : α) : Kv α → Nat → α
  | [], _ => d
  | (a, x) :: t, k => if a = k then x else kvGet d t k

/-- A key removed. -/
def kvDel {α : Type} : Kv α → Nat → Kv α
  | [], _ => []
  | (a, x) :: t, k => if a = k then kvDel t k else (a, x) :: kvDel t k

/-- A pair put in its place. -/
def kvIns {α : Type} : Kv α → Nat → α → Kv α
  | [], k, v => [(k, v)]
  | (a, x) :: t, k, v =>
    if k < a then (k, v) :: (a, x) :: t
    else if a = k then (k, v) :: t
    else (a, x) :: kvIns t k v

/-- The value at a key replaced; writing what an unlisted key reads as removes the entry, so equal maps are equal data. -/
def kvSet {α : Type} [DecidableEq α] (d : α) (m : Kv α) (k : Nat) (v : α) : Kv α :=
  if v = d then kvDel m k else kvIns m k v

/-- Every entry with a key from `lo` up to, but not including, `hi` removed. -/
def kvClear {α : Type} (m : Kv α) (lo hi : Nat) : Kv α := m.filter (fun p => decide (p.1 < lo ∨ hi ≤ p.1))

/-- The canonical form: keys strictly rising above `lo`, no entry equal to what an unlisted key reads as. -/
def kvWfAbove {α : Type} [DecidableEq α] (d : α) : Nat → Kv α → Bool
  | _, [] => true
  | lo, (a, x) :: t => decide (lo ≤ a) && decide (x ≠ d) && kvWfAbove d (a + 1) t

def kvWf {α : Type} [DecidableEq α] (d : α) (m : Kv α) : Bool := kvWfAbove d 0 m

/-- Memory as (address, byte) pairs; an unlisted byte reads zero (10 R238, 20 R438). -/
abbrev Mem := Kv Byte

def memGet (m : Mem) (a : Nat) : Byte := kvGet 0 m a
def memSet (m : Mem) (a : Nat) (b : Byte) : Mem := kvSet 0 m a b

/-- The canonical form of a memory. -/
def Memory.wf (m : Mem) : Bool := kvWf (0 : Byte) m

/-- `n` bytes from address `a` on. -/
def memRead (m : Mem) (a : Nat) : Nat → Bytes
  | 0 => []
  | n + 1 => memGet m a :: memRead m (a + 1) n

/-- A byte string written from address `a` on. -/
def memWrite (m : Mem) (a : Nat) : Bytes → Mem
  | [] => m
  | b :: bs => memWrite (memSet m a b) (a + 1) bs

/-- A byte string written under a mask: a byte whose mask bit is clear stays. -/
def memWriteMask (m : Mem) (a : Nat) : List Bool → Bytes → Mem
  | e :: es, b :: bs => memWriteMask (if e then memSet m a b else m) (a + 1) es bs
  | _, _ => m

/-- Bytes of a memory whose addresses wrap modulo `w` (the Pocket, 03 R78). -/
def ringRead (w : Nat) (m : Mem) (a : Nat) : Nat → Bytes
  | 0 => []
  | n + 1 => memGet m (a % w) :: ringRead w m (a + 1) n

def ringWrite (w : Nat) (m : Mem) (a : Nat) : Bytes → Mem
  | [] => m
  | b :: bs => ringWrite w (memSet m (a % w) b) (a + 1) bs

/-- The list with entry `i` (where it has one) replaced. -/
def listSet {α : Type} : List α → Nat → α → List α
  | [], _, _ => []
  | _ :: t, 0, v => v :: t
  | x :: t, n + 1, v => x :: listSet t n v

/-- The number of entries that satisfy `p`. -/
def countIf {α : Type} (p : α → Bool) : List α → Nat
  | [] => 0
  | x :: t => (if p x then 1 else 0) + countIf p t

/-- The sum of a list. -/
def sumNat : List Nat → Nat
  | [] => 0
  | x :: t => x + sumNat t

/-- The numbers from `a` on, `n` of them. -/
def rangeFrom (a : Nat) : Nat → List Nat
  | 0 => []
  | n + 1 => a :: rangeFrom (a + 1) n

end Sys2Proof.Machine
end

