-- ==== Sys2Proof/Machine/StEngine.lean ====
section
/-!
DEFINITION. Machine/StEngine.lean: the state of a tile's array island: accumulators, Tailor, sequencer
(03_control_core_and_bundles R73 to R92; 05_matrix_arrays R132, R133; 07_tailor_engine R169).
-/
namespace Sys2Proof.Machine
open Sys2Proof

abbrev W48 := BitVec 48

/-- One accumulator tile (R132, Table 5.8): the planes hold 1,024 cells in row-major order, an unlisted cell reads +0. -/
structure Acc where
  s : List W48 := []
  l0 : List W48 := []
  l1 : List W48 := []
  l2 : List W48 := []
  l3 : List W48 := []
  nprod : U64 := 0
  casc : BitVec 4 := 0
  longsum : Bool := false
  aflags : BitVec 2 := 0       -- [1] inexact, [0] invalid
  parityFailed : Bool := false -- R137: a plane whose parity has failed
  deriving DecidableEq, Repr

/-- A Tailor buffer (R169, Table 7.1): element (i, c) stands at 32 i + c, an unlisted element reads as zero bits. -/
structure TBuf where
  els : List W48 := []
  tag : Nat := 8
  longsum : Bool := false
  aflags : BitVec 2 := 0
  allmask : U32 := 0
  deriving DecidableEq, Repr

/-- A statistics set (R182, Table 7.4). -/
structure StatSet where
  count : U64 := 0
  nans : U32 := 0
  infs : U32 := 0
  sats : U32 := 0
  unders : U32 := 0
  longsums : U32 := 0
  allmasks : U32 := 0
  amax : W48 := 0
  sumsq : W48 := 0
  ops : U32 := 0
  firstnf : U32 := 0xFFFFFFFF
  flags : Flags := 0
  deriving DecidableEq, Repr

/-- An optimizer context (R185, Table 7.5): its 64 bytes as fields. `rest` is byte 52 [7:3] and bytes 53 to 63, which OPTCFG loads as
given and OPTSV stores. -/
structure OptCtx where
  eta : U32 := 0
  beta1 : U32 := 0
  beta2 : U32 := 0
  eps : U32 := 0
  lambda : U32 := 0
  sigma : U32 := 0
  clip : U32 := 0
  gs : U32 := 0
  b1t : U32 := 0
  b2t : U32 := 0
  step : U32 := 0
  block : U32 := 0
  failblk : U32 := 0
  failed : Bool := false
  cause : BitVec 2 := 0
  rest : BitVec 93 := 0
  deriving DecidableEq, Repr

/-- The Flurry context (R189, Table 7.7). -/
structure Flurry where
  seed : U64 := 0
  layer : U32 := 0
  step : U32 := 0
  ibase : U64 := 0
  deriving DecidableEq, Repr

/-- The Tailor's state (Table 7.1). -/
structure Tailor where
  bufs : List TBuf := []
  stats : List StatSet := []
  ctxs : List OptCtx := []
  flurry : Flurry := {}
  deriving DecidableEq, Repr

/-- A Seam staging buffer of an array pair (R79, R115): 8,192 bits and FULL. -/
structure Staging where
  data : Bytes := []
  full : Bool := false
  deriving DecidableEq, Repr

/-- The unit an operation of a bundle runs in: an array, or the Tailor. -/
inductive EngUnit where
  | array (j : Nat)
  | tailor
  deriving DecidableEq, Repr

/-- What an issued operation still has to deliver (R87). `word` is its slot. The sources are those it read at issue; a
write that lands on them inside their window, or that was due to land before they were read, is merged in element by
element (R89 parts 3 and 4). -/
structure InFlight where
  unit : EngUnit
  slot : Nat                   -- 0 M0, 1 M1, 2 T: the order within a bundle (R89 part 6)
  word : Nat
  issue : Nat
  occ : Nat
  land : Nat
  strict : Bool
  bundle : U16 := 0
  q : Nat := 0                 -- q[PREG] as it was before the bundle
  srcA : Bytes := []           -- Pocket operand A, or a Tailor operand
  addrA : Nat := 0             -- where it starts; the Pocket's size or more where it is no Pocket operand
  srcB : Bytes := []
  addrB : Nat := 0
  accs : List Acc := []        -- the accumulator that ACRD or ACSV reads: the values each cell can have
  bufs : List TBuf := []       -- the Tailor's buffers
  ctx : OptCtx := {}           -- the optimizer context that a Tailor operation names
  flurry : Flurry := {}        -- the Flurry context
  fullDone : Bool := true      -- an MMAV has cleared its FULL bits (R115)
  early : Bool := false        -- an accumulator operation that one against part 5 of R89 has met (R136)
  fold : Nat := 0              -- the number of the fold that a matrix operation may make (R156)
  deriving DecidableEq, Repr

/-- A statistics update that is not readable before `land` (R183): what the set was before it. -/
structure StatLand where
  set : Nat
  land : Nat
  issue : Nat
  ev : StatSet
  deriving DecidableEq, Repr

/-- How a stream ended (Table 3.6), with the cause of Table 3.7. -/
structure StreamRec where
  ticket : U16
  faulted : Bool
  cause : Nat
  bundle : U16
  deriving DecidableEq, Repr

/-- A queued or running stream (R73, R74); its context is the one ELAUNCH captured (R263). -/
structure Stream where
  ticket : U16 := 0
  first : Nat := 0             -- byte offset of the first bundle
  args : Nat := 0              -- byte offset of the argument block
  tctx : U64 := 0
  kernel : Bool := false
  started : Bool := false
  strict : Bool := false
  event : Bool := false
  doneGate : Nat := 255
  waitLim : Nat := 0
  bundle : U16 := 0            -- the last bundle issued, or the faulting one
  ended : Bool := false        -- an END has issued
  stopping : Bool := false     -- ESTOP has been accepted
  uncorr : Option U16 := none  -- the bundle whose operation has met an uncorrectable error (R77)
  deriving DecidableEq, Repr

/-- A bundle at the head that has begun to issue: the q registers as they were before it, as QADD reads them (without the additions
that land in its own cycle, R177), and the slots that have taken effect (bits 0 to 4: M0, M1, T, G, C). -/
structure Issuing where
  q : List U32
  qOwn : List U32
  done : BitVec 5
  cycle : Nat
  deriving DecidableEq, Repr

/-- The engine sequencer (R73 to R92). Cycles are those of the tile's array island. -/
structure Seq where
  now : Nat := 0
  q : List U32 := []
  run : Option Stream := none
  queue : List Stream := []
  records : List StreamRec := []       -- the newest first, at most eight
  nextTicket : U16 := 1
  prefetch : List (Nat × BitVec 256) := []
  fetchAt : Nat := 0                   -- the bundle index that the next fetch reads
  issueAt : Nat := 0                   -- the earliest cycle of the next bundle
  issuing : Option Issuing := none
  arrayBusy : List Nat := []           -- the cycle at which each array accepts its next operation
  acrdBusy : Nat := 0
  saveBusy : Nat := 0
  tailorBusy : Nat := 0
  glideBusy : List Nat := []
  rowEnd : List Nat := []              -- e + 1 of R124, 0 where no row has been used
  flight : List InFlight := []         -- in issue order
  statFlight : List StatLand := []
  gates : List U32 := []               -- the sequencer's view of the 64 Gates (R85)
  waitFrom : Option Nat := none        -- the cycle at which the Gate wait of the head began
  bflush : Bool := false               -- a C-core BFLUSH that acts at the next bundle boundary (R91)
  deriving DecidableEq, Repr

/-- The array island of a tile. No command reads or writes `keys` and `folds` (R156). -/
structure Engine where
  accs : List Acc := []                -- a0 to a15
  staging : List Staging := []         -- SB0 and SB1 of the pairs 0 to 3: buffer 2 p + sb
  tailor : Tailor := {}
  seq : Seq := {}
  keys : List (BitVec 128) := []       -- of the arrays' rounding generators (R156)
  folds : List Nat := []               -- and their counters: folds numbered under the key
  cnt : List Nat := []                 -- objects 0x1310 to 0x1313, 0x1510 to 0x1512, 0x1610 to 0x1612 of this tile
  deriving DecidableEq, Repr

end Sys2Proof.Machine
end

