-- ==== Sys2Proof/Syntax.lean ====
section
/-!
DEFINITION. Syntax.lean: the commands of the block, one constructor for each row of spec/opcode_table.json, and the types
of their operands. A tile is a `Fin 192` (01 R18); a field that an instruction format carries has the width it has there.
-/
namespace Sys2Proof

/-- A device tile, 0 to 191 (R18). -/
abbrev TileNo := Fin 192

/-- The principals of Table 0.4; C is the owner of the Cloak named (R34). -/
inductive Principal where
  | h
  | m
  | c (id : Nat)
  | s
  | f
  deriving DecidableEq, Repr

/-- The operations of vector group 0x2D that the spec names by kind (R99, R101, Table 4.7); `other` is any further function
code of the group, whose function stands in the separate reference. -/
inductive VIntOp where
  | add | sub | mul | and | or | xor | shl | shr | sra
  | min | minu | max | maxu
  | cmpEq | cmpNe | cmpLt | cmpLtu | cmpLe | cmpLeu
  | move | splat | toScalar
  | slideUp | slideDown | gather
  | other (fn : Fin 64)
  deriving DecidableEq, Repr

/-- The formats that vector and scalar conversions name (R103, R152). -/
inductive VFmt where
  | f64 | f32 | f16 | bf16 | e4m3 | e5m2
  | sint (w : Fin 65) | uint (w : Fin 65)
  deriving DecidableEq, Repr

/-- The operations of vector group 0x2F and of scalar floating point that the spec names by kind (R103, R152). -/
inductive FpOp where
  | add | sub | mul | div | sqrt | fma | fms | min | max
  | cmpEq | cmpLt | cmpLe
  | cvt (src dst : VFmt)
  | other (fn : Fin 64)
  deriving DecidableEq, Repr

/-- The predicate operations of R100; `other` is any further function code of group 0x31. -/
inductive PredOp where
  | and | or | xor | andn | not
  | count | first | below
  | other (fn : Fin 64)
  deriving DecidableEq, Repr

/-- The reductions of R105. -/
inductive RedOp where
  | sum | max | min | osum
  deriving DecidableEq, Repr

/-- The addressing modes of R110. -/
inductive VMode where
  | unit | strided | indexed | faultFirst
  deriving DecidableEq, Repr

/-- What a vector instruction does (groups 0x2C to 0x33, Table 4.3). `bf` says that 16-bit floating-point elements are
BF16. -/
inductive VKind where
  | setvl (sew : Fin 4)
  | vrelease
  | vcsrr
  | vcsrw
  | vsend (sb : Fin 2) (pair : Fin 4) (gate : Fin 64)
  | int (op : VIntOp)
  | fx (fn : Fin 64)
  | fp (bf : Bool) (op : FpOp)
  | red (bf : Bool) (op : RedOp)
  | vfop (zacc neg : Bool) (k : Fin 32)
  | pred (op : PredOp)
  | load (mode : VMode)
  | store (mode : VMode)
  deriving DecidableEq, Repr

/-- A vector instruction (R101, R110). `scalar` says that VSB names a scalar register. -/
structure VInstr where
  kind : VKind
  vd : Fin 32
  vsa : Fin 32
  vsb : Fin 32
  pg : Fin 16
  z : Bool
  scalar : Bool
  deriving DecidableEq, Repr

/-- A group register name, g0 to g255 (R202). -/
abbrev GReg := Fin 256

/-- The operation of an atomic (Tables 12.7 and 12.8). -/
inductive AtomOp where
  | swap | add | and | or | xor | smax | smin | umax | umin
  | cas
  | fadd | fmax | fmin
  deriving DecidableEq, Repr

/-- The arithmetic of group class 0x35: the operations of vector groups 0x2D to 0x2F per thread, at a SEW of 8, 16 or 32
bits (code 0 to 2), and FP64 on register pairs (R202). -/
inductive GArith where
  | int (op : VIntOp) (sew : Fin 3)
  | fx (fn : Fin 16) (sew : Fin 3)
  | fp (fmt : VFmt) (op : FpOp)
  | reserved (op : Fin 64) (fn : Fin 1024)
  deriving DecidableEq, Repr

/-- What a memory instruction of class 0x36 does: a load or store of 2^size bytes, or an atomic of 2^size bytes, whose compare
value stands in a register or in the instruction. -/
inductive GMemKind where
  | load (size : Fin 4) (signed : Bool) (rd : GReg)
  | store (size : Fin 4) (rs : GReg)
  | atomic (op : AtomOp) (size : Fin 5) (rd rs : GReg) (rc : Option GReg) (imm : BitVec 16)
  deriving DecidableEq, Repr

/-- A memory instruction with its address: a register, or a pair of registers, and a signed byte offset. -/
structure GMemOp where
  kind : GMemKind
  base : GReg
  pair : Bool
  off : BitVec 16
  deriving DecidableEq, Repr

/-- Where a Glide stream command comes from: the Glide slot of the head bundle, or a GCMD write by a principal (R221). -/
inductive GSrc where
  | bundle
  | window (p : Principal) (stream : Fin 16) (arg : BitVec 64)
  deriving DecidableEq, Repr

/-- A link of the package: a fabric port, or the Hedom link. -/
inductive Link where
  | port (n : Fin 32)
  | hedom
  deriving DecidableEq, Repr

/-- The three Cuffs of a tile (R271). -/
inductive CuffId where
  | core | lvu | glide
  deriving DecidableEq, Repr

/-- The rows of Table 11.6 with their own walkers: the C-core, the LVU with the groups, a Glide stream, its prefetches, the group
copies (R274). -/
inductive WalkRow where
  | core
  | lvu
  | stream (i : Fin 16)
  | prefetch (i : Fin 16)
  | copies
  deriving DecidableEq, Repr

/-- The tile whose sequencer takes a stream, and whether its read of the argument block meets an uncorrectable error (R74, R77). -/
structure ArgRead where
  tile : TileNo
  bad : Bool := false
  deriving DecidableEq, Repr

/-- The misses of a row of a tile (R274). -/
structure RowAt where
  t : TileNo
  row : WalkRow
  deriving DecidableEq, Repr

/-- The `n`-th walk under way of a row of a tile. -/
structure WalkAt where
  t : TileNo
  row : WalkRow
  n : Fin 4
  deriving DecidableEq, Repr

/-- What an access does to memory (R270). -/
inductive XKind where
  | read | write | fetch | atomic
  deriving DecidableEq, Repr

/-- What is wrong with a line (R247 to R251). -/
inductive LineErr where
  | correctable | uncorrectable | mac
  deriving DecidableEq, Repr

/-- What goes wrong with a line when it is read: wrong bits confined to some bytes of its codeword, a transfer on the vertical
channel whose parity fails a number of times in succession (R247), command or address parity errors on one command to a stack
(R258), or data that does not match its MAC (R249). -/
inductive LineFault where
  | bytes (n : Fin 4)
  | transfer (fails : Fin 5)
  | command (errors : Fin 3)
  | mac
  deriving DecidableEq, Repr

/-- The line of a request at its home, with an error that the read of it meets there (R251). -/
structure LineRead where
  line : BitVec 38
  found : Option LineFault := none
  deriving DecidableEq, Repr

/-- The islands that keep a timestamp (R414, R415). -/
inductive MarkIsland where
  | core (t : TileNo)
  | vector (t : TileNo)
  | array (t : TileNo)
  | rink (die : Fin 2)
  | router
  | security
  | alwaysOn
  deriving DecidableEq, Repr

/-- The three references (R462). -/
inductive RefClock where
  | ref100 | ref156 | ref25
  deriving DecidableEq, Repr

/-- What self-test finds (20 R437, R440; 05 R138, R139): failure records of steps 7 to 14, the arrays (tile × 8 + array) with a new
fault that lies in one row, and in one column, the lanes that the Hedom link locked (code of object 0x1E00.01), and the time to
READY in milliseconds. -/
structure SelfTest where
  fails : List (BitVec 32)
  rows : List (BitVec 16)
  cols : List (BitVec 16)
  hedom : Fin 4
  ms : BitVec 32
  deriving DecidableEq, Repr

/-- A flit as it arrives (Tables 14.3 and 15.2): header fields, body, tag or CRC, the symbols that forward error correction
corrected in it, the uncorrectable codewords that it is the first flit of, and whether one touches it (R310). -/
structure Flit where
  seq : BitVec 16
  ack : BitVec 16
  vc : Fin 8
  cls : Bool
  fpo : Fin 64
  kph : BitVec 2
  rtry : Bool
  cvc : Fin 8
  ccls : Bool
  ccnt : BitVec 11
  scnt : BitVec 11
  body : List (BitVec 8)
  tag : BitVec 64
  syms : Fin 65536
  words : Fin 4
  bad : Bool
  deriving DecidableEq, Repr

/-- The counts that the two ends of a link exchange (R320), by channel and class (2 vc + class) and, at index 14, of the shared pool: credits
held, flits sent and not received, flits in the input buffer, credits going back; and the last sequence number received. -/
structure LinkCounts where
  credits : List Nat
  flying : List Nat
  buffered : List Nat
  back : List Nat
  ack : BitVec 16
  deriving DecidableEq, Repr

/-- A peer's side of a rekey (R337): its step 1 with its port number, and its ephemeral key. -/
structure RekeyMsg where
  chain : List (BitVec 8)
  report : List (BitVec 8)
  random : BitVec 256
  port : Fin 32
  pub : List (BitVec 8)
  deriving DecidableEq, Repr

/-- A message of link attestation on MGT (R336): step 1, with the sender's port number (assumption 93), or step 3. -/
inductive AttMsg where
  | hello (chain report : List (BitVec 8)) (random : BitVec 256) (port : Fin 32)
  | key (pub sig : List (BitVec 8))
  deriving DecidableEq, Repr

/-- A source of dictionary operations (R391): S, a side-band session slot (1 to 5, from 0 here), or a mailbox slot. -/
inductive Source where
  | s
  | session (i : Fin 5)
  | slot (n : Fin 66)
  deriving DecidableEq, Repr

/-- The headers of an unprotected side-band frame as it arrives (Table 18.1; R399, R400): the sender's and the destination MAC address,
the EtherType, VER, LEN, and how many bytes follow the headers; and the level of SB_ENROL at that time (R464). -/
structure SbHead where
  mac : BitVec 48
  dst : BitVec 48
  etype : BitVec 16 := 0x88B5
  ver : BitVec 8 := 1
  len : BitVec 16
  room : BitVec 16
  enrol : Bool := false
  deriving DecidableEq, Repr

/-- A protected side-band frame as it arrives (Table 18.1; R401): the sender's MAC address, the session, the counter, the bytes
between the header and the tag, the tag, what the header's VER and LEN say, the destination and the EtherType. -/
structure SbIn where
  mac : BitVec 48
  sid : BitVec 16
  cnt : BitVec 32
  body : List (BitVec 8)
  tag : BitVec 128
  ver : BitVec 8 := 1
  len : BitVec 16 := BitVec.ofNat 16 body.length
  dst : BitVec 48 := 0
  etype : BitVec 16 := 0x88B5
  deriving DecidableEq, Repr

/-- The commands, in the order of spec/opcode_table.json. -/
inductive Instr where
  /-- CREATE (R43): H creates a Cloak in FREE: generates the root key, derives the keys and starts coarsening. -/
  | create (p : Principal) (id : BitVec 8) (share : BitVec 16) (hybrid : Bool)
  /-- ADD_TILES (R44): H asks for tiles to be assigned to a BUILDING Cloak; the whole map is checked first, then tiles are assigned one at a time. -/
  | addTiles (p : Principal) (id : BitVec 8) (map : BitVec 192)
  /-- TILE_ASSIGNMENT_COMPLETE (R44): One tile's assignment, with its Lining granules, completes; the tile belongs to the Cloak and the next tile starts. -/
  | tileAssignmentComplete (t : TileNo)
  /-- ADD_GRANULES (R43): H asks for a list of OPEN HBM granules, or Lining granules of fenced tiles, to be assigned to a Cloak; the list is checked first. -/
  | addGranules (p : Principal) (id : BitVec 8) (list : List Nat)
  /-- OWNER_CHANGE_COMPLETE (R41): Earlier requests to a SCRUBBING granule have drained and the zero fill is done; S writes the new STATE and OWNER. -/
  | ownerChangeComplete (g : Nat)
  /-- LOAD (R43): H starts copying an image from open memory into Cloak memory after checking source and destination. -/
  | load (p : Principal) (id : BitVec 8) (src len dst : BitVec 44)
  /-- LOAD_COPY_COMPLETE (R44): The copy of a LOAD ends; the measurement is extended on success, or the Cloak is marked for destruction on UNCORR. -/
  | loadCopyComplete (id : BitVec 8) (data : List (BitVec 8)) (blocks : BitVec 32)
  /-- FINALISE (R43): H fixes the measurement, the request key pairs are generated and the attestation report is built; the Cloak goes to READY. -/
  | finalise (p : Principal) (id : BitVec 8)
  /-- START (R43): H releases the C-core of the Cloak's lowest-numbered tile at the image entry point; the Cloak goes to RUNNING. -/
  | start (p : Principal) (id : BitVec 8)
  /-- STOP (R45): H or M halts every unit of a RUNNING Cloak and records which principal stopped it. -/
  | stop (p : Principal) (id : BitVec 8)
  /-- CLOAK_HALTED (R45): All units of a stopping Cloak have reached their halt boundaries within 40 µs; the Cloak is STOPPED. -/
  | cloakHalted (id : BitVec 8)
  /-- RESUME (R43): H or M restarts a STOPPED Cloak where it halted, with DENIED for H on a Cloak stopped by M. -/
  | resume (p : Principal) (id : BitVec 8)
  /-- DESTROY (R46): H or M starts the destroy sequence of a Cloak, aborting any running ADD or LOAD at its next boundary. -/
  | destroy (p : Principal) (id : BitVec 8)
  /-- DESTROY_SEQUENCE_COMPLETE (R46): The last destroy step ends: tiles return to the open domain, the C log is emptied, the state becomes FREE and the completion record is written. -/
  | destroySequenceComplete (id : BitVec 8)
  /-- RECLAIM_GRANULES (R43): H returns listed granules that a Cloak holds to OPEN, one at a time after checking the list. -/
  | reclaimGranules (p : Principal) (id : BitVec 8) (list : List Nat)
  /-- EXIT (R43): C ends its own RUNNING Cloak by the destroy sequence; DENIED for any other issuer. -/
  | exit (p : Principal) (id : BitVec 8)
  /-- RELEASE_GRANULES (R43): C returns listed granules of its own Cloak to OPEN. -/
  | releaseGranules (p : Principal) (id : BitVec 8) (list : List Nat)
  /-- ROTATE_KEY (R43): C replaces its request key pairs and the attestation report is rebuilt with RSEQ raised. -/
  | rotateKey (p : Principal) (id : BitVec 8)
  /-- DECAPSULATE (R54): A Cloak asks S to decapsulate a request, naming the encapsulated key, optional ML-KEM ciphertext and a destination. -/
  | decapsulate (id : BitVec 8) (enc kem : List (BitVec 8)) (dst : BitVec 44)
  /-- DECAPSULATION_COMPLETE (R54): The decapsulation engine finishes one request and writes the session record, or a failed record with first byte 0xFF. -/
  | decapsulationComplete
  /-- REPORT (R369): C asks for a KIND 2 attestation report with its report data, written to its destination. -/
  | report (p : Principal) (id : BitVec 8) (rdata : List (BitVec 8)) (dst : BitVec 44)
  /-- GETSEAL (R369): C asks for its sealing key, written to its destination. -/
  | getseal (p : Principal) (id : BitVec 8) (dst : BitVec 44)
  /-- LALLOC (R356): C allocates a contiguous run of FREE ledger entries within its quota. -/
  | lalloc (p : Principal) (id : BitVec 8) (count : BitVec 32)
  /-- LFREE (R356): C frees its own ledger entries. -/
  | lfree (p : Principal) (id : BitVec 8) (first count : BitVec 32)
  /-- LREAD (R356): C reads one of its ledger entries into its memory. -/
  | lread (p : Principal) (id : BitVec 8) (index : BitVec 32) (dst : BitVec 44)
  /-- INTERVAL_1S_END (R56): A 1 s coarsening interval ends: power figures, error counts and delayed Cloak records and events are updated or delivered. -/
  | interval1sEnd
  /-- INTERVAL_100MS_END (R56): A 100 ms coarsening interval ends: temperatures and throttle and junction levels are updated and delayed threshold events are delivered. -/
  | interval100msEnd
  /-- C_CORE_LOAD (R69): A C-core load is performed under the ordering rules, with store forwarding or waiting, and may go to L2, a home agent or a remote package. -/
  | cCoreLoad (t : TileNo) (user : Bool) (size : Fin 17) (signed fp : Bool) (rd base : Fin 32) (off : BitVec 16)
  /-- C_CORE_STORE (R69): A C-core store is performed under the ordering rules. -/
  | cCoreStore (t : TileNo) (user : Bool) (size : Fin 17) (fp : Bool) (rs base : Fin 32) (off : BitVec 16)
  /-- SCALAR_FP_OP (R152): A scalar floating-point instruction computes under IEEE 754 with fcsr rounding and flags. -/
  | scalarFpOp (t : TileNo) (f : VFmt) (op : FpOp) (rd ra rb rc : Fin 32)
  /-- AMO_RMW (R294): An integer atomic read-modify-write (SWAP, ADD, AND, OR, XOR, SMAX, SMIN, UMAX, UMIN) is issued. -/
  | amoRmw (t : TileNo) (user : Bool) (func : BitVec 11) (rd ra rb : Fin 32)
  /-- CAS (R294): A compare-and-swap of 32 or 64 bits is issued. -/
  | cas (t : TileNo) (user : Bool) (func : BitVec 11) (rd ra rb : Fin 32)
  /-- CAS128 (R294): A 128-bit compare-and-swap on register pairs is issued. -/
  | cas128 (t : TileNo) (user : Bool) (func : BitVec 11) (rd ra rb : Fin 32)
  /-- AMO_FP (R296): A floating-point atomic FADD, FMAX or FMIN is issued. -/
  | amoFp (t : TileNo) (user : Bool) (func : BitVec 11) (rd ra rb : Fin 32)
  /-- FENCE (R70): Orders accesses of the predecessor set before those of the successor set. -/
  | fence (t : TileNo) (pred succ : BitVec 4)
  /-- ELAUNCH (R73): Launches an engine stream on the own tile or queues it, writing the status word with its ticket or QFULL. -/
  | elaunch (t : TileNo) (user : Bool) (rd ra rb : Fin 32)
  /-- ESTAT (R75): Reads a stream's status word without waiting. -/
  | estat (t : TileNo) (rd ra : Fin 32)
  /-- EWAIT (R75): Waits until a stream is DONE or FAULTED, then reads its status word. -/
  | ewait (t : TileNo) (rd ra : Fin 32)
  /-- ESTOP (R76): Stops a queued stream at once, or the running stream after its issued operations reach their latency. -/
  | estop (t : TileNo) (ra : Fin 32)
  /-- IFLUSH (R90): Discards younger fetched instructions and fetches again. -/
  | iflush (t : TileNo)
  /-- BFLUSH (R91): C-core instruction that empties the sequencer's prefetch queue at the next bundle boundary. -/
  | bflush (t : TileNo)
  /-- STREAM_START (R73): The sequencer takes the next stream, reads its argument block and issues its first bundle. -/
  | streamStart (t : ArgRead)
  /-- BUNDLE_FETCH (R84): The sequencer fetches one 32-byte bundle into its prefetch queue. -/
  | bundleFetch (t : TileNo) (bad : Bool)
  /-- STREAM_DONE (R83): After END, every issued operation has reached its latency; the stream ends DONE with DONEGATE, EVENT and FULL bits cleared. -/
  | streamDone (t : TileNo)
  /-- STREAM_STOP_COMPLETE (R76): A running stream stopped by ESTOP ends FAULTED with STOPPED once its issued operations complete. -/
  | streamStopComplete (t : TileNo)
  /-- WAITLIMIT_EXPIRY (R74): A Gate wait exceeds 2^WAITLIM array cycles and the stream faults with WAITLIMIT. -/
  | waitlimitExpiry (t : TileNo)
  /-- MMA (R118): Matrix slot: acc += A × B on the addressed arrays. -/
  | mma (t : TileNo) (slot : Fin 2)
  /-- MMZ (R134): Matrix slot: acc = A × B, starting a new sum. -/
  | mmz (t : TileNo) (slot : Fin 2)
  /-- MMAV (R121): Matrix slot: as MMA with A from a Seam staging buffer, clearing its FULL bit. -/
  | mmav (t : TileNo) (slot : Fin 2)
  /-- ACRD (R157): Folds the cascade and copies the accumulator into a Tailor buffer. -/
  | acrd (t : TileNo) (slot : Fin 2)
  /-- ACZ (R134): Zeroes the accumulator and its control block. -/
  | acz (t : TileNo) (slot : Fin 2)
  /-- ACSV (R133): Saves the accumulator at full width to the Pocket save area. -/
  | acsv (t : TileNo) (slot : Fin 2)
  /-- ACLD (R133): Restores an accumulator from a save area. -/
  | acld (t : TileNo) (slot : Fin 2)
  /-- MATRIX_RESULT (R124): A matrix operation's result is whole in its accumulator, Tailor buffer or Pocket at its latency. -/
  | matrixResult (t : TileNo) (parity plane : Bool)
  /-- TLD (R173): Tailor: loads a Pocket tile into a buffer. -/
  | tld (t : TileNo)
  /-- TST (R173): Tailor: stores a buffer to the Pocket in its TAG format. -/
  | tst (t : TileNo)
  /-- TSTS (R183): Tailor: stores a buffer and observes the values into a statistics set. -/
  | tsts (t : TileNo)
  /-- TSTAT (R173): Tailor: writes a statistics set to the Pocket, optionally clearing it. -/
  | tstat (t : TileNo)
  /-- TZERO (R173): Tailor: writes +0 into a buffer. -/
  | tzero (t : TileNo)
  /-- TFKEY (R189): Tailor: loads the Flurry context from the Pocket. -/
  | tfkey (t : TileNo)
  /-- ADD (R174): Tailor: element-wise sum. -/
  | add (t : TileNo)
  /-- SUB (R174): Tailor: element-wise difference. -/
  | sub (t : TileNo)
  /-- MUL (R174): Tailor: element-wise product. -/
  | mul (t : TileNo)
  /-- MAX (R174): Tailor: element-wise maximum. -/
  | max (t : TileNo)
  /-- MIN (R174): Tailor: element-wise minimum. -/
  | min (t : TileNo)
  /-- MULI (R174): Tailor: product with a BF16 immediate. -/
  | muli (t : TileNo)
  /-- ADDI (R174): Tailor: sum with a BF16 immediate. -/
  | addi (t : TileNo)
  /-- MASK (R174): Tailor: keeps elements where the mask is selected, else +0. -/
  | mask (t : TileNo)
  /-- FMA (R174): Tailor: fused TA × TB + TC. -/
  | fma (t : TileNo)
  /-- FMS (R174): Tailor: fused TA × TB − TC. -/
  | fms (t : TileNo)
  /-- SEL (R174): Tailor: selects TA or TB by TC. -/
  | sel (t : TileNo)
  /-- CLAMP (R174): Tailor: clamps TA between TB and TC. -/
  | clamp (t : TileNo)
  /-- CVT (R181): Tailor: converts a buffer to FMTD. -/
  | cvt (t : TileNo)
  /-- CVTL (R181): Tailor: loads a Pocket tile and converts it into a buffer. -/
  | cvtl (t : TileNo)
  /-- CVTS (R181): Tailor: converts a buffer and stores it to the Pocket. -/
  | cvts (t : TileNo)
  /-- CVTSS (R183): Tailor: converts, stores and observes statistics. -/
  | cvtss (t : TileNo)
  /-- BDEC (R184): Tailor: decodes a BS8 tile into a buffer. -/
  | bdec (t : TileNo)
  /-- BENC (R184): Tailor: encodes a buffer as a BS8 tile in the Pocket. -/
  | benc (t : TileNo)
  /-- EXP (R178): Tailor function: exp. -/
  | exp (t : TileNo)
  /-- EXP2 (R178): Tailor function: 2^x. -/
  | exp2 (t : TileNo)
  /-- LOG (R178): Tailor function: natural logarithm. -/
  | log (t : TileNo)
  /-- LOG2 (R178): Tailor function: base-2 logarithm. -/
  | log2 (t : TileNo)
  /-- RCP (R178): Tailor function: reciprocal. -/
  | rcp (t : TileNo)
  /-- SQRT (R178): Tailor function: square root. -/
  | sqrt (t : TileNo)
  /-- RSQRT (R178): Tailor function: reciprocal square root. -/
  | rsqrt (t : TileNo)
  /-- TANH (R178): Tailor function: tanh. -/
  | tanh (t : TileNo)
  /-- SIGM (R178): Tailor function: sigmoid. -/
  | sigm (t : TileNo)
  /-- GELU (R178): Tailor function: GELU. -/
  | gelu (t : TileNo)
  /-- SILU (R178): Tailor function: SILU. -/
  | silu (t : TileNo)
  /-- SMAX (R179): Tailor: softmax of each 32-element row with masks and ALLMASK. -/
  | smax (t : TileNo)
  /-- SMST (R180): Tailor: accumulates softmax row statistics into columns 0–3. -/
  | smst (t : TileNo)
  /-- SMNM (R180): Tailor: normalises softmax using row statistics. -/
  | smnm (t : TileNo)
  /-- BADD (R175): Tailor broadcast add. -/
  | badd (t : TileNo)
  /-- BSUB (R175): Tailor broadcast subtract. -/
  | bsub (t : TileNo)
  /-- BMUL (R175): Tailor broadcast multiply. -/
  | bmul (t : TileNo)
  /-- BMAX (R175): Tailor broadcast maximum. -/
  | bmax (t : TileNo)
  /-- BMIN (R175): Tailor broadcast minimum. -/
  | bmin (t : TileNo)
  /-- BFMA (R175): Tailor broadcast fused multiply-add. -/
  | bfma (t : TileNo)
  /-- BCPY (R175): Tailor broadcast copy. -/
  | bcpy (t : TileNo)
  /-- RSUM (R176): Tailor row sum. -/
  | rsum (t : TileNo)
  /-- RMAX (R176): Tailor row maximum. -/
  | rmax (t : TileNo)
  /-- RMIN (R176): Tailor row minimum. -/
  | rmin (t : TileNo)
  /-- RSSQ (R176): Tailor row sum of squares. -/
  | rssq (t : TileNo)
  /-- RAMAX (R176): Tailor row largest absolute value. -/
  | ramax (t : TileNo)
  /-- RARGMAX (R176): Tailor row index of the maximum. -/
  | rargmax (t : TileNo)
  /-- RSUMA (R176): Tailor accumulating row sum. -/
  | rsuma (t : TileNo)
  /-- RMAXA (R176): Tailor accumulating row maximum. -/
  | rmaxa (t : TileNo)
  /-- CSUM (R176): Tailor column sum. -/
  | csum (t : TileNo)
  /-- CMAX (R176): Tailor column maximum. -/
  | cmax (t : TileNo)
  /-- CMIN (R176): Tailor column minimum. -/
  | cmin (t : TileNo)
  /-- CSSQ (R176): Tailor column sum of squares. -/
  | cssq (t : TileNo)
  /-- CAMAX (R176): Tailor column largest absolute value. -/
  | camax (t : TileNo)
  /-- CARGMAX (R176): Tailor column index of the maximum. -/
  | cargmax (t : TileNo)
  /-- CSUMA (R176): Tailor accumulating column sum. -/
  | csuma (t : TileNo)
  /-- CMAXA (R176): Tailor accumulating column maximum. -/
  | cmaxa (t : TileNo)
  /-- TAILOR_CMP (R177): Tailor compress of TA by TB into TD, advancing a q register. -/
  | tailorCmp (t : TileNo)
  /-- XPD (R177): Tailor expand of TA by TB into TD. -/
  | xpd (t : TileNo)
  /-- CMPS (R177): Tailor compress into the Pocket, advancing q[PREG]. -/
  | cmps (t : TileNo)
  /-- XPDL (R177): Tailor expand from the Pocket into TD, advancing q[PREG]. -/
  | xpdl (t : TileNo)
  /-- OPTCFG (R185): Loads an optimizer context from the Pocket. -/
  | optcfg (t : TileNo)
  /-- OPTA (R186): Phase A scan of a gradient tile into a statistics set. -/
  | opta (t : TileNo)
  /-- OPTBEGIN (R186): Opens an optimizer step, setting GS and possibly failing on nonfinite gradients. -/
  | optbegin (t : TileNo)
  /-- OPTB (R187): Phase B update of one weight block, written only if the whole block passes. -/
  | optb (t : TileNo)
  /-- OPTEND (R188): Closes an optimizer step, advancing STEP only if no block failed. -/
  | optend (t : TileNo)
  /-- OPTSV (R185): Stores an optimizer context to the Pocket. -/
  | optsv (t : TileNo)
  /-- FLU (R190): Writes Flurry values into a buffer. -/
  | flu (t : TileNo)
  /-- FLK (R190): Writes the Flurry keep mask into a buffer. -/
  | flk (t : TileNo)
  /-- FLD (R190): Applies the Flurry dropout mask to a buffer. -/
  | fld (t : TileNo)
  /-- TAILOR_RESULT (R87): A Tailor operation's result is whole at its latency. -/
  | tailorResult (t : TileNo) (parity : Bool)
  /-- GSTART (R221): Starts a Glide stream on a descriptor, from a bundle slot or a GCMD START write. -/
  | gstart (t : TileNo) (src : GSrc)
  /-- GCREDIT (R220): Grants a Glide stream credit for more tiles, from a bundle slot or GCMD CREDIT. -/
  | gcredit (t : TileNo) (src : GSrc)
  /-- GHALT (R221): Halts a Glide stream at a tile boundary, from a bundle slot or GCMD HALT. -/
  | ghalt (t : TileNo) (src : GSrc)
  /-- GLIDE_RESUME (R221): GCMD RESUME restarts a HALTED or FAULTED stream at its cursor. -/
  | glideResume (p : Principal) (t : TileNo) (stream : Fin 16)
  /-- GLIDE_ABORT (R221): GCMD ABORT ends a stream FAULTED with ABORTED. -/
  | glideAbort (p : Principal) (t : TileNo) (stream : Fin 16)
  /-- GADD (R224): Bundle slot increases a Gate by COUNT. -/
  | gadd (t : TileNo)
  /-- SKIP (R83): Control slot delays the next bundle by N array cycles. -/
  | skip (t : TileNo)
  /-- BR (R83): Control slot taken branch. -/
  | br (t : TileNo)
  /-- LOOP (R83): Control slot decrements a q register and branches while nonzero. -/
  | loop (t : TileNo)
  /-- BRZ (R83): Control slot branch if a q register is zero. -/
  | brz (t : TileNo)
  /-- BRNZ (R83): Control slot branch if a q register is nonzero. -/
  | brnz (t : TileNo)
  /-- QSET (R83): Control slot sets a q register. -/
  | qset (t : TileNo)
  /-- QADD (R83): Control slot adds to a q register. -/
  | qadd (t : TileNo)
  /-- GWAIT (R85): Control slot holds its bundle until a Gate reaches a value. -/
  | gwait (t : TileNo)
  /-- GWAITD (R85): Control slot holds until a Gate reaches a value, then decreases it. -/
  | gwaitd (t : TileNo)
  /-- CONTROL_BFLUSH (R83): Control slot empties the prefetch queue. -/
  | controlBflush (t : TileNo)
  /-- END (R83): Control slot ends the stream once issued operations reach their latency. -/
  | endStream (t : TileNo)
  /-- VECTOR_QUEUE_SEND (R95): The oldest vector instruction commits and crosses to the vector queue, waiting while it is full. -/
  | vectorQueueSend (t : TileNo) (user : Bool) (pc : BitVec 64) (ix : VInstr)
  /-- SETVL (R98): Sets vtype and vl and writes vl to xd. -/
  | setvl (t : TileNo)
  /-- VSYNC (R102): Commits when earlier vector instructions complete and stores are performed. -/
  | vsync (t : TileNo)
  /-- VRESUME (R113): Restarts the vector queue at VEPC and VSTART. -/
  | vresume (t : TileNo)
  /-- VRELEASE (R102): Declares vector registers, predicates and vcsr dead. -/
  | vrelease (t : TileNo)
  /-- VCSRR (R94): Reads vcsr into an x register. -/
  | vcsrr (t : TileNo)
  /-- VCSRW (R94): Writes vcsr. -/
  | vcsrw (t : TileNo)
  /-- VSEND (R115): Sends a vector register to a staging buffer, waiting while it is FULL. -/
  | vsend (t : TileNo)
  /-- STAGING_BUFFER_FILL (R115): A waiting VSEND finds its buffer free, writes it, sets FULL and counts its Gate. -/
  | stagingBufferFill (t : TileNo)
  /-- VECTOR_INTEGER_OP (R99): A vector integer, logic, shift, compare, move or permutation instruction of group 0x2D. -/
  | vectorIntegerOp (t : TileNo)
  /-- VECTOR_FP_OP (R103): A vector floating-point arithmetic, compare or conversion instruction of group 0x2F. -/
  | vectorFpOp (t : TileNo)
  /-- VFREDSUM (R105): Unordered vector sum reduction. -/
  | vfredsum (t : TileNo)
  /-- VFREDMAX (R105): Unordered vector maximum reduction. -/
  | vfredmax (t : TileNo)
  /-- VFREDMIN (R105): Unordered vector minimum reduction. -/
  | vfredmin (t : TileNo)
  /-- VFREDOSUM (R105): Ordered vector sum. -/
  | vfredosum (t : TileNo)
  /-- PREDICATE_OP (R100): A predicate operation of group 0x31. -/
  | predicateOp (t : TileNo)
  /-- VFOP (R104): Outer-product accumulate into a register group. -/
  | vfop (t : TileNo)
  /-- FXADDS (R107): Signed saturating add. -/
  | fxadds (t : TileNo)
  /-- FXADDSU (R107): Unsigned saturating add. -/
  | fxaddsu (t : TileNo)
  /-- FXSUBS (R107): Signed saturating subtract. -/
  | fxsubs (t : TileNo)
  /-- FXSUBSU (R107): Unsigned saturating subtract. -/
  | fxsubsu (t : TileNo)
  /-- FXHADD (R107): Signed halving add. -/
  | fxhadd (t : TileNo)
  /-- FXHADDU (R107): Unsigned halving add. -/
  | fxhaddu (t : TileNo)
  /-- FXHSUB (R107): Signed halving subtract. -/
  | fxhsub (t : TileNo)
  /-- FXHSUBU (R107): Unsigned halving subtract. -/
  | fxhsubu (t : TileNo)
  /-- FXSHRA (R107): Rounded arithmetic right shift. -/
  | fxshra (t : TileNo)
  /-- FXSHRL (R107): Rounded logical right shift. -/
  | fxshrl (t : TileNo)
  /-- FXSHLS (R107): Signed saturating left shift. -/
  | fxshls (t : TileNo)
  /-- FXSHLSU (R107): Unsigned saturating left shift. -/
  | fxshlsu (t : TileNo)
  /-- FXNARROW (R107): Signed rounding narrowing. -/
  | fxnarrow (t : TileNo)
  /-- FXNARROWU (R107): Unsigned rounding narrowing. -/
  | fxnarrowu (t : TileNo)
  /-- FXMULQ (R107): Fractional multiply with rounding and saturation. -/
  | fxmulq (t : TileNo)
  /-- FXMACQ (R107): Fractional multiply-accumulate. -/
  | fxmacq (t : TileNo)
  /-- VLOAD_UNIT (R110): Unit-stride vector load. -/
  | vloadUnit (t : TileNo)
  /-- VLOAD_STRIDED (R110): Strided vector load. -/
  | vloadStrided (t : TileNo)
  /-- VLOAD_INDEXED (R110): Indexed vector load. -/
  | vloadIndexed (t : TileNo)
  /-- VLOAD_FAULT_FIRST (R114): Unit-stride load that shortens vl at a fault beyond element 0. -/
  | vloadFaultFirst (t : TileNo)
  /-- VSTORE_UNIT (R110): Unit-stride vector store. -/
  | vstoreUnit (t : TileNo)
  /-- VSTORE_STRIDED (R110): Strided vector store. -/
  | vstoreStrided (t : TileNo)
  /-- VSTORE_INDEXED (R110): Indexed vector scatter. -/
  | vstoreIndexed (t : TileNo)
  /-- RETENTION_ENTRY (R116): The idle delay expires and the vector island enters RETENTION. -/
  | retentionEntry (t : TileNo)
  /-- COLD_ENTRY (R116): The cold delay expires after VRELEASE and the vector island enters COLD. -/
  | coldEntry (t : TileNo)
  /-- ISLAND_WAKE_COMPLETE (R27): A powered-down island finishes waking and the held Seam transfer is delivered. -/
  | islandWakeComplete (t : TileNo)
  /-- SEAM_ARRIVAL (R27): A transfer launched at a Seam becomes usable in the receiving island. -/
  | seamArrival (t : TileNo)
  /-- GLAUNCH (R198): Launches a block of groups or refuses it with QFULL or NOFIT. -/
  | glaunch (t : TileNo) (user : Bool) (rd ra : Fin 32)
  /-- GSTAT (R200): Reads a block's status word. -/
  | gstat (t : TileNo) (rd ra : Fin 32)
  /-- GJOIN (R196): Waits until a block has ended or parked, then reads its status. -/
  | gjoin (t : TileNo) (rd ra : Fin 32)
  /-- GKILL (R201): Ends a queued or resident block as KILLED. -/
  | gkill (t : TileNo) (ra : Fin 32)
  /-- GREPLAY (R213): Replays named parked groups. -/
  | greplay (t : TileNo) (ra rb : Fin 32)
  /-- GPARKRD (R212): Writes a group's park record to the Pocket. -/
  | gparkrd (t : TileNo) (rd ra rb : Fin 32)
  /-- GAREA (R196): Sets the group area, or returns BUSY while blocks exist. -/
  | garea (t : TileNo) (rd ra : Fin 32)
  /-- BLOCK_RESIDENT (R199): The head block receives all its resources, its Gates are zeroed and its groups start. -/
  | blockResident (t : TileNo)
  /-- BLOCK_DONE (R201): Every thread has exited and every copy completed; the block ends DONE. -/
  | blockDone (t : TileNo)
  /-- GROUP_ARITH (R202): A group arithmetic instruction of class 0x35. -/
  | groupArith (t : TileNo) (g : Fin 32) (o : GArith) (rd ra rb rc : GReg)
  /-- GROUP_LOAD (R203): A group load. -/
  | groupLoad (t : TileNo) (g : Fin 32) (size : Fin 4) (signed : Bool) (rd base : GReg) (pair : Bool) (off : BitVec 16)
  /-- GROUP_STORE (R203): A group store. -/
  | groupStore (t : TileNo) (g : Fin 32) (size : Fin 4) (rs base : GReg) (pair : Bool) (off : BitVec 16)
  /-- GROUP_ATOMIC (R203): A group atomic, once per running thread in lane order. -/
  | groupAtomic (t : TileNo) (g : Fin 32) (op : AtomOp) (size : Fin 5) (rd rs base : GReg) (rc : Option GReg) (pair : Bool) (off imm : BitVec 16)
  /-- GFENCE (R203): Orders earlier group accesses before later ones. -/
  | gfence (t : TileNo) (g : Fin 32)
  /-- GCOPY (R210): Starts an asynchronous Glide copy for a group. -/
  | gcopy (t : TileNo) (g : Fin 32) (addr off len : GReg) (store : Bool) (gate : BitVec 16)
  /-- GROUP_COPY_COMPLETE (R210): A group copy is wholly delivered and its Gate is counted. -/
  | groupCopyComplete (t : TileNo)
  /-- GROUP_COPY_FAULT (R211): A group copy faults, stops at its last whole 1 KiB and parks its group with COPYPAGE. -/
  | groupCopyFault (t : TileNo)
  /-- GBRA (R202): Group unconditional branch. -/
  | gbra (t : TileNo) (g : Fin 32) (imm : BitVec 16)
  /-- GBRC (R205): Group conditional branch that can diverge. -/
  | gbrc (t : TileNo) (g : Fin 32) (ra : GReg) (imm : BitVec 16)
  /-- GMARK (R205): Pushes a mark entry. -/
  | gmark (t : TileNo) (g : Fin 32) (imm : BitVec 16)
  /-- GSYNC (R205): Ends the running path and pops the next path or mark. -/
  | gsync (t : TileNo) (g : Fin 32)
  /-- SPIN (R206): Spin hint requesting a switch to another path. -/
  | spin (t : TileNo) (g : Fin 32)
  /-- SPIN_SWITCH (R206): Within 256 vector cycles the spinning path is set aside and the topmost path runs. -/
  | spinSwitch (t : TileNo) (g : Fin 32)
  /-- GBAR (R207): Group barrier. -/
  | gbar (t : TileNo) (g : Fin 32)
  /-- BBAR (R207): Block barrier. -/
  | bbar (t : TileNo) (g : Fin 32)
  /-- BARRIER_COMPLETE (R207): Every live thread waits at the barrier; barrier entries become path entries again. -/
  | barrierComplete (t : TileNo) (g : Fin 32)
  /-- WATCHDOG_EXPIRY (R208): A pending barrier reaches 2^20 vector cycles and the group parks with DEADLOCK. -/
  | watchdogExpiry (t : TileNo) (g : Fin 32)
  /-- GEXIT (R205): Running threads exit. -/
  | gexit (t : TileNo) (g : Fin 32)
  /-- GTRAP (R202): Parks the group with TRAP. -/
  | gtrap (t : TileNo) (g : Fin 32)
  /-- GWAITG (R202): Holds the group until a Gate reaches a value. -/
  | gwaitg (t : TileNo) (g : Fin 32) (rb : GReg) (imm : BitVec 16)
  /-- GWAITGD (R210): Holds until a Gate reaches a value, then decreases it. -/
  | gwaitgd (t : TileNo) (g : Fin 32) (rb : GReg) (imm : BitVec 16)
  /-- GSHFL (R209): Lane shuffle over running threads. -/
  | gshfl (t : TileNo) (g : Fin 32) (rd ra rb : GReg)
  /-- GVOTE (R209): Writes the vote mask of running threads. -/
  | gvote (t : TileNo) (g : Fin 32) (rd ra : GReg)
  /-- GRED (R209): Sum, maximum or minimum over running threads. -/
  | gred (t : TileNo) (g : Fin 32) (rd ra : GReg) (imm : BitVec 16)
  /-- GMMA (R209): 16×16×16 multiply-accumulate across a converged group. -/
  | gmma (t : TileNo) (g : Fin 32) (bf : Bool) (rd ra rb rc : GReg)
  /-- GLIDE_TILE_START (R220): A stream holding credit starts its next transfer tile and prefetches translations. -/
  | glideTileStart (t : TileNo) (stream : Fin 16)
  /-- GLIDE_REQUEST_ISSUE (R222): Glide issues one request of up to 256 bytes in round-robin order. -/
  | glideRequestIssue (t : TileNo) (bad : Bool)
  /-- TILE_COUNTED (R218): A tile whose bytes have all arrived is counted in order: Gate increased, Stitch units absorb, credit and cursor advance. -/
  | tileCounted (t : TileNo) (stream : Fin 16)
  /-- GLIDE_STREAM_FAULT (R226): A tile meets a fault; later tiles are discarded, credit returned and the stream becomes FAULTED. -/
  | glideStreamFault (t : TileNo) (stream : Fin 16)
  /-- GATE_WRITE (R225): A window write sets a Gate's count. -/
  | gateWrite (p : Principal) (t : TileNo) (g : Fin 64) (v : BitVec 64)
  /-- GATEOVF_CLEAR (R224): Writing 1 clears Gate overflow bits. -/
  | gateovfClear (p : Principal) (t : TileNo) (v : BitVec 64)
  /-- GATEUNDER_CLEAR (R224): Writing 1 clears Gate underflow bits. -/
  | gateunderClear (p : Principal) (t : TileNo) (v : BitVec 64)
  /-- SCTL_WRITE (R235): Writes a Stitch unit's control, resetting ALIVE on enable or stream change. -/
  | sctlWrite (p : Principal) (t : TileNo) (k : Fin 8) (v : BitVec 64)
  /-- SVAL_WRITE (R234): Writes a Stitch running value. -/
  | svalWrite (p : Principal) (t : TileNo) (k : Fin 8) (v : BitVec 64)
  /-- SVAL_READ (R235): Reads a Stitch running value and copies ALIVE into LALIVE. -/
  | svalRead (p : Principal) (t : TileNo) (k : Fin 8)
  /-- PATROL_SCRUB (R252): A home agent's scrub reads and checks a line, writing back corrections. -/
  | patrolScrub (line : Nat) (finding : Option LineFault)
  /-- STACK_TEMPERATURE_READING (R253): Every 250 µs each stack temperature is read, throttle levels updated and THERMTRIP_N checked. -/
  | stackTemperatureReading (temps : List Int)
  /-- THROTTLE_WINDOW (R254): A 1 µs cap window begins with the throttle cap then in force. -/
  | throttleWindow
  /-- TINVA (R275): Invalidates translations covering an address for an ASID. -/
  | tinva (t : TileNo) (user : Bool) (sa sb : Fin 32)
  /-- TINVS (R275): Invalidates non-global entries of an ASID. -/
  | tinvs (t : TileNo) (user : Bool) (sb : Fin 32)
  /-- TINVD (R275): Invalidates every entry of the domain. -/
  | tinvd (t : TileNo) (user : Bool)
  /-- TSYNC (R276): Commits when earlier invalidations complete. -/
  | tsync (t : TileNo) (user : Bool)
  /-- TCTX_WRITE (R262): Writes TCTX after vector work has drained. -/
  | tctxWrite (t : TileNo) (user : Bool) (sa : Fin 32)
  /-- ETCTX_WRITE (R262): Writes the context of window-started Glide streams. -/
  | etctxWrite (t : TileNo) (user : Bool) (sa : Fin 32)
  /-- CUFF_MISS (R273): A Cuff miss goes to its Collar partition. -/
  | cuffMiss (t : TileNo) (c : WalkRow) (va ctx : BitVec 64) (kernel : Bool) (k : XKind)
  /-- WALK_COMPLETE (R273): A table walk ends, is checked at fill and installs or faults. -/
  | walkComplete (t : WalkAt)
  /-- SHOOTDOWN_TAIL_WRITE (R279): H writes the shoot-down tail, clamped, starting the device on new records. -/
  | shootdownTailWrite (p : Principal) (v : BitVec 32)
  /-- SHOOTDOWN_EPOCH_COMPLETE (R279): The device completes the records up to the tail, writes the epoch and raises the event. -/
  | shootdownEpochComplete
  /-- SHOOTDOWN_RING_ENABLE (R281): Enabling the ring sets the completed epoch to the tail. -/
  | shootdownRingEnable (p : Principal) (b : Bool)
  /-- RDS (R289): Read for sharing at the home. -/
  | rds (n : Fin 195) (line : LineRead)
  /-- RDX (R289): Read for ownership at the home. -/
  | rdx (n : Fin 195) (line : LineRead)
  /-- UPG (R289): Upgrade of an S copy at the home. -/
  | upg (n : Fin 195) (line : LineRead)
  /-- RDNC (R292): Non-caching read at the home. -/
  | rdnc (n : Fin 195) (line : LineRead)
  /-- WRNC (R292): Non-caching masked write at the home, with read-modify-write where partial. -/
  | wrnc (n : Fin 195) (line : LineRead)
  /-- ATOM (R293): Atomic executed at the home. -/
  | atom (n : Fin 195) (line : LineRead)
  /-- SNPS (R287): Snoop: owner supplies requester and goes to S. -/
  | snps (n : Fin 193) (line : BitVec 38)
  /-- SNPX (R287): Snoop: owner supplies requester and goes to I. -/
  | snpx (n : Fin 193) (line : BitVec 38)
  /-- SNPCUR (R287): Snoop: owner supplies current data and keeps state. -/
  | snpcur (n : Fin 193) (line : BitVec 38)
  /-- SNPINV (R287): Snoop: holder gives up its copy with dirty data. -/
  | snpinv (n : Fin 193) (line : BitVec 38)
  /-- INV (R287): Sharer invalidates its copy. -/
  | inv (n : Fin 193) (line : BitVec 38)
  /-- DATA (R289): Data response granting S or E, or non-caching data, arrives. -/
  | data (n : Fin 193) (line : BitVec 38)
  /-- DATAX (R289): Data granting E for a write arrives. -/
  | datax (n : Fin 193) (line : BitVec 38)
  /-- CMP (R289): Transaction-complete response arrives. -/
  | cmp (n : Fin 193) (line : BitVec 38)
  /-- INVACK (R289): Invalidation acknowledgement arrives at the home. -/
  | invack (n : Fin 193) (line : BitVec 38)
  /-- SNPRSP (R290): Snoop response MISS, CLEAN, DIRTY or WBPEND arrives at the home. -/
  | snprsp (n : Fin 193) (line : BitVec 38)
  /-- WB (R290): Write-back of an M line arrives at the home. -/
  | wb (n : Fin 193) (line : BitVec 38)
  /-- WBACK (R290): Write-back acknowledgement frees the write-back buffer. -/
  | wback (n : Fin 193) (line : BitVec 38)
  /-- ATOMRSP (R293): Old value of an atomic arrives. -/
  | atomrsp (n : Fin 193) (line : BitVec 38)
  /-- ERR (R286): Refusal or uncorrectable-error response arrives and faults the consumer. -/
  | err (n : Fin 193) (line : BitVec 38)
  /-- PORT_CONTROL_WRITE (R311): Enables, disables or retrains a fabric port. -/
  | portControlWrite (p : Principal) (n : Fin 32) (v : BitVec 8)
  /-- HEDOM_LINK_CONTROL_WRITE (R342): Enables, disables or retrains the Hedom link. -/
  | hedomLinkControlWrite (p : Principal) (v : BitVec 8)
  /-- LANE_LOCK (R311): Training locks 4 or 8 lanes (or 4 to 16 on Hedom) and the port moves on. -/
  | laneLock (l : Link) (lanes : Fin 4)
  /-- TRAINING_TIMEOUT (R311): 100 ms pass without lock and the port goes DOWN. -/
  | trainingTimeout (l : Link)
  /-- LINK_ATTESTATION_MESSAGE (R336): An MGT attestation message is received and checked, deriving link keys or failing the port. -/
  | linkAttestationMessage (n : Fin 32) (m : AttMsg)
  /-- REKEY (R337): A direction rekeys after 2^40 flits, 24 h or a request. -/
  | rekey (n : Fin 32) (m : RekeyMsg) (sig : List (BitVec 8))
  /-- FLIT_RECEIVE (R313): A flit arrives, its tag is checked, credits and ACK processed and packets extracted or forwarded. -/
  | flitReceive (l : Link) (f : Flit)
  /-- RETRAIN_LOCK (R315): A retraining port relocks within 10 ms and resumes replay. -/
  | retrainLock (l : Link) (peer : LinkCounts)
  /-- RETRAIN_TIMEOUT (R311): A port retrains too long and goes to FAILED. -/
  | retrainTimeout (l : Link)
  /-- RD (R317): Remote read packet served at the target. -/
  | rd
  /-- WR (R317): Remote write packet served at the target. -/
  | wr
  /-- FABRIC_ATOM (R317): Remote atomic packet served at the target. -/
  | fabricAtom
  /-- RED (R331): Reduction contribution or partial sum arrives at a router. -/
  | red
  /-- REDRES (R333): Reduction result arrives, is written and forwarded to children. -/
  | redres
  /-- RDRSP (R317): Remote read response arrives at the issuer. -/
  | rdrsp
  /-- WRACK (R317): Remote write acknowledgement arrives. -/
  | wrack
  /-- FABRIC_ATOMRSP (R317): Remote atomic response arrives. -/
  | fabricAtomrsp
  /-- FABRIC_ERR (R328): ERR packet arrives and faults the access. -/
  | fabricErr
  /-- REMOTE_TIMEOUT (R326): A remote transaction timer expires and the access faults. -/
  | remoteTimeout (tag : BitVec 16)
  /-- REDUCTION_ENABLE (R331): Writing a reduction entry with EN reserves its window or reads NOROOM or BADCFG. -/
  | reductionEnable (p : Principal) (ix : Fin 64) (v : BitVec 128)
  /-- REDUCTION_CHUNK_TIMEOUT (R335): A chunk stays unfinished too long and the entry moves to FAILED. -/
  | reductionChunkTimeout (ix : Fin 64)
  /-- CHANNEL_STALL (R322): A channel input makes no progress for 10 ms; counted and ALERT_N raised. -/
  | channelStall (n : Fin 32)
  /-- HOST_TIMEOUT (R350): A device request to the host goes unanswered and faults its consumer. -/
  | hostTimeout (tag : BitVec 16)
  /-- RCFG_WRITE (R351): Configures, enables or disables a work ring. -/
  | rcfgWrite (p : Principal) (r : Fin 256) (v : BitVec 64)
  /-- HIDX_WRITE (R352): Host index write, clamped, sets DBPEND and raises the doorbell. -/
  | hidxWrite (p : Principal) (r : Fin 256) (v : BitVec 32)
  /-- DIDX_WRITE (R352): Tile index write, clamped, sends the ring's vector. -/
  | didxWrite (p : Principal) (r : Fin 256) (v : BitVec 32)
  /-- DBPEND_CLEAR (R352): Writing 1 clears doorbell pending bits. -/
  | dbpendClear (p : Principal) (t : TileNo) (w : Fin 4) (v : BitVec 64)
  /-- VCTL_WRITE (R353): Writes a vector's control; clearing MASK sends a pending vector. -/
  | vctlWrite (p : Principal) (n : Fin 2048) (v : BitVec 64)
  /-- UPDATE_OPEN (R374): Claims the firmware update engine for a target slot. -/
  | updateOpen (p : Principal)
  /-- UPDATE_DATA_WRITE (R374): Writes up to 4 KiB of image into the target slot and advances the offset. -/
  | updateDataWrite (p : Principal) (data : List (BitVec 8)) (ok : Bool)
  /-- FINISH (R374): Starts read-back and checking of both images. -/
  | finish (p : Principal)
  /-- FINISH_COMPLETE (R374): Both images checked; selector written with DONE or the engine released on failure. -/
  | finishComplete (ok : Bool)
  /-- UPDATE_ABORT (R374): Releases the update engine leaving the selector unchanged. -/
  | updateAbort (p : Principal)
  /-- COMMIT (R375): M starts raising anti-rollback counters and blowing revocation bits. -/
  | commit (p : Principal)
  /-- COMMIT_COMPLETE (R375): The fuse commit ends and failures are reported. -/
  | commitComplete (fails : BitVec 6)
  /-- UNLOCK_CHALLENGE_READ (R377): M's read draws a fresh unlock nonce. -/
  | unlockChallengeRead (p : Principal)
  /-- UNLOCK_TOKEN_WRITE (R377): A token is checked; on success the unlock flag is set and destroy sequences start. -/
  | unlockTokenWrite (p : Principal) (data : List (BitVec 8))
  /-- UNLOCK_SCOPE_EFFECT (R378): After every Cloak is destroyed, the report is rebuilt, ports go ATTESTING and the scope takes effect. -/
  | unlockScopeEffect
  /-- DEVICE_REPORT_BUILD (R367): At the next tick after a change of PKGID, DOMTAG or UNLOCK, S builds a new device report. -/
  | deviceReportBuild
  /-- MAILBOX_READ (R396): A mailbox READ operation delivers an object's value. -/
  | mailboxRead (bad : Bool)
  /-- MAILBOX_WRITE (R396): A mailbox WRITE operation stores a clamped value. -/
  | mailboxWrite
  /-- OBJECT_WRITE (R386): Write to an object with no row of its own: clamped, stored and returned. -/
  | objectWrite (src : Source) (idx : BitVec 16) (sub : BitVec 8) (data : List (BitVec 8))
  /-- HOLD_RELEASE (R394): Clears HOLD on every M-held object. -/
  | holdRelease (p : Principal)
  /-- AON_RESTORE (R390): Restores every aon object to its Default. -/
  | aonRestore (p : Principal)
  /-- DESCRIPTOR_QUERY (R397): Selects the object whose descriptor this source reads. -/
  | descriptorQuery (src : Source) (pair : BitVec 24)
  /-- DISCOVER (R400): A manager's DISCOVER is answered with ANNOUNCE. -/
  | discover (h : SbHead)
  /-- HELLO (R402): Opens session setup, answered by CHALLENGE or REJECT. -/
  | hello (h : SbHead) (kindF : Bool) (cred : BitVec 8) (qm : List (BitVec 8)) (nm : BitVec 256)
  /-- PROOF (R402): The manager's proof is checked; keys derived and ACCEPT sent, or REJECT. -/
  | proof (h : SbHead) (sid : BitVec 16) (key sig : List (BitVec 8))
  /-- SETUP_TIMEOUT (R402): A slot in setup too long is freed. -/
  | setupTimeout (ix : Fin 5)
  /-- SB_READ (R408): Side-band READ of an object. -/
  | sbRead (f : SbIn) (bad : Bool)
  /-- SB_WRITE (R408): Side-band WRITE of an object. -/
  | sbWrite (f : SbIn) (flash : Bool)
  /-- BREAD (R408): Block read through the session buffer. -/
  | bread (f : SbIn) (bad : Bool)
  /-- BWRITE (R408): Block write into the session buffer, issuing a WRITE on FINAL. -/
  | bwrite (f : SbIn) (flash : Bool)
  /-- SUBSCRIBE (R409): Adds or replaces a subscription. -/
  | subscribe (f : SbIn)
  /-- UNSUBSCRIBE (R409): Removes a subscription. -/
  | unsubscribe (f : SbIn)
  /-- NOP (R406): Keeps a session alive. -/
  | nop (f : SbIn)
  /-- SUBSCRIPTION_SAMPLE (R409): Every 1 ms subscriptions are sampled and EVENTs sent. -/
  | subscriptionSample
  /-- CLOSE (R404): A CLOSE frame ends a session. -/
  | close (f : SbIn)
  /-- SESSION_CLOSE_WRITE (R404): A write of a SID closes that session. -/
  | sessionCloseWrite (p : Principal) (sid : BitVec 16)
  /-- ALIVE_TIMEOUT (R406): A session idles past its alive timeout and is closed. -/
  | aliveTimeout (ix : Fin 5)
  /-- GOVERNOR_TICK (R416): Every 10 µs the governor closes the tick, audits tokens, issues the budget and grants and reads junction sensors. -/
  | governorTick (temps : List Int)
  /-- TICK_MIDPOINT (R420): At 5 µs every reservation's remainder becomes unreserved. -/
  | tickMidpoint
  /-- C_CORE_CHARGE (R421): Every 4 core cycles the C-core is charged or stops its clock. -/
  | cCoreCharge (t : TileNo)
  /-- IDLE_RETURN (R420): An idle tile returns its account remainder to its pool. -/
  | idleReturn (t : TileNo)
  /-- PMBUS_CURRENT_SAMPLE (R425): Every 100 µs rail currents are read and the budget trimmed. -/
  | pmbusCurrentSample (amps : List (Option Nat)) (watts : List Nat) (pkg die0 die1 : Nat)
  /-- PMBUS_STATUS_POLL (R461): Every 1 ms voltages and status words are read. -/
  | pmbusStatusPoll (mv : List Nat) (faults : BitVec 8)
  /-- PMB_ALERT (R461): PMB_ALERT_N makes the device read every status word. -/
  | pmbAlert (faults : BitVec 8)
  /-- DROOP (R425): A droop detector stops issue in a tile's array and vector islands. -/
  | droop (t : TileNo)
  /-- DROOP_HOLD_END (R425): The droop hold count expires and issue resumes. -/
  | droopHoldEnd (t : TileNo)
  /-- TIME_MARK (R415): A write starts a time mark to every island. -/
  | timeMark (p : Principal)
  /-- TIME_MARK_ARRIVAL (R415): A time mark arrives at an island, which records its timestamp. -/
  | timeMarkArrival (ix : MarkIsland)
  /-- POWER_ON_RESET (R433): PWR_OK_AON rises and the device resets everything. -/
  | powerOnReset (pkgId : BitVec 12) (sbNode : BitVec 5) (sbEnrol : Bool)
  /-- RESET_N_ASSERT (R434): RESET_N goes low, abandoning any step. -/
  | resetNAssert
  /-- RESET_N_RELEASE (R435): RESET_N rises and the power-up sequence starts. -/
  | resetNRelease (pkgId : BitVec 12)
  /-- COLD_RESET_REQUEST (R433): A write of 1 requests a cold reset. -/
  | coldResetRequest (p : Principal)
  /-- MAIN_RAILS_WRITE (R446): M turns the main rails off or on. -/
  | mainRailsWrite (p : Principal) (b : Bool)
  /-- PWR_OK_MAIN_RISE (R435): PWR_OK_MAIN rises and self-test begins. -/
  | pwrOkMainRise
  /-- PWR_OK_MAIN_FALL (R449): PWR_OK_MAIN falls or a regulator faults; rails off and cold reset. -/
  | pwrOkMainFall (rail : Fin 8)
  /-- RAIL_FAULT_RESTART (R449): 1 s after a rail fault the sequence runs again. -/
  | railFaultRestart
  /-- SELFTEST_COMPLETE (R438): Self-test ends; fencing and floor applied; READY or Snowplough. -/
  | selftestComplete (r : SelfTest)
  /-- STEP_TIMEOUT (R435): A power-up step exceeds its limit and fails with TIMEOUT. -/
  | stepTimeout (step : Fin 16) (src : BitVec 8) (unit_ : BitVec 16)
  /-- TRIP_HOLDOFF_END (R447): 10 s after a trip, a waiting cold reset proceeds. -/
  | tripHoldoffEnd
  /-- REFERENCE_LOSS (R463): A reference clock is lost and its islands hold frequency or switch oscillator. -/
  | referenceLoss (r : RefClock)
  /-- ALERT_ACKNOWLEDGE (R448): M or F clears ALERT_N cause bits. -/
  | alertAcknowledge (p : Principal) (bits : BitVec 16)
  /-- CLEAR_H_LOG (R457): Empties the H error log. -/
  | clearHLog (p : Principal)
  /-- CLEAR_M_LOG (R457): Empties the M error log. -/
  | clearMLog (p : Principal)
  /-- SET_POINT_WRITE (R461): A rail set point is stored and sent at the next tick. -/
  | setPointWrite (p : Principal) (rail : Fin 8) (mv : BitVec 16)
  /-- TRACE_ENABLE_WRITE (R473): Enables trace output, or stores 0 while the debug port is closed. -/
  | traceEnableWrite (p : Principal) (b : Bool)
  /-- TRAINING_START (R311): A DOWN fabric port that finds a peer starts training and moves to TRAINING. -/
  | trainingStart (n : Fin 32)
  /-- VDD_AON_LOSS (R404): Loss of VDD_AON ends every side-band session and drops all always-on state. -/
  | vddAonLoss
  /-- POWER_UP_STEP_COMPLETE (R435): A boot step of Table 20.2 (ROM boot, known-answer tests, fuse check, firmware verification and DICE derivation, clock check, paced rail enables) finishes and the next begins. -/
  | powerUpStepComplete (fail : Option (BitVec 8)) (unit_ : BitVec 16)
  /-- SIGNATURE_COMPLETE (R369): The Caerdy signing engine finishes a signature for a REPORT, FINALISE, ROTATE_KEY, device report or link attestation and serves the next in arrival order. -/
  | signatureComplete
  /-- INVALIDATION_COMPLETE (R276): A TINV instruction's removals in every Cuff, walk cache and Collar partition and its outstanding accesses finish, letting a waiting TSYNC commit. -/
  | invalidationComplete (t : TileNo)
  /-- COLLAR_RESPONSE (R273): The Collar partition answers a Cuff miss after the Rink round trip, installing the hit in the Cuff or starting a walk. -/
  | collarResponse (t : RowAt)
  /-- WAIT_FOR_EVENT (R420): The C-core system instruction wait-for-event puts the core in wait until an event arrives. -/
  | waitForEvent (t : TileNo)
  /-- FCSR_WRITE (R152): A write to control register fcsr sets the scalar rounding mode and flags. -/
  | fcsrWrite (t : TileNo) (ra : Fin 32)
  /-- FREQUENCY_CHANGE_COMPLETE (R413): After a C-core step change at a tick boundary, each C-core restarts its clock, at most 2 µs later. -/
  | frequencyChangeComplete (t : TileNo)
  deriving DecidableEq, Repr

end Sys2Proof
end

