-- ==== Sys2Proof/Machine/StTile.lean ====
section
/-!
DEFINITION. Machine/StTile.lean: the state of one tile (01 R19): C-core and L2, LVU, array island, thread groups, Glide and
Stitch units, translation, energy account, Pocket.
-/
namespace Sys2Proof.Machine
open Sys2Proof

/-! ### C-core (03 R65 to R73, R113; 12 R284) -/

/-- The exceptions, traps and events that reach a tile's C-core. A block has no exception entry: they are recorded in the
order in which they were raised. -/
inductive CoreEvent where
  | illegal                          -- illegal-instruction (R66)
  | page (va : U64)                  -- translation exceptions (R270)
  | owner (va : U64)
  | misaligned (va : U64)            -- R295
  | access (va : U64)                -- access fault (R293, R297)
  | machineCheck (va : U64)          -- an uncorrectable error consumed (R251)
  | vectorFault                      -- the vector fault trap (R113)
  | engine (ticket : U16)            -- the engine event (R74)
  | glide (stream : Nat)             -- the Glide event (R226, R227)
  | group (ticket : U16)             -- the group event (R201)
  | doorbell                         -- a work ring's doorbell (R352)
  | completion                       -- a completion that S raises for the tile's Cloak
  | error                            -- a new error record of the Cloak (R456)
  | mailbox                          -- a reply in the dictionary mailbox (R396)
  | staging (pair : Nat)             -- a staging buffer of the pair has emptied (R115)
  deriving DecidableEq, Repr

/-- Where the answer of an outstanding access of the tile goes. -/
inductive Dest where
  | xreg (r : Fin 32) (size : Nat) (signed : Bool)   -- a load into an x register, or into two above 8 bytes
  | freg (r : Fin 32)
  | half (r : Fin 32) (fp : Bool) (size : Nat) (signed : Bool) (off : Nat)   -- one part of a load that spans two lines
  | store                                  -- a store: nothing comes back
  | atom (r : Fin 32) (size : Nat)         -- an atomic's old value
  deriving DecidableEq, Repr

/-- The part of a load over two lines that has arrived, for its destination register. -/
structure Half where
  r : Fin 32
  fp : Bool
  off : Nat
  data : Bytes
  deriving DecidableEq, Repr

/-- A store that has not yet been performed: its line is being obtained, or its home has not acknowledged it. -/
structure PendStore where
  addr : Nat
  data : Bytes
  tail : Bool := false         -- the second part of a store over two lines, which stands just after the first (R71)
  deriving DecidableEq, Repr

/-- The C-core (R65 to R67, R152, R414). -/
structure CCore where
  pc : U64 := 0                -- where START releases it
  x : List U64 := []           -- x1 to x31 (x0 reads as zero)
  f : List U64 := []
  fcsr : U64 := 0
  storeQ : List PendStore := []
  halves : List Half := []
  events : List CoreEvent := []
  released : Bool := false     -- a Cloak's C-core is released by START
  waiting : Bool := false      -- wait-for-event (R420)
  stopped : Bool := false      -- its clock is stopped for want of tokens (R421, R422)
  changing : Bool := false     -- its clock is stopped for a frequency change (R413)
  mark : List U64 := []        -- control registers 0x012 to 0x014: the time mark's stamps (R415)
  fences : List (Nat × Nat) := []      -- FENCEs whose predecessors are not all performed: the two sets (R70)
  vsync : Bool := false        -- VSYNC holds the instructions after it (R102)
  tsync : Bool := false        -- TSYNC does (R276)
  deriving DecidableEq, Repr

/-- The state of a line in an L2 (Table 12.2). -/
inductive LineSt where
  | i | s | e | m
  deriving DecidableEq, Repr

structure L2Line where
  st : LineSt := .i
  data : Bytes := []
  deriving DecidableEq, Repr

/-- A request of the C-core that awaits its grant or answer (R287, R297). -/
structure Outstanding where
  line : Nat
  write : Bool                 -- it asks for ownership
  addr : Nat
  size : Nat
  dest : Dest
  granted : Bool := false      -- DATAX has arrived and CMP is still due
  done : Bool := false         -- CMP has arrived before DATAX
  deriving DecidableEq, Repr

structure L2 where
  lines : List (Nat × L2Line) := []
  wb : List (Nat × Bytes) := []            -- write-back buffer (R290)
  out : List Outstanding := []
  held : List (Nat × Nat × Nat) := []      -- snoops held until the grant: line, kind, requester (R287)
  deriving DecidableEq, Repr

/-! ### LVU (04 R93 to R95, R113, R116) -/

/-- A vector instruction in the queue, with the scalar operands and the context that it was sent with (R95, R263). -/
structure VEntry where
  i : VInstr
  pc : U64
  xa : U64
  xb : U64
  fb : U64
  tctx : U64
  kernel : Bool
  deriving DecidableEq, Repr

/-- The states of Table 4.9. -/
inductive IslandSt where
  | active | retention | cold
  deriving DecidableEq, Repr

structure Lvu where
  v : List (BitVec 8192) := []
  p : List (BitVec 1024) := []
  vl : U16 := 0
  vtype : BitVec 2 := 0
  vcsr : U64 := 0
  vepc : U64 := 0
  vstart : U16 := 0
  vcause : Byte := 0
  vaddr : U64 := 0
  queue : List VEntry := []
  faulted : Bool := false              -- stopped on a fault until VRESUME (R113)
  sending : Option (VInstr × BitVec 8192) := none   -- a VSEND in the send unit, with its data, that waits for its buffer (R115)
  begun : Bool := false                -- the memory instruction at the head has been charged and counted
  cur : Nat := 0                       -- the element that it is at
  part : Nat := 0                      -- the bytes of that element that have been moved
  buf : Bytes := []                    -- those of a load
  waiting : Bool := false              -- an answer of the host or of another package is due
  asked : Nat := 0                     -- the bytes that it is for
  rev : Bool := false                  -- the element's second part has gone first (R113)
  power : IslandSt := .active
  released : Bool := false             -- VRELEASE since vector state was last written (R116)
  cnt : List Nat := []                 -- objects 0x1410 to 0x1413
  deriving DecidableEq, Repr

/-! ### Thread groups (08 R193 to R213) -/

/-- An entry of a path stack (R205). -/
inductive PathEntry where
  | mark (target : U64) (mask : U64)
  | path (pc : U64) (mask : U64)
  | barrier (pc : U64) (mask : U64) (block : Bool) (arrival : Nat)
  deriving DecidableEq, Repr

/-- The park record of a group (Table 8.6). -/
structure Park where
  cause : Nat
  addr : U64 := 0
  flane : Nat := 64
  copyCur : U64 := 0
  copy : Option Nat := none            -- the copy that it waits for (R211)
  deriving DecidableEq, Repr

/-- A memory instruction of a group under way: the lane that it is at, the bytes of that lane's access that have been moved,
and whether an answer is due. -/
structure GProg where
  op : GMemOp
  lane : Nat := 0
  part : Nat := 0
  buf : Bytes := []
  waiting : Bool := false
  asked : Nat := 0                     -- the bytes that the answer due is for
  rev : Bool := false                  -- the access's second part has gone first (R204)
  deriving DecidableEq, Repr

/-- A group in its slot. Each register is 64 lanes of 32 bits, lane `l` in bits [32 l + 31 : 32 l]. -/
structure Group where
  ticket : U16 := 0
  index : Nat := 0
  regs : List (BitVec 2048) := []
  pc : U64 := 0
  running : U64 := 0
  live : U64 := 0
  stack : List PathEntry := []         -- the topmost entry first
  park : Option Park := none
  wdog : Nat := 0
  bbar : Bool := false                 -- the path of a converged group waits at the block's barrier
  spin : Bool := false                 -- a SPIN that has not taken effect yet (R206)
  mem : Option GProg := none
  deriving DecidableEq, Repr

/-- A queued or resident block (R193 to R199). -/
structure Block where
  ticket : U16 := 0
  entry : U64 := 0
  arg : U64 := 0
  ngroups : Nat := 1
  nregu : Nat := 2
  pocket : Nat := 0                    -- 4 KiB units
  base : Nat := 0                      -- Pocket byte offset of the allocation
  gateBase : Nat := 0
  ngates : Nat := 0
  strict : Bool := false
  frm : Nat := 0
  event : Bool := false
  doneGate : Nat := 255
  tctx : U64 := 0
  kernel : Bool := false
  slots : List Nat := []
  cause : Nat := 0                     -- the latest park
  deriving DecidableEq, Repr

/-- The record of an ended block (R200). -/
structure BlockRec where
  ticket : U16
  killed : Bool
  cause : Nat
  deriving DecidableEq, Repr

/-- A group copy under way in Glide (R210). -/
structure GCopyJob where
  id : Nat
  ticket : U16
  slot : Nat
  va : U64
  off : Nat
  len : Nat
  store : Bool                         -- Pocket to memory
  gate : Nat
  killed : Bool := false               -- its block has ended: it stops at a 1 KiB boundary, and no Gate is counted (R201)
  cursor : Nat := 0                    -- bytes delivered
  busy : Bool := false                 -- a request of it is outstanding
  fault : Option (Nat × U64) := none
  tctx : U64 := 0
  kernel : Bool := false
  deriving DecidableEq, Repr

structure Groups where
  slots : List (Option Group) := []
  resident : List Block := []          -- in ticket order
  queue : List Block := []
  records : List BlockRec := []        -- newest first, at most eight
  nextTicket : U16 := 1
  areaBase : Nat := 0                  -- 64 KiB units (R196)
  areaSize : Nat := 0
  gates : List U32 := []               -- the groups' Gate view (R210)
  copies : List GCopyJob := []
  nextCopy : Nat := 0
  arrivals : Nat := 0                  -- order of arrival at barriers (R207)
  cnt : List Nat := []                 -- objects 0x1710 to 0x1713
  deriving DecidableEq, Repr

/-! ### Glide, Gates and Stitch units (09 R215 to R236) -/

/-- The states of Table 9.1. -/
inductive GState where
  | idle | running | halted | faulted | done | stopped
  deriving DecidableEq, Repr

/-- A translation held by a Cuff or the Collar: `size` is the page size, 0 to 3 for 4 KiB, 64 KiB, 2 MiB and 1 GiB. -/
structure XEntry where
  size : Nat
  vpage : Nat                          -- VA of the page
  ppage : Nat                          -- global physical address of the page
  asid : U16
  shr : Bool                           -- the leaf's SHR bit (R265, R318)
  g : Bool
  u : Bool
  x : Bool
  w : Bool
  r : Bool
  deriving DecidableEq, Repr

/-- A transfer tile in flight: the next byte offset to be requested, the bytes that have landed, and the fault it met. -/
structure TileJob where
  k : Nat
  next : Nat := 0
  got : Nat := 0
  plain : Bytes := []                  -- its ring-side bytes, for the Stitch units (R232)
  buf : Bytes := []                    -- ciphertext and tag of an encrypted tile (R228)
  second : Bool := false               -- an encrypted tile: the message is complete and its result is being written
  tagBad : Bool := false               -- an opened tile whose tag failed: zeros are written (R231)
  fault : Option (Nat × U64) := none
  xl : List XEntry := []               -- the translations that it has used (R277)
  deriving DecidableEq, Repr

structure GStream where
  state : GState := .idle
  refused : Bool := false
  cause : Nat := 0
  cursor : BitVec 48 := 0
  faddr : U64 := 0
  credit : BitVec 8 := 0
  desc : List U64 := []                -- the working copy, eight words
  tctx : U64 := 0
  kernel : Bool := false
  flight : List TileJob := []          -- in tile order
  nextTile : Nat := 0
  halting : Bool := false
  stopping : Bool := false             -- a Cloak STOP holds it once its tiles in flight are counted (R227)
  aborting : Bool := false
  version : U32 := 0                   -- the ledger version that the stream keeps (R357)
  keyDue : Bool := false                       -- the session record is still to be asked for (R230)
  key : Option (BitVec 256 × BitVec 96) := none
  base : Nat := 0                      -- requests numbered below it are of tiles that were discarded (R226)
  deriving DecidableEq, Repr

structure Stitch where
  stream : Fin 16 := 0
  en : Bool := false
  poly : Bool := false
  alive : Byte := 0
  lalive : Byte := 0
  sval : U64 := 0
  deriving DecidableEq, Repr

/-- A Glide request to host memory or another package that awaits its answer. -/
structure GReq where
  stream : Option (Fin 16)             -- none: a group copy
  k : Nat
  off : Nat
  len : Nat
  addr : Nat
  write : Bool
  n : Nat := 0                         -- its number among the requests of its Glide
  deriving DecidableEq, Repr

structure Glide where
  streams : List GStream := []
  rr : Nat := 0                        -- the requester served last: 0 to 15 streams, 16 group copies
  reqs : List GReq := []               -- requests outstanding (R222)
  nextReq : Nat := 0
  gates : List U32 := []
  ovf : U64 := 0
  under : U64 := 0
  stitch : List Stitch := []
  offKey : Option (BitVec 256) := none
  grpKey : Option (BitVec 256) := none
  cnt : List Nat := []                 -- objects 0x1810 to 0x1815
  deriving DecidableEq, Repr

/-! ### Translation (11 R262, R271 to R276) -/

/-- A table pointer held by a walk cache: the table at `level - 1` for addresses that share VA[56 : 12 + 9 level]. -/
structure WEntry where
  level : Nat
  vtop : Nat
  table : Nat
  asid : U16
  deriving DecidableEq, Repr

/-- A Cuff with its walk cache, most recently used first (R271). -/
structure Cuff where
  entries : List XEntry := []
  walk : List WEntry := []
  deriving DecidableEq, Repr

/-- A Cuff miss on its way to the Collar, or a walk that has begun (R273, R277). -/
structure Miss where
  row : WalkRow
  va : U64
  tctx : U64
  kernel : Bool
  kind : XKind
  walking : Bool
  deriving DecidableEq, Repr

/-- A translation invalidation that has not completed (R275). -/
structure Inv where
  kind : Nat                           -- 0 TINVA, 1 TINVS, 2 TINVD
  va : U64
  asid : U16
  deriving DecidableEq, Repr

structure Xlat where
  tctx : U64 := 0
  etctx : U64 := 0
  core : Cuff := {}
  lvu : Cuff := {}
  glide : Cuff := {}
  misses : List Miss := []
  inv : List Inv := []
  cnt : List Nat := []                 -- objects 0x1A10 to 0x1A12, 0x1B10, 0x1B11
  deriving DecidableEq, Repr

/-! ### Energy account (19 R419 to R422) -/

structure Acct where
  array : Nat := 0                     -- reservations and the unreserved part, in charge units
  vector : Nat := 0
  memory : Nat := 0
  core : Nat := 0
  unreserved : Nat := 0
  received : Bool := false             -- a grant or a top-up in the tick under way
  arrayAsleep : Bool := false          -- the array island is in retention
  used : Nat := 0                      -- charges of the last 1 ms, for object 0x2110
  droop : Bool := false                -- a droop holds issue (R425)
  deriving DecidableEq, Repr

def Acct.held (x : Acct) : Nat := x.array + x.vector + x.memory + x.core + x.unreserved

/-- An account whose tokens have lapsed. -/
def Acct.emptied (a : Acct) : Acct := { a with array := 0, vector := 0, memory := 0, core := 0, unreserved := 0 }

/-- A transfer that a Seam of the tile holds (R27, R79, R85, R210, R411). -/
inductive SeamMsg where
  | seqGate (g : Nat) (set : Bool) (n : Nat)    -- to the sequencer's Gate view
  | grpGate (g : Nat) (set : Bool) (n : Nat)    -- to the groups' Gate view
  | staged (b : Nat) (data : Bytes) (g n : Nat) -- a register for staging buffer `b`, with its Gate's arrival
  deriving DecidableEq, Repr

/-- A device tile. -/
structure Tile where
  owner : BitVec 7 := 0                -- domain tag (R37)
  halted : Bool := false               -- halted by a Cloak STOP (R45)
  core : CCore := {}
  l2 : L2 := {}
  lvu : Lvu := {}
  eng : Engine := {}
  grp : Groups := {}
  glide : Glide := {}
  xlat : Xlat := {}
  acct : Acct := {}
  pocket : Mem := []
  seam : List SeamMsg := []
  deriving DecidableEq, Repr

end Sys2Proof.Machine
end

