-- ==== Sys2Proof/Machine/StPackage.lean ====
section
/-!
DEFINITION. Machine/StPackage.lean: the state that the package holds once: Cloaks and ownership (02), memory and
coherence (10 to 12), and the energy governor (19).
-/
namespace Sys2Proof.Machine
open Sys2Proof

/-! ### Cloaks (02 R39 to R57) -/

/-- The states of Table 2.3. -/
inductive CloakSt where
  | free | building | ready | running | stopped | destroying
  deriving DecidableEq, Repr

/-- A Cloak command with its arguments (Table 2.4). Granules are numbered over both kinds: a Lining index, or 32,768 plus an
HBM index (R39). -/
inductive CloakCmd where
  | create (share : Nat) (hybrid : Bool)
  | addTiles (map : BitVec 192)
  | addGranules (list : List Nat)
  | load (src len dst : Nat)
  | finalise
  | start
  | stop
  | resume
  | destroy
  | reclaim (list : List Nat)
  | exit
  | release (list : List Nat)
  | rotateKey
  | report (rdata : Bytes) (dst : Nat)
  | getseal (dst : Nat)
  | lalloc (count : Nat)
  | lfree (first count : Nat)
  | lread (index dst : Nat)
  deriving DecidableEq, Repr

/-- A command in the queue of its issuer (R44): all queues together, in order of arrival. -/
structure QCmd where
  by_ : Principal
  id : Nat
  cmd : CloakCmd
  deriving DecidableEq, Repr

/-- The command that runs for a Cloak ID, with the work that is left and the count done. -/
structure CloakRun where
  q : QCmd
  todo : List Nat := []
  count : Nat := 0
  deriving DecidableEq, Repr

/-- A completion record (R44), with the code of Table 2.5. -/
structure Completion where
  to_ : Principal
  op : Nat
  id : Nat
  result : Nat
  state : CloakSt
  count : Nat
  deriving DecidableEq, Repr

/-- A record of the offload ledger's owner, or of a decapsulation asked for (R54). -/
structure Decap where
  enc : Bytes
  kem : Bytes
  dst : Nat
  deriving DecidableEq, Repr

structure Cloak where
  state : CloakSt := .free
  hybrid : Bool := false
  stoppedBy : Option Principal := none
  loadsOk : Nat := 0
  loadUncorr : Bool := false
  measurement : BitVec 384 := 0
  entry : U64 := 0                             -- the image entry point
  rseq : U32 := 0                              -- R369: raised by ROTATE_KEY
  root : Option (BitVec 256) := none
  memKey : Option (BitVec 512) := none
  macKey : Option (BitVec 256) := none
  offKey : Option (BitVec 256) := none
  grpKey : Option (BitVec 256) := none
  group : Option U16 := none                   -- the Cloak group (R51)
  reqKey : Option (BitVec 256) := none
  kemKey : Option (BitVec 512) := none         -- the 64-byte seed of the ML-KEM-768 key pair
  report : Bytes := []                         -- the attestation report
  run : Option CloakRun := none
  decaps : List Decap := []
  selfDestroy : Bool := false                  -- a destroy sequence that the device started (R46, R47)
  inHand : List Nat := []                      -- granules whose change a device-started destroy interrupted; its step 5 returns them
  deriving DecidableEq, Repr

/-- Telemetry coarsening (R55): the tick at which it became active, the tick at which the last Cloak ID became FREE, and
the interval under way of each length. -/
structure Coarse where
  active : Bool := false
  since : Nat := 0
  freeAt : Option Nat := none
  sec : Nat := 0                               -- the tick at which the 1 s interval under way began
  tenth : Nat := 0                             -- the tick at which the 100 ms interval under way began
  sums : Kv (Int × Nat) := []                  -- readings of the interval under way: their sum and number, by pair
  peaks : Kv Nat := []                         -- the highest level of the interval under way, by pair
  shown : Kv Int := []                         -- the figures that H, M and C read meanwhile, by pair
  deriving DecidableEq, Repr

structure Cloaks where
  table : List Cloak := []                     -- entry k is the Cloak of ID k
  queue : List QCmd := []
  completions : List Completion := []
  decapNext : Nat := 1                         -- the Cloak whose turn it is at the decapsulation engine
  granules : Kv (BitVec 16) := []              -- ownership entries (Table 2.2); an unlisted one is OPEN
  coarse : Coarse := {}
  deriving DecidableEq, Repr

/-! ### Memory (10 R238 to R259) -/

/-- A stack: its throttle level, and the level whose cap holds in the window under way (R253, R254); its reading stands in
object 0x1902. -/
structure Stack where
  level : Nat := 0
  cap : Nat := 0                               -- the level whose cap holds in the 1 µs window under way (R254)
  deriving DecidableEq, Repr

structure Memory where
  bytes : Mem := []                            -- Lining and HBM by local address
  bad : List (Nat × LineErr) := []             -- lines in error, by line number
  hbm : List Stack := []
  lineCaps : List Nat := []                    -- of each die's Lining: the junction level whose cap holds in it (R424)
  started : List Nat := []                     -- bytes that each capped home has started in the window under way (R254)
  portsClosed : Bool := false                  -- R259
  writeFails : List Nat := []                  -- lines whose next write transfer or command fails for good (R247, R258)
  gone : List (Nat × BitVec 512 × BitVec 256) := []  -- of a Cloak being destroyed: the keys under which its lines still stand, in no slot (R46)
  sysMem : BitVec 512 := 0                     -- system memory and MAC keys (R249)
  sysMac : BitVec 256 := 0
  deriving DecidableEq, Repr

/-! ### Coherence (12 R285 to R299) -/

/-- The messages of Table 12.3. -/
inductive MsgKind where
  | rds | rdx | upg | rdnc | wrnc | atom
  | snps | snpx | snpcur | snpinv | inv
  | data | datax | cmp | invack | snprsp | wb | wback | atomrsp | err
  deriving DecidableEq, Repr

/-- The answers that SNPRSP carries. -/
inductive SnpRsp where
  | miss | clean | dirty | wbpend
  deriving DecidableEq, Repr

/-- A message under way: its line (a global line number), the node it comes from, the node it goes to (195 is the home), the node
that a snoop serves, and what it carries. -/
structure Msg where
  kind : MsgKind
  line : Nat
  src : Nat
  dst : Nat
  req : Nat := 0
  data : Bytes := []
  mask : List Bool := []
  excl : Bool := false                         -- DATA grants E; DATAX has a CMP to follow
  rsp : SnpRsp := .miss
  op : Option AtomOp := none
  a : Nat := 0
  b : Nat := 0
  off : Nat := 0
  size : Nat := 0
  unit_ : Nat := 0                             -- 0 C-core, 1 LVU and groups, 2 Glide (R288)
  tag : U16 := 0                               -- of a request of the host (R345)
  refused : Bool := false                      -- ERR for a refusal of R40
  deriving DecidableEq, Repr

/-- The snoop filter's record of a line (R285): the owner, and the sharers by node. -/
structure Filter where
  owner : Option Nat := none
  sharers : BitVec 193 := 0
  deriving DecidableEq, Repr

/-- A transaction in hand at a home agent (R289). -/
structure Txn where
  msg : Msg
  acks : List Nat := []                        -- nodes whose INVACK, or whose answer to a recall, is still due
  snoop : Bool := false                        -- a snoop response still due
  wbpend : Bool := false                       -- WBPEND has come: the WB is awaited (R290)
  inner : Bool := false                        -- for an access that waits at its unit, or a recall: nothing is sent at its end (R285, R291, R292)
  deriving DecidableEq, Repr

structure Coherence where
  filter : List (Nat × Filter) := []           -- by line, the most recently used first
  hand : List (Nat × Txn) := []                -- the transaction in hand of a line
  wait : List Msg := []                        -- requests past the ordering point, in its order
  net : List Msg := []                         -- messages under way
  prio : Kv Nat := []                          -- the priority pointer of each home agent (R288)
  tracker : List (Nat × BitVec 192) := []      -- host lines held by L2s, the most recently used first (R299)
  lent : List (Nat × Nat × Bytes) := []        -- by line and node: data that an owner has supplied for a read that waits at its unit (R292)
  fetched : List (Nat × Option Nat) := []      -- entries of tables in host memory that a walk has read (none: the read failed), by address (R273)
  deriving DecidableEq, Repr

/-! ### Translation (11 R272, R278, R279) -/

structure CollarEntry where
  dom : BitVec 7
  set : Nat
  e : XEntry
  deriving DecidableEq, Repr

structure Collars where
  die0 : List CollarEntry := []
  die1 : List CollarEntry := []
  shooting : Bool := false                     -- the device works on shoot-down records
  deriving DecidableEq, Repr

/-! ### Energy governor (19 R411 to R431) -/

structure Governor where
  tick : Nat := 0                              -- ticks since cold reset
  uptime : Nat := 0                            -- ticks since VDD_AON came up (the always-on timer, R406)
  half : Bool := false                         -- past the midpoint of the tick
  budget : Nat := 0                            -- B of the tick under way, after trims
  trim : Nat := 0                              -- steps of 5 %
  auditCap : Bool := false                     -- R431
  assignable : Nat := 0                        -- A
  shared : Nat := 0                            -- the shared pool, in charge units
  openPool : Nat := 0
  cloakPools : List Nat := []
  shares : List Nat := []                      -- the shares in effect
  spent : Nat := 0                             -- charge units spent and lapsed in the tick under way
  lapsed : Nat := 0
  stepMHz : Nat := 0                           -- the C-core step in effect
  junction : List Int := []                    -- the highest reading of each die
  level : List Nat := []                       -- junction level of each die
  markBusy : Bool := false                     -- a time mark in progress (R415)
  markSeen : List MarkIsland := []             -- the islands that have recorded it
  deriving DecidableEq, Repr

end Sys2Proof.Machine
end

