-- ==== Sys2Proof/Machine/StLink.lean ====
section
/-!
DEFINITION. Machine/StLink.lean: the state of the links: fabric ports, remote transactions and in-router reduction (14),
the Hedom link, work rings, vectors and the offload ledger (15).
-/
namespace Sys2Proof.Machine
open Sys2Proof

/-- The states of Table 14.2, with its codes. -/
inductive PortSt where
  | disabled | down | training | attesting | up | retraining | failed
  deriving DecidableEq, Repr

def PortSt.code : PortSt → Nat
  | .disabled => 0
  | .down => 1
  | .training => 2
  | .attesting => 3
  | .up => 4
  | .retraining => 5
  | .failed => 6

/-- A flit in an input buffer (R319): the port (32 for Hedom), the time that the port has been up for, and the credit that it was sent
with: a channel and class (2 vc + class), or 14 for the shared pool. -/
structure Hold where
  port : Nat
  era : Nat
  kind : Nat
  deriving DecidableEq, Repr

/-- A packet (Tables 14.4 and 15.4): destination and source package, opcode, length, tag, group, hops, address or status,
data, and the sealing extension where it has one. -/
structure Packet where
  dpid : Nat := 0
  spid : Nat := 0
  opc : Nat := 0
  sealed : Bool := false
  len : Nat := 0
  tag : U16 := 0
  group : U16 := 0
  hops : Nat := 0
  addr : Nat := 0
  data : Bytes := []
  sealer : Byte := 0
  sealCnt : Nat := 0
  gcm : BitVec 128 := 0
  status : Nat := 0                    -- of a response on Hedom (Table 15.4)
  opened : Bool := false               -- a response that the router has opened, part of which is still to be delivered
  held : List Hold := []               -- the flits of this package's input buffers that leave them with this packet (R319, R320)
  bulk : Bool := false                 -- it travels on a BULK half (R317)
  cls : Bool := false                  -- its dateline class (R322)
  deriving DecidableEq, Repr

/-- A flit in a replay buffer, until the peer has acknowledged it (R315). -/
structure Sent where
  seq : Nat
  vc : Nat
  cls : Bool
  fpo : Nat
  body : Bytes
  kind : Nat                           -- the credit that it took: 2 vc + class, 14 of the shared pool, 15 none
  deriving DecidableEq, Repr

/-- The bytes of an unfinished packet of one channel and class (R314), and the input buffer's flits that they stand in. -/
structure Partial where
  vc : Nat
  cls : Bool
  bytes : Bytes
  held : List Hold := []
  deriving DecidableEq, Repr

/-- Link keys of one direction (R336, R313): key, salt and flit counter. -/
structure LinkKey where
  key : BitVec 256
  salt : U32
  cnt : U64
  deriving DecidableEq, Repr

/-- The link layer of a fabric port or of the Hedom link (R309 to R320, R342 to R344). -/
structure Port where
  st : PortSt := .down
  lanes : Nat := 0                     -- the code of object 0x1C01 or 0x1E00.01
  seq : Nat := 0                       -- the next sequence number to be sent
  ack : Nat := 0                       -- the last one received in order and verified
  asking : Bool := false               -- flits are discarded until a replay arrives (R313)
  rtry : Bool := false                 -- the replay has still to be asked for (R315)
  news : Bool := false                 -- ACK has moved since the last flit sent
  replay : List Sent := []
  replays : Nat := 0                   -- replays in a row without ACK advancing
  credits : List Nat := []             -- dedicated credits held, by channel and class: index 2 vc + class
  pool : Nat := 0
  buf : List Nat := []                 -- flits in this end's input buffer, by credit: index 2 vc + class, 14 the shared pool (R319)
  back : List Nat := []                -- credits on their way back to the peer, by the same index (R320)
  era : Nat := 0                       -- the number of times that the link has left its states for DOWN or FAILED
  slot : Nat := 0                      -- flit slots since MGT's last one (R321)
  waited : List Nat := []              -- flit slots since each channel and class was last served
  kph : BitVec 2 := 0
  rxKph : BitVec 2 := 0
  tx : Option LinkKey := none
  rx : Option LinkKey := none
  step : Nat := 0                      -- step of R336 that has been completed
  myRandom : BitVec 256 := 0
  peerRandom : BitVec 256 := 0
  myEph : BitVec 256 := 0
  reportSent : Bytes := []
  peerReport : Bytes := []
  peerKey : Bytes := []                -- the attestation key of the peer's chain
  peerPort : Nat := 0
  parts : List Partial := []
  out : List Packet := []              -- packets that wait for credits
  tails : List Partial := []           -- what is left to send of packets that have begun
  freed : List Hold := []              -- flits of input buffers whose packets have begun to leave here
  wire : List Flit := []               -- the flits put on the link, oldest first
  resume : Bool := false               -- it trains with its SEQ, ACK, replay buffer and credits kept (R342)
  asked : Bool := false                -- this end has asked for a rekey (R337)
  keyAt : Nat := 0                     -- the always-on tick of the last rekey
  sinceKey : Nat := 0                  -- flits since the last rekey
  rekeying : Option (LinkKey × LinkKey) := none
  deriving DecidableEq, Repr

/-- Whose access a remote or host transaction is. -/
inductive TxUser where
  | core (t : Nat) (d : Dest)
  | lvu (t : Nat)
  | group (t slot : Nat)
  | glide (t : Nat) (r : GReq)
  | vector (v : Nat)                   -- an event write (R353)
  | cache (t line : Nat)               -- a host line for an L2 (R299)
  | gone (t tag : Nat)                 -- of an access whose group or tile state has ended: the answer reaches nothing (R201)
  | device                             -- the device's own accesses (R279)
  | mailbox                            -- a buffer of the dictionary mailbox (R396)
  | walk (a : Nat)                     -- an entry of a table in host memory, at a local address (R273, R279)
  deriving DecidableEq, Repr

/-- A transaction to another package (R326) or to the host (R350) that awaits its answer. -/
structure RTxn where
  tag : U16
  user : TxUser
  opc : Nat
  addr : Nat
  len : Nat
  data : Bytes := []
  pkg : Nat := 0
  group : U16 := 0                     -- the group that the request carried
  deriving DecidableEq, Repr

/-- A write, or the part of one in a chunk, that a reduction holds until its chunk's result has reached this member (R331, R333). -/
structure RedWrite where
  entry : Nat
  chunk : Nat
  off : Nat                            -- where in the chunk its bytes start
  data : Bytes
  taken : Bool                         -- its contribution has been taken; it waits for the result
  tag : U16                            -- of the transaction that waits for it
  deriving DecidableEq, Repr

/-- A chunk in the reduction store: its accumulator values and the members that have contributed. -/
structure RedChunk where
  entry : Nat
  chunk : Nat
  acc : List Nat
  from_ : List Nat
  forwarded : Bool := false
  deriving DecidableEq, Repr

/-- The fabric's state beside the dictionary objects of R340. -/
structure Fabric where
  ports : List Port := []
  inbox : List Packet := []            -- packets that have arrived for this package, in order
  transit : List Packet := []          -- requests from other packages to others that wait for tokens (R421)
  txns : List RTxn := []
  nextTag : U16 := 0
  chunks : List RedChunk := []
  writes : List RedWrite := []
  low : List Nat := []                 -- for each entry, the lowest chunk whose result has not reached this member
  done : List (Nat × Nat) := []        -- results that have arrived above that chunk, and below it those of the next round
  sealCnt : List Nat := []             -- the router's counter for each Cloak's group key (R318)
  glideCnt : Kv Nat := []              -- Glide's counters, by tile
  deriving DecidableEq, Repr

/-! ### Hedom (15) -/

/-- A work ring (R351): RCFG, HIDX and DIDX. -/
structure Ring where
  rcfg : U64 := 0
  hidx : U32 := 0
  didx : U32 := 0
  deriving DecidableEq, Repr

/-- A vector (R353). -/
structure Vec where
  vaddr : U64 := 0
  data : U32 := 0
  mask : Bool := true
  pend : Bool := false
  deriving DecidableEq, Repr

/-- An entry of the refusal log (Table 15.6). -/
structure Refused where
  addr : BitVec 44
  time : BitVec 40
  owner : BitVec 7
  state : BitVec 2
  opc : BitVec 6
  kind : BitVec 2
  unit_ : BitVec 4
  deriving DecidableEq, Repr

/-- The states of a ledger entry (Table 15.9). -/
inductive LedgerSt where
  | free | empty | sealing | sealed
  deriving DecidableEq, Repr

structure LedgerEntry where
  version : U32 := 0
  ntiles : U32 := 0
  st : LedgerSt := .free
  owner : Byte := 0
  deriving DecidableEq, Repr

structure Hedom where
  link : Port := {}
  inbox : List Packet := []
  txns : List RTxn := []
  nextTag : U16 := 0
  rings : List Ring := []
  dbpend : List U64 := []              -- index 4 t + w
  vectors : List Vec := []
  waiting : List Nat := []             -- vectors that wait until earlier writes have received CMP (R353)
  refusals : List Refused := []        -- newest first, at most 64
  heldRefusals : List Refused := []    -- held until the end of the interval (R349)
  ledger : Kv LedgerEntry := []
  deriving DecidableEq, Repr

end Sys2Proof.Machine
end

