-- ==== Sys2Proof/Machine/PortOps.lean ====
section
/-!
DEFINITION. Machine/PortOps.lean: packets as bytes, and what a link's sender does with its credits, its replay buffer and its
counters (14 R312 to R322; 15 R343 to R345): flits filled slot by slot, sealed and numbered, replayed, and their credits returned.
-/
namespace Sys2Proof.Machine
open Sys2Proof

/-- One byte of a reflected CRC-32C, on the register before the final XOR (Table 9.10). -/
def crc32cByte (c b : Nat) : Nat := (List.range 8).foldl (fun c _ => if c % 2 = 1 then (c / 2) ^^^ 0x82F63B78 else c / 2) (c ^^^ b)

/-- One byte of CRC-64/ECMA-182. -/
def crc64Byte (c b : Nat) : Nat :=
  (List.range 8).foldl (fun c _ => if c.testBit 63 then ((2 * c) % 2 ^ 64) ^^^ 0x42F0E1EBA9EA3693 else (2 * c) % 2 ^ 64) (c ^^^ (b * 2 ^ 56))

def crc32c (b : Bytes) : Nat := (b.foldl (fun c x => crc32cByte c x.toNat) 0xFFFFFFFF) ^^^ 0xFFFFFFFF

/-- What differs between a fabric port and the Hedom link (Tables 14.3, 14.6, 15.2, 15.3). -/
structure LinkKind where
  fabric : Bool
  body : Nat                           -- bytes of a flit's body
  seqMod : Nat
  replayMax : Nat
  mgt : Nat                            -- dedicated flits of MGT
  pool : Nat
  deriving DecidableEq, Repr

def fabricLink : LinkKind := ⟨true, 236, 65536, 2048, 16, 1712⟩
def hedomLink : LinkKind := ⟨false, 244, 4096, 1024, 8, 856⟩

/-- The big-endian bytes of a number. -/
def natBeBytes (n v : Nat) : Bytes := Crypto.be n v

/-- The header of a packet (Tables 14.4, 15.4), with the hops given. -/
def Packet.header (k : LinkKind) (p : Packet) (hops : Nat) : Bytes :=
  natLe 16 (if k.fabric then
      p.dpid * 2 ^ 116 + p.spid * 2 ^ 104 + p.opc * 2 ^ 98 + flag p.sealed * 2 ^ 97 + p.len * 2 ^ 84 + p.tag.toNat * 2 ^ 68
        + p.group.toNat * 2 ^ 52 + hops * 2 ^ 47 + p.addr % 2 ^ 44
    else p.opc * 2 ^ 122 + p.len * 2 ^ 109 + p.tag.toNat * 2 ^ 93 + p.status * 2 ^ 85 + p.addr % 2 ^ 52)

/-- The extension of a sealed packet (R318). -/
def Packet.ext (p : Packet) : Bytes := p.sealer :: natBeBytes 7 p.sealCnt

/-- The bytes of a packet, a multiple of four (R314). -/
def Packet.bytes (k : LinkKind) (p : Packet) : Bytes :=
  let b := p.header k p.hops ++ (if p.sealed then p.ext else []) ++ p.data ++ (if p.sealed then natBeBytes 16 p.gcm.toNat else [])
  b ++ List.replicate ((4 - b.length % 4) % 4) 0

/-- The channel of a packet (Tables 14.5, 15.5): 0 REQ, 1 FWD, 2 RSP, 3 BULK-Q, 4 BULK-P, 5 MGT. -/
def Packet.vc (k : LinkKind) (p : Packet) : Nat :=
  if 0x20 ≤ p.opc then 5
  else if 0x10 ≤ p.opc then (if p.bulk then 4 else 2)
  else if k.fabric then (if p.opc = 4 ∨ p.opc = 5 then 1 else if p.bulk then 3 else 0)
  else if 8 ≤ p.opc then 1 else if p.bulk then 3 else 0

/-- The channels, each with its two classes, in order of drain rank (Tables 14.6, 15.3). -/
def drainOrder : List (Nat × Bool) := [2, 1, 0, 4, 3].flatMap (fun v => [(v, false), (v, true)])

def creditIdx (vc : Nat) (cls : Bool) : Nat := 2 * vc + flag cls

/-- The credits of a link that reaches UP anew (R320; Tables 14.6, 15.3): dedicated flits by channel and class; Hedom has no classes. -/
def fullCredits (k : LinkKind) : List Nat :=
  (if k.fabric then List.replicate 10 32 else [32, 0, 32, 0, 32, 0, 32, 0, 32, 0]) ++ [k.mgt, 0, 0, 0]

/-- The size of a division of an input buffer (R319). -/
def LinkKind.room (k : LinkKind) (i : Nat) : Nat := if i = 14 then k.pool else tabGet 0 (fullCredits k) i

/-- A link that reaches UP anew (R320): its counts are full, its buffers empty, and its sequence starts. -/
def Port.goUp (k : LinkKind) (x : Port) : Port :=
  { x with
    st := .up, credits := fullCredits k, pool := k.pool, buf := [], back := [], seq := 0, ack := k.seqMod - 1, asking := false
    rtry := false, news := false, replay := [], replays := 0, parts := [], tails := [] }

/-- A credit for a flit of a channel and class (R320): the shared pool's where one is held, else a dedicated one; MGT has dedicated
ones alone (Table 14.6). While a port attests no credit is counted. -/
def Port.takeCredit (x : Port) (i : Nat) : Option (Nat × Port) :=
  if x.st = .attesting then some (15, x)
  else if i < 10 ∧ 0 < x.pool then some (14, { x with pool := x.pool - 1 })
  else if 0 < tabGet 0 x.credits i then some (i, { x with credits := tabSet 0 x.credits i (tabGet 0 x.credits i - 1) })
  else none

/-- The room that an arriving flit takes in the input buffer: that of the credit which its sender took, by the counts that this end has
returned (R320, assumption 93); none where there is none. -/
def Port.roomFor (k : LinkKind) (x : Port) (i : Nat) : Option Nat :=
  let used := fun (j : Nat) => tabGet 0 x.buf j + tabGet 0 x.back j
  if i < 10 ∧ used 14 < k.pool then some 14
  else if used i < k.room i then some i
  else none

/-- Flits leave the input buffer, and their credits go back. -/
def Port.giveBack (x : Port) (l : List Nat) : Port :=
  l.foldl (fun (x : Port) i =>
    if tabGet 0 x.buf i = 0 then x
    else { x with buf := tabSet 0 x.buf i (tabGet 0 x.buf i - 1), back := tabSet 0 x.back i (tabGet 0 x.back i + 1) }) x

def LinkKey.advance (k : LinkKey) (n : Nat) : LinkKey := { k with cnt := k.cnt + BitVec.ofNat 64 n }

/-! ### Flits on the link (R312, R313, R343) -/

/-- The header of a flit as bytes (Tables 14.3, 15.2). -/
def Flit.header (k : LinkKind) (f : Flit) : Bytes :=
  if k.fabric then
    natLe 12 (f.seq.toNat * 2 ^ 80 + f.ack.toNat * 2 ^ 64 + f.vc.val * 2 ^ 61 + flag f.cls * 2 ^ 60 + f.fpo.val * 2 ^ 54 + f.kph.toNat * 2 ^ 52
      + flag f.rtry * 2 ^ 51 + f.cvc.val * 2 ^ 48 + flag f.ccls * 2 ^ 47 + f.ccnt.toNat * 2 ^ 36 + f.scnt.toNat * 2 ^ 25)
  else
    natLe 8 (f.seq.toNat % 4096 * 2 ^ 52 + f.ack.toNat % 4096 * 2 ^ 40 + f.vc.val * 2 ^ 37 + f.fpo.val * 2 ^ 31 + flag f.rtry * 2 ^ 30
      + f.cvc.val * 2 ^ 27 + f.ccnt.toNat * 2 ^ 16 + f.scnt.toNat * 2 ^ 5)

def crc64 (b : Bytes) : Nat := b.foldl (fun c x => crc64Byte c x.toNat) 0

/-- The nonce of a flit: the direction's salt, then its counter. -/
def LinkKey.nonce (k : LinkKey) : Nat := k.salt.toNat * 2 ^ 64 + k.cnt.toNat

/-- A flit as it stands on the link: on Hedom in clear with its CRC-32C, on a fabric port in clear with a CRC-64 while it attests, and then
sealed under the key of the sending direction. -/
def Port.cover (k : LinkKind) (x : Port) (f : Flit) : Flit :=
  let h := Flit.header k f
  if !k.fabric then { f with tag := BitVec.ofNat 64 (crc32c (h ++ f.body)) }
  else if x.st = .attesting then { f with tag := BitVec.ofNat 64 (crc64 (h ++ f.body)) }
  else match x.tx with
    | none => f
    | some key =>
      { f with body := Crypto.gcmSeal key.key.toNat key.nonce h f.body
               tag := BitVec.ofNat 64 ((Crypto.gcmTag key.key.toNat key.nonce h f.body).toNat / 2 ^ 64) }

/-- The channel and class whose dedicated credits the next flit returns: the first that has any. -/
def Port.backIdx (x : Port) : Nat := match (List.range 14).find? (fun i => decide (0 < tabGet 0 x.back i)) with | some i => i | none => 0

/-- A flit put on the link, with ACK, RTRY, the key phase and the credits that go back (R312). -/
def Port.putFlit (k : LinkKind) (x : Port) (seq vc : Nat) (cls : Bool) (fpo : Nat) (body : Bytes) : Port :=
  let i := x.backIdx
  let n := Nat.min 2047 (tabGet 0 x.back i)
  let m := Nat.min 2047 (tabGet 0 x.back 14)
  let f : Flit := {
    seq := BitVec.ofNat 16 seq, ack := BitVec.ofNat 16 x.ack, vc := Fin.ofNat 8 vc, cls := cls, fpo := Fin.ofNat 64 fpo
    kph := if x.st = .up then x.kph else 0, rtry := x.rtry, cvc := Fin.ofNat 8 (i / 2), ccls := decide (i % 2 = 1)
    ccnt := BitVec.ofNat 11 n, scnt := BitVec.ofNat 11 m, body := body, tag := 0, syms := 0, words := 0, bad := false }
  let b := tabSet 0 x.back i (tabGet 0 x.back i - n)
  let back := tabSet 0 b 14 (tabGet 0 b 14 - m)
  { x with wire := x.wire ++ [x.cover k f], rtry := false, news := false, back := back }

/-- A sequenced flit put on the link, as a new transmission with the next counter value (R313). -/
def Port.transmit (k : LinkKind) (x : Port) (f : Sent) : Port :=
  let y := x.putFlit k f.seq f.vc f.cls f.fpo f.body
  { y with tx := y.tx.map (fun t => t.advance 1), sinceKey := y.sinceKey + 1 }

/-- A new flit: it takes the next sequence number and stands in the replay buffer (R315). -/
def Port.emit (k : LinkKind) (x : Port) (vc : Nat) (cls : Bool) (fpo kind : Nat) (body : Bytes) : Port :=
  let f : Sent := ⟨x.seq, vc, cls, fpo, body, kind⟩
  { x with seq := (x.seq + 1) % k.seqMod, replay := x.replay ++ [f] }.transmit k f

/-- IDLE flits for what no other flit has told the peer: ACK, RTRY and credits (R312). They take no sequence number; one that would tell
nothing is not modelled (assumption 76). -/
def Port.idle (k : LinkKind) : Nat → Port → Port
  | 0, x => x
  | n + 1, x =>
    if x.st = .up ∧ (x.rtry || x.news || x.back.any (fun c => decide (0 < c))) then
      Port.idle k n (x.putFlit k 0 6 false 63 (List.replicate k.body 0))
    else x

/-! ### Packets into bodies (R314) -/

/-- Waiting packets laid back to back in `n` bytes, zeros after the last: the bytes, the packets that begin in them, and what is left of
the last one. -/
def fillBody (k : LinkKind) : List Packet → Nat → Bytes × List Packet × Bytes
  | [], n => (List.replicate n 0, [], [])
  | p :: ps, n =>
    let b := p.bytes k
    if n = 0 then ([], [], [])
    else if n ≤ b.length then (b.take n, [p], b.drop n)
    else
      let r := fillBody k ps (n - b.length)
      (b ++ r.1, p :: r.2.1, r.2.2)

/-- What is left to send of the packet of a channel and class that has begun. -/
def Port.tailOf (x : Port) (vc : Nat) (cls : Bool) : Bytes :=
  match x.tails.find? (fun p => decide (p.vc = vc) && p.cls == cls) with
  | some p => p.bytes
  | none => []

/-- The packets that wait on a channel and class, oldest first. -/
def Port.queueOf (k : LinkKind) (x : Port) (v : Nat × Bool) : List Packet := x.out.filter (fun p => decide (p.vc k = v.1) && p.cls == v.2)

/-- The next flit of a channel and class, where it has something to send, a credit and room in the replay buffer. A packet that begins
leaves the input buffer that it waited in. -/
def Port.sendFlit (k : LinkKind) (x : Port) (v : Nat × Bool) : Option Port :=
  let t := x.tailOf v.1 v.2
  let q := x.queueOf k v
  if (t.isEmpty && q.isEmpty) || decide (k.replayMax ≤ x.replay.length) then none
  else match x.takeCredit (creditIdx v.1 v.2) with
    | none => none
    | some (kind, y) =>
      let r := if k.body ≤ t.length then (t.take k.body, [], t.drop k.body)
        else let r := fillBody k q (k.body - t.length)
          (t ++ r.1, r.2.1, r.2.2)
      let fpo := if r.2.1.isEmpty then 63 else t.length / 4
      let rest := y.tails.filter (fun p => !(decide (p.vc = v.1) && p.cls == v.2))
      some ({ y with
        out := r.2.1.foldl (fun (l : List Packet) p => l.erase p) y.out
        tails := if r.2.2.isEmpty then rest else rest ++ [({ vc := v.1, cls := v.2, bytes := r.2.2 } : Partial)]
        freed := y.freed ++ r.2.1.flatMap (fun (p : Packet) => p.held) }.emit k v.1 v.2 fpo kind r.1)

/-- A channel put among others by its wait, the longest first. -/
def putByWait (w : Nat × Bool → Nat) (v : Nat × Bool) : List (Nat × Bool) → List (Nat × Bool)
  | [] => [v]
  | u :: us => if w u < w v then v :: u :: us else u :: putByWait w v us

/-- The order in which the channels are tried for a slot (R321): MGT in its own slot, one of every 256; then those that have not been
served in the last 32 slots, the longest wait first; then all by drain rank; MGT last, since its slot comes once no other flit is
ready. -/
def Port.slotOrder (x : Port) : List (Nat × Bool) :=
  let w := fun (v : Nat × Bool) => tabGet 0 x.waited (creditIdx v.1 v.2)
  let starved := (drainOrder.filter (fun v => decide (32 ≤ w v))).foldl (fun l v => putByWait w v l) []
  (if x.slot % 256 = 255 then [(5, false)] else []) ++ starved ++ drainOrder ++ [(5, false)]

/-- A slot has passed in which a channel was served. -/
def Port.served (x : Port) (v : Nat × Bool) : Port :=
  { x with
    slot := if v.1 = 5 then 0 else (x.slot + 1) % 256
    waited := (List.range 10).map (fun i => if i = creditIdx v.1 v.2 then 0 else tabGet 0 x.waited i + 1) }

/-- The first of some channels that can send sends a flit. -/
def Port.sendFirst (k : LinkKind) (x : Port) : List (Nat × Bool) → Option Port
  | [] => none
  | v :: vs => match x.sendFlit k v with
    | some y => some (y.served v)
    | none => x.sendFirst k vs

/-- Slot by slot, everything that credits allow is sent. A port that attests carries MGT alone (Table 14.2). -/
def Port.pumpGo (k : LinkKind) : Nat → Port → Port
  | 0, x => x
  | n + 1, x => match x.sendFirst k (if x.st = .up then x.slotOrder else [(5, false)]) with
    | some y => Port.pumpGo k n y
    | none => x

/-- The flits that what waits can fill, at most. -/
def Port.waiting (k : LinkKind) (x : Port) : Nat :=
  sumNat (x.out.map (fun p => (p.bytes k).length / k.body + 1)) + sumNat (x.tails.map (fun t => t.bytes.length / k.body + 1))

def Port.pump (k : LinkKind) (x : Port) : Port :=
  if x.st = .up ∨ x.st = .attesting then Port.idle k 16 (Port.pumpGo k (x.waiting k) x) else x

/-- The number of flits that a port has put on its link between two states of it. -/
def Port.sentSince (x y : Port) : Nat := y.wire.length - x.wire.length

/-- Replay from ACK + 1: every flit of the replay buffer is sent again, in order (R315). -/
def Port.resend (k : LinkKind) (x : Port) : Port := x.replay.foldl (fun (y : Port) f => y.transmit k f) x

/-- Sequence number `a` is covered by acknowledgement `b`. -/
def seqCovered (m a b : Nat) : Bool := decide ((b + m - a) % m < m / 2)

/-- The sums of R320 hold in both directions, by this end's counts and those that the peer sends: credits held, flits on the link or in the
buffer, and credits going back make each division's size. -/
def Port.countsHold (k : LinkKind) (x : Port) (c : LinkCounts) : Bool :=
  (List.range 15).all (fun i =>
    let mine := if i = 14 then x.pool else tabGet 0 x.credits i
    let flying := countIf (fun (f : Sent) => decide (f.kind = i) && !seqCovered k.seqMod f.seq c.ack.toNat) x.replay
    decide (mine + flying + tabGet 0 c.buffered i + tabGet 0 c.back i = k.room i)
      && decide (tabGet 0 c.credits i + tabGet 0 c.flying i + tabGet 0 x.buf i + tabGet 0 x.back i = k.room i))

end Sys2Proof.Machine
end

