-- ==== Sys2Proof/Machine/StMgmt.lean ====
section
/-!
DEFINITION. Machine/StMgmt.lean: the state of the management and Caerdy islands: identity and firmware (16), the
dictionary (17), the side-band port (18), start-up and error logs (20), package and pins (21).
-/
namespace Sys2Proof.Machine
open Sys2Proof

/-! ### Identity and firmware (16) -/

/-- What waits for the signing engine, in order of arrival (R369). -/
inductive SignJob where
  | report (cloak : Nat) (rdata : Bytes) (dst : Nat)
  | finalise (cloak : Nat)
  | rotate (cloak : Nat)
  | device
  | port (p : Nat)
  | challenge (slot : Nat)
  deriving DecidableEq, Repr

/-- The Cloak whose report a signature is for. -/
def SignJob.cloak? : SignJob → Option Nat
  | .report k _ _ => some k
  | .finalise k => some k
  | .rotate k => some k
  | _ => none

/-- A revocation or key slot of a fuse bank, and the boot flash (R362, R370 to R376). -/
structure Fuses where
  uds : BitVec 256 := 0
  keyHash : List (BitVec 256) := []
  revoked : BitVec 4 := 0
  cfwCounter : Nat := 0
  dfwCounter : Nat := 0
  fsHash : List (BitVec 256) := []
  fsRevoked : BitVec 2 := 0
  mac : BitVec 48 := 0
  rowRepair : Kv (Option (BitVec 5)) := []   -- the row that an array's spare row replaces (05 R138), by tile × 8 + array
  colRepair : Kv (Option (BitVec 5)) := []   -- the column that its spare column replaces
  deriving DecidableEq, Repr

structure Firmware where
  flash : Mem := []
  slot : Nat := 0                      -- object 0x1F01.05
  cfwSvn : Nat := 0
  dfwSvn : Nat := 0
  cfwMeas : BitVec 384 := 0
  dfwMeas : BitVec 384 := 0
  cfwKeyIdx : Nat := 0
  cfwRevoke : BitVec 4 := 0
  cdi2 : Option (BitVec 256) := none
  attKey : Option (BitVec 384) := none
  udsLocked : Bool := false
  fingerprint : BitVec 256 := 0
  chain : Bytes := []
  chainStatus : Nat := 0
  report : Bytes := []                 -- the newest device report
  reportDue : Bool := false            -- PKGID, DOMTAG or UNLOCK changed (R367)
  signing : List SignJob := []
  holder : Option Principal := none    -- the update engine's
  target : Nat := 1
  offset : Nat := 0
  status : Nat := 0                    -- Table 16.9
  checking : Bool := false             -- a FINISH is under way
  commit : Bool := false
  commitFail : Nat := 0
  deriving DecidableEq, Repr

structure Unlock where
  nonce : Option (BitVec 256) := none  -- the current challenge; none once spent
  flag : Bool := false                 -- object 0x1200.04
  busy : Bool := false                 -- an unlock is being carried out
  pending : BitVec 2 := 0
  scope : BitVec 2 := 0
  result : Nat := 0
  tokenKey : Bytes := []
  deriving DecidableEq, Repr

/-! ### Dictionary (17) -/

structure MSlot where
  seq : Byte := 0
  len : U16 := 0
  status : Byte := 0
  busy : Option U64 := none            -- the DCMD in progress
  lost : Bool := false
  by_ : Nat := 0                       -- the tile that wrote DCMD
  dbuf : U64 := 0
  data : Bytes := []
  seen : Nat := 0                      -- operations of other sources served since this one became ready (R427), at most 8
  deriving DecidableEq, Repr

/-- How far an operation of the mailbox whose buffer lies in host memory has come (R396): its bytes are awaited, or are here; the
bytes delivered await CMP, or have it; or an access of the buffer failed. `b` are the bytes that a WRITE took. -/
inductive XStage where
  | fetch
  | fetched (b : Bytes)
  | put (st len : Nat) (b : Bytes)
  | done (st len : Nat) (b : Bytes)
  | failed
  deriving DecidableEq, Repr

/-- The operation in progress whose buffer lies in host memory, by slot. -/
structure Xfer where
  slot : Nat
  stage : XStage
  deriving DecidableEq, Repr

structure Dict where
  hold : Kv Bool := []                 -- by pair
  slots : List MSlot := []
  query : Kv Nat := []                 -- descriptor query of each source
  creds : List (Option (BitVec 256)) := []
  parity : Nat := 0                    -- object 0x0004.02
  lastC : Nat := 0                     -- the Cloak slot served last (R392)
  xfer : Option Xfer := none           -- a mailbox operation whose buffer lies in host memory (R396)
  deriving DecidableEq, Repr

/-! ### Side-band (18) -/

/-- A frame sent (Table 18.1). -/
structure SbFrame where
  slot : Nat
  type : Nat
  sid : U16
  cnt : U32
  body : Bytes
  tag : BitVec 128 := 0
  dst : BitVec 48 := 0
  deriving DecidableEq, Repr

structure Sub where
  pair : Nat
  periodic : Bool
  period : Nat
  last : Option Bytes
  age : Nat := 0                       -- samples since the last event
  deriving DecidableEq, Repr

inductive SessSt where
  | free | setup | opened
  deriving DecidableEq, Repr

structure Session where
  st : SessSt := .free
  kindF : Bool := false
  cred : Nat := 0
  sid : U16 := 0
  mac : BitVec 48 := 0
  hello : Bytes := []
  challenge : Bytes := []
  challenged : Bool := false           -- CHALLENGE has been sent
  eph : BitVec 256 := 0                -- the private half of Qd
  keyIn : BitVec 256 := 0
  keyOut : BitVec 256 := 0
  saltIn : U32 := 0
  saltOut : U32 := 0
  txCnt : U32 := 0
  lastCnt : U32 := 0
  stored : Option Bytes := none
  block : Bytes := []
  blockPair : Option Nat := none
  blockWrite : Bool := false
  subs : List Sub := []
  idle : Nat := 0                      -- the tick of the last REQUEST (R406), or of the CHALLENGE
  deriving DecidableEq, Repr

structure SideBand where
  sessions : List Session := []
  nextSid : U16 := 1
  sent : List SbFrame := []
  phy : BitVec 2 := 0
  deriving DecidableEq, Repr

/-! ### Start-up and errors (20) -/

/-- An error record (Table 20.7); `cloak` 0 is the open domain. -/
structure ErrRec where
  seq : U32 := 0
  time : U64 := 0
  cls : Byte := 0
  src : Byte := 0
  cloak : Byte := 0
  flags : Byte := 0
  tile : U16 := 0xFFFF
  kind : Byte := 5
  munit : Byte := 0xFF
  cause : Byte := 0
  detail : BitVec 24 := 0
  addr : U64 := 0
  deriving DecidableEq, Repr

structure ErrLog where
  recs : List ErrRec := []             -- newest first, at most 64
  seq : U32 := 0                       -- of the newest record
  lost : Nat := 0
  deriving DecidableEq, Repr

structure Logs where
  h : ErrLog := {}
  m : ErrLog := {}
  c : List ErrLog := []
  held : List ErrRec := []             -- Cloak records held for the H and M logs (R455)
  byClass : List Nat := []             -- object 0x2207
  uncorr : Nat := 0                    -- uncorrectable errors of the interval (R448)
  since : Nat := 0                     -- the tick at which the interval of bit [3] began
  deriving DecidableEq, Repr

/-- The states of R439. -/
inductive BootSt where
  | off | boot | power | selftest | ready | snowplough | tripped
  deriving DecidableEq, Repr

def BootSt.code : BootSt → Nat
  | .off => 0
  | .boot => 1
  | .power => 2
  | .selftest => 3
  | .ready => 4
  | .snowplough => 5
  | .tripped => 6

structure Boot where
  st : BootSt := .boot
  step : Nat := 1                      -- the step of Table 20.2 under way; 7 stands for steps 7 to 14
  record : U32 := 0                    -- object 0x2200.02
  starts : Nat := 0
  readyMs : Nat := 0
  degraded : Bool := false
  results : List Nat := []             -- object 0x2201
  fails : List U32 := []               -- object 0x2202, at most 32
  unstored : Nat := 0
  rails : Nat := 0                     -- main rails enabled, in the order of R436
  held : Bool := false                 -- RESET_N is low
  aonOk : Bool := true                 -- PWR_OK_AON
  mainOk : Bool := false               -- PWR_OK_MAIN
  railsWanted : Bool := true           -- object 0x2200.05
  alert : U16 := 0                     -- object 0x2200.06
  thermtrip : Bool := false            -- THERMTRIP_N asserted
  holdoff : Bool := false              -- within 10 s of the trip
  waitingReset : Bool := false         -- a cold reset waits for the hold-off's end
  railFault : Bool := false            -- the sequence runs again after 1 s
  railFailed : Bool := false           -- the sequence runs because of a rail failure
  readyAt : Option Nat := none         -- the tick at which READY was entered
  dead : Bool := false                 -- step 1 has failed: ALERT_N is held and nothing else runs (R441)
  routerOk : Bool := true              -- the router passed self-test (R329)
  deriving DecidableEq, Repr

/-! ### Package and pins (21) -/

structure Pins where
  pkgId : BitVec 12 := 0
  sbNode : BitVec 5 := 0
  sbEnrol : Bool := false
  refLost : BitVec 3 := 0              -- REF100, REF156, REF25
  setPending : List Nat := []          -- rails whose set point is to be sent
  debugOpen : Bool := false
  pmbFails : List Nat := []            -- acknowledgements missed in a row, by rail
  uart : List String := []             -- the lines sent
  vrails : List Nat := []              -- VOUT_COMMANDs sent, by rail, in mV
  deriving DecidableEq, Repr

end Sys2Proof.Machine
end

