-- ==== Sys2Proof/Machine/State.lean ====
section
/-!
DEFINITION. Machine/State.lean: the state of the block, its faults and refusals, and the state after reset. Every piece of
state that the spec names is here (INVENTORY.md lists them); the queue of waiting commands is `pending`.
-/
namespace Sys2Proof.Machine
open Sys2Proof

/-- Faults. No command of this block ends in one: an error is an effect on the state (an error record, a faulted stream, a
status, an event), as the spec describes it. -/
inductive Fault where
  deriving DecidableEq, Repr

/-- Refusals. -/
inductive Refusal where
  /-- Raised by an arm of `exec` for a command that has no meaning in the model. Safe: it stops. -/
  | notModelled (mnemonic : String)
  deriving DecidableEq, Repr

/-- What is fixed for the package, or for a start (00 R1 R2; 01 R31 R33; 05 R138 to R142). -/
structure Ident where
  sGrade : Bool := false               -- LAP96-S; LAP96-F otherwise
  fenced : BitVec 192 := 0             -- objects 0x1100
  sort : List Byte := []               -- object 0x1500: arrays enabled at sort, of each tile
  usable : List Byte := []             -- object 0x1501
  spares : List U16 := []              -- object 0x1502
  soft : List Byte := []               -- object 0x1503
  deriving DecidableEq, Repr

/-- Arrays of a tile enabled at sort (object 0x1500), and usable (object 0x1501: none of a fenced tile, R142). An unlisted tile
has all eight. -/
def Ident.atSort (i : Ident) (t : Nat) : Byte := tabGet 0xFF i.sort t
def Ident.usableOf (i : Ident) (t : Nat) : Byte := if i.fenced.getLsbD t then 0 else tabGet 0xFF i.usable t

/-- The number of set bits of a byte. -/
def popcount8 (b : Byte) : Nat := countIf (fun i => b.getLsbD i) (List.range 8)

/-- Arrays disabled at sort, of a tile. -/
def Ident.offAtSort (i : Ident) (t : Nat) : Nat := 8 - popcount8 (i.atSort t)

/-- The grade and the arrays disabled at sort agree (00 R1, 05 R141): a LAP96-F package has none disabled, a LAP96-S package at
most 192, and at most two in any one tile. -/
def Ident.gradeOk (i : Ident) : Bool :=
  let off := sumNat ((List.range 192).map i.offAtSort)
  if i.sGrade then decide (off ≤ 192) && (List.range 192).all (fun t => decide (i.offAtSort t ≤ 2)) else decide (off = 0)

structure State where
  ident : Ident := {}
  objs : Kv (Option Nat) := []         -- dictionary objects with a value of their own; an unlisted one has its Default
  tiles : List Tile := []
  cloaks : Cloaks := {}
  mem : Memory := {}
  coh : Coherence := {}
  collars : Collars := {}
  gov : Governor := {}
  fab : Fabric := {}
  hedom : Hedom := {}
  fuses : Fuses := {}
  fw : Firmware := {}
  unlock : Unlock := {}
  dict : Dict := {}
  sb : SideBand := {}
  logs : Logs := {}
  boot : Boot := {}
  pins : Pins := {}
  freeCtr : Nat := 0                   -- names the next free value (assumption 1)
  pending : List Instr := []
  deriving DecidableEq, Repr

/-- What a command answers. -/
abbrev Out := Host.Outcome State Fault Refusal

/-- The machine right after a power-on reset: step 1 of the power-up sequence (R433, R435). Assumptions 6 and 7 name the
values that the spec does not give. -/
def State.reset : State := { cloaks := { granules := [(425980, 0xC000), (425981, 0xC000), (425982, 0xC000), (425983, 0xC000)] } }

/-- A tile of the package. -/
def State.tile (s : State) (t : Nat) : Tile := tabGet {} s.tiles t

def State.setTile (s : State) (t : Nat) (x : Tile) : State := { s with tiles := tabSet {} s.tiles t x }

/-- A change of one tile. -/
def State.onTile (s : State) (t : Nat) (f : Tile → Tile) : State := s.setTile t (f (s.tile t))

/-- The Cloak of an ID. -/
def State.cloak (s : State) (k : Nat) : Cloak := tabGet {} s.cloaks.table k

def State.setCloak (s : State) (k : Nat) (x : Cloak) : State :=
  { s with cloaks := { s.cloaks with table := tabSet {} s.cloaks.table k x } }

def State.onCloak (s : State) (k : Nat) (f : Cloak → Cloak) : State := s.setCloak k (f (s.cloak k))

/-- A free value's name taken: the counter moves on. -/
def State.tick1 (s : State) : State := { s with freeCtr := s.freeCtr + 1 }

end Sys2Proof.Machine
end

