-- ==== Sys2Proof/Machine/Ops.lean ====
section
/-!
DEFINITION. Machine/Ops.lean: the operations that many commands share: dictionary values, ownership, events and vectors,
error records, energy charges, and the conditions under which a unit runs.
-/
namespace Sys2Proof.Machine
open Sys2Proof

/-! ### Dictionary values and counters -/

def pairOf (idx sub : Nat) : Nat := idx * 256 + sub

/-- The default of a numeric object (R382): zero where the Default column gives no number. -/
def catDefault (idx sub : Nat) : Nat := match catRow idx sub with | some r => r.dflt | none => 0

/-- The value of a numeric dictionary object that the state holds in `objs`. -/
def State.obj (s : State) (idx sub : Nat) : Nat :=
  match kvGet none s.objs (pairOf idx sub) with
  | some v => v
  | none => catDefault idx sub

def State.setObj (s : State) (idx sub v : Nat) : State := { s with objs := kvSet none s.objs (pairOf idx sub) (some v) }

/-- The greatest value of a counter's type: counts saturate (R389). -/
def catMax (idx sub : Nat) : Nat :=
  match catRow idx sub with
  | some r => match r.ty with
    | .oct _ => 0
    | .str _ => 0
    | ty => 2 ^ (8 * ty.size) - 1
  | none => 0

/-- `n` events added to a counter, which saturates. -/
def State.bump (s : State) (idx sub n : Nat) : State := s.setObj idx sub (Nat.min (s.obj idx sub + n) (catMax idx sub))

/-- A counter of a shared unit counts nothing while coarsening is active (R58). -/
def State.bumpShared (s : State) (idx sub n : Nat) : State := if s.cloaks.coarse.active then s else s.bump idx sub n

/-- The package's own ID (object 0x1C00.01). -/
def State.pkg (s : State) : Nat := s.obj 0x1C00 1

/-- The time of an event in always-on cycles (R14): 2,000 for each tick since cold reset, and within the tick a value that
the commands do not give. -/
def State.now (s : State) : Nat := 2000 * s.gov.tick + freePick s.freeCtr 1 0 2000

/-! ### Ownership (R37 to R40) -/

/-- The STATE and OWNER of an ownership entry (Table 2.2). -/
def entState (e : BitVec 16) : Nat := field e.toNat 15 14
def entOwner (e : BitVec 16) : Nat := field e.toNat 6 0
def entOpen : BitVec 16 := 0
def entAssigned (k : Nat) : BitVec 16 := BitVec.ofNat 16 (0x4000 + k % 128)
def entScrub : BitVec 16 := 0x8000
def entSystem : BitVec 16 := 0xC000

def State.granule (s : State) (g : Nat) : BitVec 16 := kvGet entOpen s.cloaks.granules g

def State.setGranule (s : State) (g : Nat) (e : BitVec 16) : State :=
  { s with cloaks := { s.cloaks with granules := kvSet entOpen s.cloaks.granules g e } }

/-- Whether an issuer with a domain tag reaches a granule (R40). Tag 127 is S. -/
def tagReaches (tag : Nat) (e : BitVec 16) : Bool :=
  if tag = 127 then true
  else if entState e = 0 then true
  else entState e = 1 && decide (tag ≠ 0) && decide (entOwner e = tag)

/-- The check of R40 on an address of this package's memory: an address outside it does not pass. -/
def State.reaches (s : State) (tag a : Nat) : Bool :=
  match granuleOf a with
  | some g => tagReaches tag (s.granule g)
  | none => false

/-- Every granule that `n` bytes from `a` touch passes. -/
def State.reachesAll (s : State) (tag a n : Nat) : Bool := s.reaches tag a && s.reaches tag (a + n - 1)

def State.tag (s : State) (t : Nat) : Nat := (s.tile t).owner.toNat

/-- The Cloak that an address concerns, 0 for none. -/
def State.cloakAt (s : State) (a : Nat) : Nat := match granuleOf a with | some g => entOwner (s.granule g) | none => 0

def State.fenced (s : State) (t : Nat) : Bool := s.ident.fenced.getLsbD t

/-- The tiles of a Cloak, in ascending order. -/
def State.tilesOf (s : State) (k : Nat) : List Nat := (List.range 192).filter (fun t => decide (s.tag t = k))

/-- The number of a Cloak ID that is not a Cloak state code: the states of Table 2.3. -/
def CloakSt.code : CloakSt → Nat
  | .free => 0
  | .building => 1
  | .ready => 2
  | .running => 3
  | .stopped => 4
  | .destroying => 5

/-- The IDs of the Cloaks that are not FREE. -/
def State.liveCloaks (s : State) : List Nat := (rangeFrom 1 64).filter (fun k => decide ((s.cloak k).state ≠ .free))

/-! ### When a unit runs -/

/-- The device is READY (R439). -/
def State.ready (s : State) : Bool := decide (s.boot.st = .ready)

/-- The islands of a tile run: the device is READY, the tile is not fenced (R31), and it is an open tile or a tile of a
RUNNING Cloak that no STOP has halted (R42, R45), or of one whose destroy sequence has still to halt it (R46 step 1). -/
def State.runs (s : State) (t : Nat) : Bool :=
  s.ready && !s.fenced t && !(s.tile t).halted
    && (decide (s.tag t = 0) || decide ((s.cloak (s.tag t)).state = .running)
      || (decide ((s.cloak (s.tag t)).state = .destroying) && (s.cloak (s.tag t)).root.isSome))

/-- The C-core of a tile executes: its clock runs (R413, R421), it is not in wait-for-event (R420), and no VSYNC (R102) or TSYNC (R276)
that has not committed holds it. -/
def State.coreRuns (s : State) (t : Nat) : Bool :=
  let x := s.tile t
  s.runs t && !x.core.stopped && !x.core.changing && !x.core.waiting
    && !(x.core.vsync && !x.lvu.faulted && !(x.lvu.queue.isEmpty && x.lvu.sending.isNone))
    && !(x.core.tsync && !x.xlat.inv.isEmpty)

/-- The engines of a tile's array island issue: no droop holds them (R425) and the island is awake (R422). -/
def State.arrayRuns (s : State) (t : Nat) : Bool := s.runs t && !(s.tile t).acct.droop && !(s.tile t).acct.arrayAsleep

/-- The vector island of a tile issues (R425, R116). -/
def State.vectorRuns (s : State) (t : Nat) : Bool :=
  s.runs t && !(s.tile t).acct.droop && decide ((s.tile t).lvu.power = .active)

/-! ### Events -/

/-- An event or exception reaches a C-core; an event ends its wait (R420), and interrupts a TSYNC (R276). -/
def State.coreEvent (s : State) (t : Nat) (e : CoreEvent) : State :=
  s.onTile t (fun x => { x with core := { x.core with events := x.core.events ++ [e], waiting := false, tsync := false } })

/-- A packet given to the Hedom link: it is sent when the link is UP and holds the credits (15 R344). -/
def State.hedomSend (s : State) (p : Packet) : State :=
  let x := s.hedom.link
  let y := Port.pump hedomLink { x with out := x.out ++ [p] }
  { s with hedom := { s.hedom with link := y } }.bump 0x1E10 1 (Port.sentSince x y)

/-- A transaction to the host: it takes the next tag, and its packet is given to the link. -/
def State.hostTxn (s : State) (user : TxUser) (opc addr len : Nat) (data : Bytes) : State :=
  let tag := s.hedom.nextTag
  let bulk := match user with | .glide _ _ => true | _ => false
  let t : RTxn := { tag := tag, user := user, opc := opc, addr := addr, len := len, data := data }
  let s := { s with hedom := { s.hedom with nextTag := tag + 1, txns := s.hedom.txns ++ [t] } }
  s.hedomSend { opc := opc, len := len, tag := tag, addr := addr, data := data, bulk := bulk }

/-- The tile that a transaction is of. -/
def TxUser.tile? : TxUser → Option Nat
  | .core t _ => some t
  | .lvu t => some t
  | .group t _ => some t
  | .glide t _ => some t
  | .cache t _ => some t
  | .gone t _ => some t
  | _ => none

/-- What waits for the answers of some of a tile's transactions has ended; the answers are still due. -/
def State.forget (s : State) (t : Nat) (mine : TxUser → Bool) : State :=
  let f := fun (x : RTxn) => if x.user.tile? = some t ∧ mine x.user then { x with user := .gone t (s.tag t) } else x
  { s with fab := { s.fab with txns := s.fab.txns.map f }, hedom := { s.hedom with txns := s.hedom.txns.map f } }

/-- Some write to host memory has not received CMP (R353): a write or an atomic sent to it, or a store that awaits its line. -/
def State.hostWritesDue (s : State) : Bool :=
  s.hedom.txns.any (fun x => decide (x.opc = 5 ∨ x.opc = 6) && !(match x.user with | .vector _ => true | _ => false))
    || s.tiles.any (fun (x : Tile) => x.core.storeQ.any (fun p => decide (pkgOf p.addr = s.pkg) && decide (place (localOf p.addr) = .host)))

/-- A write sent to a host physical address; its CMP is due. -/
def State.hostPost (s : State) (user : TxUser) (addr : Nat) (d : Bytes) : State := s.hostTxn user 5 addr d.length d

/-- The 4-byte event write of a vector (R353). -/
def State.sendVec (s : State) (v : Nat) : State :=
  let x := tabGet {} s.hedom.vectors v
  s.hostPost (.vector v) x.vaddr.toNat (natLe 4 x.data.toNat)

/-- The host physical address of an address in the host-memory window (R347). -/
def State.hostPa (s : State) (a : Nat) : Nat := a - 0x40000000000 + s.obj 0x1E00 3

/-- Sending a vector (R353): masked it becomes pending; otherwise it leaves once earlier writes have received CMP. A number
of 2,048 or above raises nothing (R354). -/
def State.raiseVec (s : State) (v : Nat) : State :=
  if 2048 ≤ v then s
  else
    let x := tabGet {} s.hedom.vectors v
    if x.mask then { s with hedom := { s.hedom with vectors := tabSet {} s.hedom.vectors v { x with pend := true } } }
    else if s.hostWritesDue then { s with hedom := { s.hedom with waiting := s.hedom.waiting ++ [v] } }
    else s.sendVec v

/-- The vectors that waited leave, in order, when no earlier write is due. -/
def State.drainVecs (s : State) : State :=
  if s.hostWritesDue then s
  else s.hedom.waiting.foldl State.sendVec { s with hedom := { s.hedom with waiting := [] } }

/-- The vector of one of the device's own sources (R354): 1 epoch, 2 completion, 3 error, 4 mailbox, 5 refusal. -/
def State.raiseSource (s : State) (n : Nat) : State := s.raiseVec (s.obj 0x1E03 n)

/-! ### Error records (R450 to R456) -/

/-- A record put at the head of a log of 64, with the log's next number (R453). -/
def ErrLog.push (l : ErrLog) (r : ErrRec) : ErrLog :=
  let q : U32 := if l.seq = 0xFFFFFFFF then 1 else l.seq + 1
  { recs := { r with seq := q } :: l.recs.take 63
    seq := q
    lost := if 64 ≤ l.recs.length then Nat.min (l.lost + 1) (2 ^ 32 - 1) else l.lost }

/-- The view of a Cloak's record that H and M have (R454). -/
def ErrRec.suppressed (r : ErrRec) : ErrRec := { r with time := 0, cause := 0, detail := 0, addr := 0, flags := 8 }

/-- A record enters the H and M logs and is announced to H (R453, R456). -/
def State.logHM (s : State) (r : ErrRec) : State :=
  let r := if r.cloak = 0 then r else r.suppressed
  { s with logs := { s.logs with h := s.logs.h.push r, m := s.logs.m.push r } }.raiseSource 3

/-- Counted in object 0x2207 (R452). -/
def State.countErr (s : State) (cls : Nat) : State :=
  { s with logs := { s.logs with
      byClass := tabSet 0 s.logs.byClass cls (Nat.min (tabGet 0 s.logs.byClass cls + 1) (2 ^ 64 - 1)) } }

/-- An uncorrectable error counted for the interval under way (R448). -/
def State.countUncorr (s : State) (c : Byte) : State :=
  if c = 2 then { s with logs := { s.logs with uncorr := s.logs.uncorr + 1 } } else s

/-- The record of a Cloak waits for the end of the interval while coarsening is active (R455); any other is logged. -/
def State.logOrHold (s : State) (r : ErrRec) : State :=
  if r.cloak ≠ 0 ∧ s.cloaks.coarse.active then { s with logs := { s.logs with held := s.logs.held ++ [r] } } else s.logHM r

/-- The record of a Cloak enters its C log, and its lowest-numbered tile is told. -/
def State.logC (s : State) (r : ErrRec) : State :=
  let k := r.cloak.toNat
  if k = 0 then s
  else
    let s := { s with logs := { s.logs with c := tabSet ({} : ErrLog) s.logs.c k ((tabGet ({} : ErrLog) s.logs.c k).push r) } }
    match s.tilesOf k with
    | t :: _ => s.coreEvent t .error
    | [] => s

/-- An error: counted, and unless it is a corrected one recorded in the three logs (R453). -/
def State.error (s : State) (r : ErrRec) : State :=
  let r := { r with time := BitVec.ofNat 64 s.now }
  let s := (s.countErr r.cls.toNat).countUncorr r.cls
  if r.cls = 1 then s else (s.logOrHold r).logC r

/-- The error of a unit of a tile (Table 20.7): class, unit kind, cause, and the address where there is one. -/
def State.tileError (s : State) (t cls src cause : Nat) (addr : Nat) : State :=
  s.error { cls := BitVec.ofNat 8 cls, src := BitVec.ofNat 8 src, cloak := BitVec.ofNat 8 (s.tag t), flags := 1
            tile := BitVec.ofNat 16 t, kind := BitVec.ofNat 8 (memKind addr), munit := BitVec.ofNat 8 (memUnit addr)
            cause := BitVec.ofNat 8 cause, addr := BitVec.ofNat 64 addr }

/-- A cause of ALERT_N is set (R448). -/
def State.alert (s : State) (b : Nat) : State := { s with boot := { s.boot with alert := s.boot.alert ||| BitVec.ofNat 16 (2 ^ b) } }

/-! ### Energy charges (R420, R421) -/

/-- The charge classes of R418. -/
inductive ChargeClass where
  | array | vector | memory | core
  deriving DecidableEq, Repr

def Acct.res (a : Acct) : ChargeClass → Nat
  | .array => a.array
  | .vector => a.vector
  | .memory => a.memory
  | .core => a.core

/-- `n` charge units taken from a class: its reservation first, then the unreserved part. -/
def Acct.take (a : Acct) (c : ChargeClass) (n : Nat) : Acct :=
  let r := a.res c
  let u := a.unreserved - (n - r)
  let a := { a with unreserved := u, used := if c = ChargeClass.memory then a.used else a.used + n }
  match c with
  | .array => { a with array := r - n }
  | .vector => { a with vector := r - n }
  | .memory => { a with memory := r - n }
  | .core => { a with core := r - n }

/-- The pool of a domain (R419): tag 0 the open pool. -/
def State.pool (s : State) (tag : Nat) : Nat := if tag = 0 then s.gov.openPool else tabGet 0 s.gov.cloakPools tag

def State.setPool (s : State) (tag v : Nat) : State :=
  if tag = 0 then { s with gov := { s.gov with openPool := v } }
  else { s with gov := { s.gov with cloakPools := tabSet 0 s.gov.cloakPools tag v } }

/-- Top-ups of one token (8,192 cu) each, as many as `need` asks for and the pool holds (R420). -/
def State.topUp (s : State) (t need : Nat) : State :=
  let k := s.tag t
  let n := Nat.min ((need + 8191) / 8192) (s.pool k / 8192)
  if n = 0 then s
  else (s.setPool k (s.pool k - 8192 * n)).onTile t (fun x =>
    { x with acct := { x.acct with unreserved := x.acct.unreserved + 8192 * n, received := true } })

/-- What a class may use at once. -/
def Acct.avail (a : Acct) (c : ChargeClass) : Nat := a.res c + a.unreserved

/-- A charge on a tile's account: whether it is met, and the state after it. A charge that is not met waits; the top-ups that
it has received stay. -/
def State.charge (s : State) (t : Nat) (c : ChargeClass) (n : Nat) : Bool × State :=
  let s := s.topUp t (n - (s.tile t).acct.avail c)
  if n ≤ (s.tile t).acct.avail c then
    (true, { s.onTile t (fun x => { x with acct := x.acct.take c n }) with gov := { s.gov with spent := s.gov.spent + n } })
  else (false, s)

/-- A charge on the shared pool (R417, R421). -/
def State.chargeShared (s : State) (n : Nat) : Bool × State :=
  if n ≤ s.gov.shared then (true, { s with gov := { s.gov with shared := s.gov.shared - n, spent := s.gov.spent + n } })
  else (false, s)

/-- The work of a command that a charge pays for: it is done when the charge is met, and waits otherwise. -/
def State.paid (s : State) (t : Nat) (c : ChargeClass) (n : Nat) (f : State → State) : State :=
  match s.charge t c n with
  | (true, s) => f s
  | (false, s) => s

/-! ### C-core registers -/

/-- x0 reads as zero (R66). -/
def State.xreg (s : State) (t r : Nat) : U64 := if r = 0 then 0 else tabGet 0 (s.tile t).core.x r

def State.setX (s : State) (t r : Nat) (v : U64) : State :=
  if r = 0 then s else s.onTile t (fun x => { x with core := { x.core with x := tabSet 0 x.core.x r v } })

def State.freg (s : State) (t r : Nat) : U64 := tabGet 0 (s.tile t).core.f r

def State.setF (s : State) (t r : Nat) (v : U64) : State :=
  s.onTile t (fun x => { x with core := { x.core with f := tabSet 0 x.core.f r v } })

/-- The vector island holds no earlier work (Table 4.4, as after VSYNC). -/
def State.vectorIdle (s : State) (t : Nat) : Bool :=
  (s.tile t).lvu.queue.isEmpty && (s.tile t).lvu.sending.isNone

/-- The transactions of a C-core that await an answer. -/
def State.coreTxns (s : State) (t : Nat) : List Dest :=
  (s.fab.txns ++ s.hedom.txns).filterMap (fun x => match x.user with | .core u d => if u = t then some d else none | _ => none)

/-- The x and the f registers that an answer will write. -/
def Dest.xs : Dest → List Nat
  | .xreg r n _ => if 8 < n then [r.val, r.val + 1] else [r.val]
  | .half r fp n _ _ => if fp then [] else if 8 < n then [r.val, r.val + 1] else [r.val]
  | .atom r n => if n = 16 then [r.val, r.val + 1] else [r.val]
  | _ => []

def Dest.fs : Dest → List Nat
  | .freg r => [r.val]
  | .half r fp _ _ _ => if fp then [r.val] else []
  | _ => []

/-- The x register that a vector instruction returns a result in (R95), and the f register of a reduction. -/
def vxOut (i : VInstr) : List Nat :=
  match i.kind with
  | .setvl _ => [i.vd.val]
  | .vcsrr => [i.vd.val]
  | .int .toScalar => [i.vd.val]
  | .pred .count => [i.vd.val]
  | .pred .first => [i.vd.val]
  | _ => []

def vfOut (i : VInstr) : List Nat := match i.kind with | .red _ _ => [i.vd.val] | _ => []

/-- A C-core instruction runs that names the given x and f registers: none of them awaits an earlier instruction's result
(R69, R95). -/
def State.coreReads (s : State) (t : Nat) (xs fs : List Nat) : Bool :=
  let d := (s.tile t).l2.out.map (fun o => o.dest) ++ s.coreTxns t
  let bx := d.flatMap Dest.xs ++ (s.tile t).lvu.queue.flatMap (fun e => vxOut e.i)
  let bf := d.flatMap Dest.fs ++ (s.tile t).lvu.queue.flatMap (fun e => vfOut e.i)
  s.coreRuns t && xs.all (fun r => decide (r = 0) || !bx.contains r) && fs.all (fun r => !bf.contains r)

/-- The C-core raises an exception: it is recorded (R66, R270, R293, R295). -/
def State.trap (s : State) (t : Nat) (e : CoreEvent) : State := s.coreEvent t e

end Sys2Proof.Machine
end

