-- ==== Sys2Proof/Machine/Coh.lean ====
section
/-!
DEFINITION. Machine/Coh.lean: memory lines and their errors (10 R247 to R251), coherent accesses that complete at once
(12 R292), and the home agents and L2s with their messages (12 R284 to R291).
-/
namespace Sys2Proof.Machine
open Sys2Proof

/-! ### Lines in memory -/

def lineErr (m : Memory) (line : Nat) : Option LineErr := (m.bad.find? (fun p => decide (p.1 = line))).map (·.2)

def State.setBad (s : State) (line : Nat) (e : Option LineErr) : State :=
  let l := s.mem.bad.filter (fun p => decide (p.1 ≠ line))
  { s with mem := { s.mem with bad := match e with | some x => (line, x) :: l | none => l } }

/-- A MAC failure is possible only where a MAC is checked (R249). -/
def State.macChecked (s : State) (a : Nat) : Bool :=
  decide (place a = .hbm) && (match granuleOf a with | some g => decide (entState (s.granule g) = 1 ∨ entState (s.granule g) = 3) | none => false)

/-- What the check of a line makes of a fault: an error in one byte is corrected and one in more is detected; a transfer is
repeated three times and its fourth failure is uncorrectable (R247); a command is retried once (R258); a MAC is checked in its
granules only (R249). Three wrong bytes of an HBM codeword, which its code need not detect (R248), count as detected (assumption
75). -/
def State.checkLine (s : State) (a : Nat) : LineFault → Option LineErr
  | .bytes n => if n.val = 0 then none else if n.val = 1 then some .correctable else some .uncorrectable
  | .transfer n => if place a = .lining ∧ 4 ≤ n.val then some .uncorrectable else none
  | .command n => if place a = .hbm ∧ 2 ≤ n.val then some .uncorrectable else none
  | .mac => if s.macChecked a then some .mac else none

/-- A fault of the transfer or of the command, which a write meets as well as a read. -/
def faultOnWay : LineFault → Bool
  | .transfer _ => true
  | .command _ => true
  | _ => false

/-- A fault that an access meets on a line that had no error (R251): a read finds it there, and a write whose transfer or command fails
for good (R247, R258) will not reach the line. -/
def State.meet (s : State) (line : Nat) (found : Option LineFault) (write : Bool := false) : State :=
  match found, found.bind (s.checkLine (64 * line)) with
  | some f, some e =>
    if write && faultOnWay f then { s with mem := { s.mem with writeFails := s.mem.writeFails ++ [line] } }
    else if (lineErr s.mem line).isSome then s else s.setBad line (some e)
  | _, _ => s

/-- The bytes that an address's home may start in the window under way; none where no cap holds (Table 10.5, R424): fractions of
2.56 TB/s for a stack, of 256 GB/s for a slice. -/
def State.capBytes (s : State) (a : Nat) : Option Nat :=
  match place a with
  | .hbm =>
    (match (tabGet ({} : Stack) s.mem.hbm (hbmStack a)).cap with
     | 0 => none
     | 1 => some 1920000
     | 2 => some 1280000
     | 3 => some 640000
     | _ => some 256000)
  | .lining =>
    (match tabGet 0 s.mem.lineCaps (memDie a) with
     | 0 => none
     | 1 => some 192000
     | 2 => some 128000
     | _ => some 64000)
  | _ => none

/-- The home of a line delays a request: its cap leaves no room for 64 bytes more in this window. -/
def State.capped (s : State) (a : Nat) : Bool :=
  match s.capBytes a with
  | none => false
  | some c => decide (c < tabGet 0 s.mem.started (windowUnit a) + 64)

/-- The bytes of one request, by line, do not fit under the caps of their homes (R254). -/
def State.overCap (s : State) (l : List (Nat × Nat)) : Bool :=
  l.any (fun p => match s.capBytes (64 * p.1) with
    | none => false
    | some c => decide (c < tabGet 0 s.mem.started (windowUnit (64 * p.1))
        + sumNat ((l.filter (fun q => decide (windowUnit (64 * q.1) = windowUnit (64 * p.1)))).map (·.2))))

/-- Bytes that a home under a cap starts. -/
def State.countStarted (s : State) (a n : Nat) : State :=
  if (s.capBytes a).isNone then s
  else { s with mem := { s.mem with started := tabSet 0 s.mem.started (windowUnit a) (tabGet 0 s.mem.started (windowUnit a) + n) } }

/-- A window begins (R254): the caps in it are those of the levels that hold now, and nothing has been started. -/
def State.newWindow (s : State) : State :=
  { s with mem := { s.mem with
    hbm := (List.range 8).map (fun k => let x := tabGet ({} : Stack) s.mem.hbm k; { x with cap := x.level })
    lineCaps := [tabGet 0 s.gov.level 0, tabGet 0 s.gov.level 1]
    started := [] } }

/-- Bytes read from and written to a line: in the window under way, and of a stack in objects 0x1920 and 0x1921. -/
def State.countBytes (s : State) (a n : Nat) (wr : Bool) : State :=
  let s := s.countStarted a n
  match place a with
  | .hbm => s.bumpShared (if wr then 0x1921 else 0x1920) (hbmStack a + 1) n
  | _ => s

/-- Who reads a line, as one number: an engine of tile `n` as `n`, the C-core of tile `n` as 256 + `n`, the host as 65535, S as 65534,
and another package as 65533. This is the reader that a message to a home agent names. -/
def msgReader (src : Nat) : Nat := if src < 192 then 256 + src else if src = 193 then 0xFFFD else if src = 194 then 0xFFFE else 0xFFFF

/-- The node of a reader (Table 12.1). -/
def readerNode (r : Nat) : Nat :=
  if r < 192 then r else if 256 ≤ r ∧ r < 448 then r - 256 else if r = 0xFFFD then 193 else if r = 0xFFFE then 194 else 192

/-- The TILE of an error record (Table 20.7). -/
def readerTile (r : Nat) : Nat := if r < 192 then r else if 256 ≤ r ∧ r < 448 then r - 256 else 0xFFFF

/-- The CAUSE of an error record: UNCORR is 3 in Tables 8.7 and 9.7, as VCAUSE and as STATUS; the C-core and the device have no
cause code. -/
def readerCause (r : Nat) : Nat := if r < 192 ∨ r = 0xFFFF ∨ r = 0xFFFD then 3 else 0

/-- An error found on a line: counted for its die or stack, and reported (R251, R453). `used` says that a consumer needed it. -/
def State.memError (s : State) (a : Nat) (e : LineErr) (used : Bool) (tile : Nat) : State :=
  let idx := match place a, e with
    | .lining, .correctable => 0x1913
    | .lining, _ => 0x1914
    | _, .correctable => 0x1910
    | _, .uncorrectable => 0x1911
    | _, .mac => 0x1912
  let s := s.bump idx (memUnit a + 1) 1
  s.error { cls := if e = .correctable then 1 else 2
            src := if place a = .lining then 0x24 else 0x25
            cloak := BitVec.ofNat 8 (s.cloakAt a), flags := if used then 1 else 2
            tile := BitVec.ofNat 16 (readerTile tile), kind := BitVec.ofNat 8 (memKind a), munit := BitVec.ofNat 8 (memUnit a)
            cause := BitVec.ofNat 8 (if used then readerCause tile else 0)
            addr := BitVec.ofNat 64 a }

/-- A line read by its home agent (R251): a correctable error is corrected and written back; an uncorrectable one delivers
nothing and leaves the line. -/
def State.memLine (s : State) (line tile : Nat) : Option Bytes × State :=
  let a := 64 * line
  let s := s.countBytes a 64 false
  match lineErr s.mem line with
  | none => (some (memRead s.mem.bytes a 64), s)
  | some .correctable => (some (memRead s.mem.bytes a 64), (s.memError a .correctable true tile).setBad line none)
  | some e => (none, s.memError a e true tile)

def State.setBytes (s : State) (a : Nat) (b : Bytes) : State := { s with mem := { s.mem with bytes := memWrite s.mem.bytes a b } }

/-- The next write of a line fails for good (R247, R258). -/
def State.writeFails (s : State) (line : Nat) : Bool := s.mem.writeFails.contains line

/-- A whole line written: it clears an uncorrectable line (R250). One that fails for good leaves an uncorrectable error on the line,
which is reported (R247, R258). -/
def State.putLine (s : State) (line : Nat) (b : Bytes) : State :=
  let s := s.countBytes (64 * line) 64 true
  if s.writeFails line then
    ({ s with mem := { s.mem with writeFails := s.mem.writeFails.filter (fun l => decide (l ≠ line)) } }.memError (64 * line) .uncorrectable false 0xFFFF).setBad line
      (some .uncorrectable)
  else (s.setBytes (64 * line) b).setBad line none

/-- A line whose bytes are merged under a mask of 64. -/
def mergeMask : List Bool → Bytes → Bytes → Bytes
  | e :: es, n :: ns, o :: os => (if e then n else o) :: mergeMask es ns os
  | _, _, os => os

/-- A write under a mask (R250): of a whole line, or a read-modify-write that an uncorrectable line refuses. The writer is told of one
that fails for good. -/
def State.putMask (s : State) (line tile : Nat) (mask : List Bool) (b : Bytes) : Bool × State :=
  let ok := !s.writeFails line
  if mask.all id && decide (mask.length = 64) then (ok, s.putLine line b)
  else match s.memLine line tile with
    | (some old, s) => (ok, s.putLine line (mergeMask mask b old))
    | (none, s) => (false, s)

/-! ### L2 lines -/

def l2Find (x : L2) (line : Nat) : L2Line := match x.lines.find? (fun p => decide (p.1 = line)) with | some p => p.2 | none => {}

def l2Put (x : L2) (line : Nat) (l : L2Line) : L2 :=
  let r := x.lines.filter (fun p => decide (p.1 ≠ line))
  { x with lines := if l.st = .i then r else (line, l) :: r }

def State.l2 (s : State) (t line : Nat) : L2Line := l2Find (s.tile t).l2 line

def State.setL2 (s : State) (t line : Nat) (l : L2Line) : State := s.onTile t (fun x => { x with l2 := l2Put x.l2 line l })

/-- A line in a tile's write-back buffer (R290). -/
def State.wbOf (s : State) (t line : Nat) : Option Bytes :=
  ((s.tile t).l2.wb.find? (fun p => decide (p.1 = line))).map (·.2)

/-- The tile whose L2 holds a line in M. -/
def State.dirtyTile (s : State) (line : Nat) : Option Nat := (List.range 192).find? (fun t => decide ((s.l2 t line).st = .m))

/-! ### The snoop filter (R285) -/

def State.filterOf (s : State) (line : Nat) : Filter :=
  match s.coh.filter.find? (fun p => decide (p.1 = line)) with | some p => p.2 | none => {}

/-- The record of a line set, and the line made the most recently used; a record without a holder is dropped. -/
def State.setFilter (s : State) (line : Nat) (f : Filter) : State :=
  let r := s.coh.filter.filter (fun p => decide (p.1 ≠ line))
  { s with coh := { s.coh with filter := if f.owner = none ∧ f.sharers = 0 then r else (line, f) :: r } }

def bit193 (n : Nat) : BitVec 193 := BitVec.ofNat 193 (2 ^ n)

/-! ### Messages -/

def homeNode : Nat := 195

def State.send (s : State) (m : Msg) : State := { s with coh := { s.coh with net := s.coh.net ++ [m] } }

/-- The oldest message of a kind to a node for a line, and the messages without it. -/
def takeMsg (p : Msg → Bool) : List Msg → Option (Msg × List Msg)
  | [] => none
  | m :: ms =>
    if p m then some (m, ms)
    else match takeMsg p ms with
      | some (x, r) => some (x, m :: r)
      | none => none

def State.setNet (s : State) (l : List Msg) : State := { s with coh := { s.coh with net := l } }

def State.handOf (s : State) (line : Nat) : Option Txn := (s.coh.hand.find? (fun p => decide (p.1 = line))).map (·.2)

def State.setHand (s : State) (line : Nat) (x : Option Txn) : State :=
  let r := s.coh.hand.filter (fun p => decide (p.1 ≠ line))
  { s with coh := { s.coh with hand := match x with | some x => (line, x) :: r | none => r } }

/-- The opcode of a message on the Hedom link (Table 15.5). -/
def MsgKind.opcode : MsgKind → Nat
  | .rds => 1
  | .rdx => 2
  | .upg => 3
  | .rdnc => 4
  | .wrnc => 5
  | .atom => 6
  | .snps => 8
  | .snpx => 9
  | .snpcur => 0x0A
  | .snpinv => 0x0B
  | .inv => 0x0C
  | .data => 0x10
  | .datax => 0x11
  | .cmp => 0x12
  | .invack => 0x13
  | .snprsp => 0x14
  | .wb => 0x15
  | .wback => 0x16
  | .atomrsp => 0x17
  | .err => 0x18

/-- A snoop for a line of this package to one of its holders: a message, or to the host a packet (Table 15.5). -/
def State.sendSnoop (s : State) (m : Msg) : State :=
  if m.dst = 192 then s.hedomSend { opc := m.kind.opcode, addr := 64 * m.line } else s.send m

/-- The sharers of a line other than one node. -/
def sharersBut (f : Filter) (n : Nat) : List Nat := (List.range 193).filter (fun k => f.sharers.getLsbD k && decide (k ≠ n))

/-- The nodes that a record names: the owner and the sharers. -/
def Filter.holders (f : Filter) : List Nat :=
  let l := sharersBut f 193
  match f.owner with | some o => o :: l.filter (fun k => decide (k ≠ o)) | none => l

/-- What a snoop names as its requester: the node, and the unit in the bits above it (R288). -/
def reqCode (node unit_ : Nat) : Nat := node + 256 * unit_

/-- A snoop sent to a holder for a requester. -/
def snoopMsg (m : Msg) (k : MsgKind) (o : Nat) : Msg :=
  { kind := k, line := m.line, src := homeNode, dst := o, req := reqCode m.src m.unit_, unit_ := m.unit_ }

/-- An INV to each sharer but the requester. -/
def State.invalidate (s : State) (m : Msg) (l : List Nat) : State :=
  l.foldl (fun (s : State) k => s.sendSnoop (snoopMsg m .inv k)) s

/-! ### Accesses that complete at once (R292) -/

/-- A write-back of the host for a line of this package waits at the device (R290). -/
def State.hostWb (s : State) (line : Nat) : Bool :=
  s.hedom.inbox.any (fun p => decide (p.opc = 0x15) && decide (lineOf (p.addr % 2 ^ 44) = line))

/-- A transaction on a line is in hand, or a message or a write-back of it is under way. -/
def State.lineMoves (s : State) (line : Nat) : Bool :=
  s.coh.hand.any (fun p => decide (p.1 = line)) || s.coh.net.any (fun m => decide (m.line = line))
    || (List.range 192).any (fun t => (s.wbOf t line).isSome) || s.hostWb line

/-- Other accesses of the line wait (R289): it moves, an earlier request waits for it, or its home is under a cap (R254). -/
def State.lineBusy (s : State) (line : Nat) : Bool :=
  s.lineMoves line || s.coh.wait.any (fun m => decide (m.line = line)) || s.capped (64 * line)

/-- The outcome of an access: it waits, it meets an uncorrectable error, or it is done. -/
inductive Got where
  | wait
  | bad
  | got (b : Bytes)
  deriving DecidableEq, Repr

/-- A step of a unit on memory: it waits, in the state with what it has asked for, or it is done. -/
inductive Try where
  | wait (s : State)
  | done (s : State)
  deriving DecidableEq, Repr

/-- A step that must wait, in its state before it, with the snoops and reads that it has asked for. -/
def State.asks (s u : State) : State := { s with coh := u.coh, hedom := u.hedom, objs := u.objs }

/-- The tile whose L2 holds a line in E or M. -/
def State.ownerTile (s : State) (line : Nat) : Option Nat :=
  (List.range 192).find? (fun t => decide ((s.l2 t line).st = .m) || decide ((s.l2 t line).st = .e))

/-- The newest data of a line that is on its way: in a message with a dirty copy, or in a write-back buffer. -/
def State.lineOnWay (s : State) (line : Nat) : Option Bytes :=
  match s.coh.net.find? (fun m => decide (m.line = line) && decide (m.data.length = 64) && decide (m.src < 193)
      && (decide (m.kind = .datax) || decide (m.kind = .data) || decide (m.kind = .wb) || decide (m.kind = .snprsp))) with
  | some m => some m.data
  | none => (List.range 192).findSome? (fun t => s.wbOf t line)

/-- A request enters the ordering point (R288): the priority pointer moves past its node. A recall of the home's own is no request. -/
def State.order (s : State) (line node : Nat) : State :=
  if homeNode ≤ node then s else { s with coh := { s.coh with prio := kvSet 0 s.coh.prio (homeOf (64 * line)) ((node + 1) % 195) } }

/-- The data that a line's owner has supplied for a read of a node. -/
def State.lentOf (s : State) (line node : Nat) : Option Bytes :=
  (s.coh.lent.find? (fun p => decide (p.1 = line) && decide (p.2.1 = node))).map (·.2.2)

/-- An owner's data put by for a read that waits at its unit; none takes back what was put by for the line. -/
def State.lend (s : State) (line node : Nat) (b : Option Bytes) : State :=
  let r := s.coh.lent.filter (fun p => decide (p.1 ≠ line))
  { s with coh := { s.coh with lent := match b with | some b => (line, node, b) :: r | none => r } }

/-- Data that no read has taken is given up: a read that still waits asks again (DESIGN CHOICE, assumption 30). -/
def State.dropLent (s : State) : State := { s with coh := { s.coh with lent := [] } }

/-- Holders of a line must be snooped before an access (Table 12.4): the owner for a read, whose data it supplies; every holder for a
write or an atomic. A write that hits E or M in its own tile's L2 needs nothing (R292). -/
def State.mustSnoop (s : State) (reader line : Nat) (write own : Bool) : Bool :=
  let f := s.filterOf line
  if write then !(own && (decide ((s.l2 reader line).st = .e) || decide ((s.l2 reader line).st = .m))) && (f.owner.isSome || decide (f.sharers ≠ 0))
  else f.owner.isSome && (s.lentOf line (readerNode reader)).isNone

/-- The home takes up an access that waits at its unit (R289, R292): SNPCUR to the owner of a line that is read; SNPINV to the owner, or
INV to the sharers, of one that is written. -/
def State.snoopFor (s : State) (reader line : Nat) (write : Bool) : State :=
  let n := readerNode reader
  let f := s.filterOf line
  let m : Msg := { kind := if write then .wrnc else .rdnc, line := line, src := n, dst := homeNode, unit_ := 1 }
  let s := (s.order line n).lend line n none
  match f.owner with
  | some o => (s.sendSnoop (snoopMsg m (if write then .snpinv else .snpcur) o)).setHand line (some { msg := m, snoop := true, inner := true })
  | none =>
    let l := sharersBut f 193
    if l.isEmpty then s else ((s.invalidate m l).setFilter line {}).setHand line (some { msg := m, acks := l, inner := true })

def State.anyBusy (s : State) (a n : Nat) : Bool := (rangeFrom (lineOf a) (linesOf a n)).any s.lineBusy

/-- Some line of an access has holders that must be snooped. -/
def State.anyHeld (s : State) (reader a n : Nat) (write own : Bool) : Bool :=
  (rangeFrom (lineOf a) (linesOf a n)).any (fun l => s.mustSnoop reader l write own)

/-- The holders of an access's lines are snooped, where nothing keeps the lines busy. -/
def State.callIn (s : State) (reader a n : Nat) (write own : Bool) : State :=
  if s.anyBusy a n then s
  else (rangeFrom (lineOf a) (linesOf a n)).foldl (fun (s : State) l => if s.mustSnoop reader l write own then s.snoopFor reader l write else s) s

/-- An access finds its lines at rest: none is busy, and no holder has to be snooped. -/
def State.free (s : State) (reader a n : Nat) (write own : Bool) : Bool := !s.anyBusy a n && !s.anyHeld reader a n write own

/-- The data of a line that no owner keeps back (Table 12.4, RDNC): what its owner has supplied, or memory's. -/
def State.currentLine (s : State) (line reader : Nat) : Option Bytes × State :=
  let n := readerNode reader
  let s := s.order line n
  match s.lentOf line n with
  | some b => (some b, s.lend line n none)
  | none => s.memLine line reader

/-- `n` lines from a line on, in order. -/
def State.currentLines (s : State) (reader : Nat) : Nat → Nat → Option Bytes × State
  | _, 0 => (some [], s)
  | line, n + 1 =>
    match s.currentLine line reader with
    | (none, s) => (none, s)
    | (some b, s) =>
      match s.currentLines reader (line + 1) n with
      | (none, s) => (none, s)
      | (some r, s) => (some (b ++ r), s)

/-- The caps hold back one request of a unit (R254), of at most eight lines; a longer transfer is of S, which asks line by line. -/
def State.heldByCap (s : State) (l : List (Nat × Nat)) : Bool := decide (l.length ≤ 8) && s.overCap l

/-- A non-caching read of `n` bytes of this package's memory. -/
def State.cohRead (s : State) (reader a n : Nat) : Got × State :=
  if !s.free reader a n false false then (.wait, s.callIn reader a n false false)
  else if s.heldByCap ((rangeFrom (lineOf a) (linesOf a n)).map (fun l => (l, 64))) then (.wait, s)
  else match s.currentLines reader (lineOf a) (linesOf a n) with
    | (none, s) => (.bad, s)
    | (some b, s) => (.got ((b.drop (a % 64)).take n), s)

/-- A write to one line under a mask: held in E or M by the writer's own L2 it is written there (R292); otherwise memory is written,
no node holding a copy. -/
def State.cohWriteLine (s : State) (reader line : Nat) (own : Bool) (mask : List Bool) (b : Bytes) : Bool × State :=
  let l := s.l2 reader line
  if own && (decide (l.st = .e) || decide (l.st = .m)) then
    (true, (s.setL2 reader line { st := .m, data := mergeMask mask b l.data }).lend line 0 none)
  else ((s.order line (readerNode reader)).lend line 0 none).putMask line reader mask b

/-- The mask and bytes that line `i` of a write from `a` on takes of a byte string under a byte mask. -/
def lineSlice (a i : Nat) (mask : List Bool) (b : Bytes) : List Bool × Bytes :=
  let base := 64 * (lineOf a + i)
  ((List.range 64).map (fun j => decide (a ≤ base + j) && (mask.getD (base + j - a) false)),
   (List.range 64).map (fun j => if a ≤ base + j then b.getD (base + j - a) 0 else 0))

def State.cohWriteLines (s : State) (reader a : Nat) (own : Bool) (mask : List Bool) (b : Bytes) : List Nat → Bool × State
  | [] => (true, s)
  | i :: is =>
    let x := lineSlice a i mask b
    if x.1.any id then
      match s.cohWriteLine reader (lineOf a + i) own x.1 x.2 with
      | (false, s) => (false, s)
      | (true, s) => s.cohWriteLines reader a own mask b is
    else s.cohWriteLines reader a own mask b is

/-- The bytes that a masked write makes its homes start, by line: a line that it does not cover is read too (R250). -/
def writeLoad (a n : Nat) (mask : List Bool) : List (Nat × Nat) :=
  (List.range (linesOf a n)).map (fun i => (lineOf a + i, if (lineSlice a i mask []).1.all id then 64 else 128))

/-- A non-caching write under a byte mask. -/
def State.cohWriteMask (s : State) (reader a : Nat) (own : Bool) (mask : List Bool) (b : Bytes) : Got × State :=
  if !s.free reader a b.length true own then (.wait, s.callIn reader a b.length true own)
  else if s.heldByCap (writeLoad a b.length mask) then (.wait, s)
  else match s.cohWriteLines reader a own mask b (List.range (linesOf a b.length)) with
    | (true, s) => (.got [], s)
    | (false, s) => (.bad, s)

/-- S can write `n` bytes at once: their lines are at rest, and the caps let them pass. -/
def State.sReady (s : State) (a n : Nat) : Bool := s.free 0xFFFE a n true false && !s.heldByCap (writeLoad a n (List.replicate n true))

def State.cohWrite (s : State) (reader a : Nat) (own : Bool) (b : Bytes) : Got × State :=
  s.cohWriteMask reader a own (b.map (fun _ => true)) b

/-- The data of a line as the debug port sees it (R467), wherever it stands; the data of the host's copy is a free value. -/
def State.lineNow (s : State) (line : Nat) : Option Bytes :=
  match s.ownerTile line, s.lineOnWay line with
  | some t, _ => some (s.l2 t line).data
  | none, some b => some b
  | none, none =>
    if (s.filterOf line).owner = some 192 then some ((List.range 64).map (fun i => BitVec.ofNat 8 (freeValue s.freeCtr 2 (64 * line + i))))
    else (s.memLine line 0xFFFF).1

/-! ### Atomics (R293 to R296) -/

/-- The rules of MAX and MIN that atomics share with R174, and FADD, on FP32 (size 4) or FP64 (size 8). -/
def atomFp (op : AtomOp) (size old v : Nat) : Nat :=
  let f : Fmt := if size = 4 then f32 else f64
  let a := decodeVal f old
  let b := decodeVal f v
  let r := match op with
    | .fmax => Val.max a b
    | .fmin => Val.min a b
    | _ => Val.add .rne a b
  (ieeeRound f .rne r).1

/-- The new value of an atomic of `size` bytes (Tables 12.7 and 12.8). -/
def atomNew (op : AtomOp) (size old v cmp : Nat) : Nat :=
  let w := 8 * size
  match op with
  | .swap => v
  | .add => (old + v) % 2 ^ w
  | .and => old &&& v
  | .or => old ||| v
  | .xor => old ^^^ v
  | .smax => if toSigned w old < toSigned w v then v else old
  | .smin => if toSigned w v < toSigned w old then v else old
  | .umax => if old < v then v else old
  | .umin => if v < old then v else old
  | .cas => if old = cmp then v else old
  | .fadd => atomFp .fadd size old v
  | .fmax => atomFp .fmax size old v
  | .fmin => atomFp .fmin size old v

/-! ### Requests at the home -/

/-- The domain tag that a node's requests carry (R283, R34). -/
def State.nodeTag (s : State) (n : Nat) : Nat := if n < 192 then s.tag n else if n = 194 then 127 else 0

/-- A sent answer of the home to a requester. -/
def reply (m : Msg) (k : MsgKind) (data : Bytes) (excl : Bool) : Msg :=
  { kind := k, line := m.line, src := homeNode, dst := m.src, data := data, excl := excl, unit_ := m.unit_, off := m.off, size := m.size, tag := m.tag }

/-- The final act of a non-caching write or an atomic on a line with no other copy. -/
def State.finishNc (s : State) (m : Msg) : State :=
  match m.kind with
  | .wrnc =>
    match s.putMask m.line (msgReader m.src) m.mask m.data with
    | (true, s) => s.send (reply m .cmp [] false)
    | (false, s) => s.send (reply m .err [] false)
  | _ =>
    match s.memLine m.line (msgReader m.src) with
    | (none, s) => s.send (reply m .err [] false)
    | (some b, s) =>
      let old := leNat ((b.drop m.off).take m.size)
      let new := match m.op with | some o => atomNew o m.size old m.a m.b | none => old
      let b' := b.take m.off ++ natLe m.size new ++ b.drop (m.off + m.size)
      ((s.putLine m.line b').bumpShared 0x1B01 (memDie (64 * m.line) + 1) 1).send (reply m .atomrsp (natLe m.size old) false)

/-- The service of a request at the home where no owner holds the line (Table 12.4): whether the transaction stays in hand
with `acks` INVACKs due. -/
def State.serveNoOwner (s : State) (m : Msg) : State :=
  let f := s.filterOf m.line
  let others := sharersBut f m.src
  match m.kind with
  | .rds =>
    match s.memLine m.line (msgReader m.src) with
    | (none, s) => s.send (reply m .err [] false)
    | (some b, s) =>
      if others.isEmpty then (s.send (reply m .data b true)).setFilter m.line { owner := some m.src, sharers := 0 }
      else (s.send (reply m .data b false)).setFilter m.line { owner := none, sharers := f.sharers ||| bit193 m.src }
  | .rdnc =>
    match s.memLine m.line (msgReader m.src) with
    | (none, s) => s.send (reply m .err [] false)
    | (some b, s) => s.send (reply m .data b false)
  | .wrnc =>
    if sharersBut f 193 |>.isEmpty then (s.setFilter m.line {}).finishNc m
    else
      let l := sharersBut f 193
      ((s.invalidate m l).setFilter m.line {}).setHand m.line (some { msg := m, acks := l })
  | .atom =>
    if sharersBut f 193 |>.isEmpty then (s.setFilter m.line {}).finishNc m
    else
      let l := sharersBut f 193
      ((s.invalidate m l).setFilter m.line {}).setHand m.line (some { msg := m, acks := l })
  | .upg =>
    if f.sharers.getLsbD m.src then
      let s := (s.invalidate m others).setFilter m.line { owner := some m.src, sharers := 0 }
      if others.isEmpty then s.send (reply m .cmp [] false)
      else s.setHand m.line (some { msg := m, acks := others })
    else
      match s.memLine m.line (msgReader m.src) with
      | (none, s) => s.send (reply m .err [] false)
      | (some b, s) =>
        let s := (s.invalidate m others).setFilter m.line { owner := some m.src, sharers := 0 }
        let s := s.send (reply m .datax b (!others.isEmpty))
        if others.isEmpty then s else s.setHand m.line (some { msg := m, acks := others })
  | _ =>
    match s.memLine m.line (msgReader m.src) with
    | (none, s) => s.send (reply m .err [] false)
    | (some b, s) =>
      let s := (s.invalidate m others).setFilter m.line { owner := some m.src, sharers := 0 }
      let s := s.send (reply m .datax b (!others.isEmpty))
      if others.isEmpty then s else s.setHand m.line (some { msg := m, acks := others })

/-- A recall (R285, R291): SNPINV to every node that the record of a line names; each of them answers. -/
def State.startRecall (s : State) (m : Msg) : State :=
  let l := (s.filterOf m.line).holders
  if l.isEmpty then s
  else (l.foldl (fun (s : State) k => s.sendSnoop (snoopMsg m .snpinv k)) s).setHand m.line (some { msg := m, acks := l, inner := true })

/-- The snoop that a request of each kind sends to an owner (Table 12.4). -/
def MsgKind.ownerSnoop : MsgKind → MsgKind
  | .rds => .snps
  | .rdnc => .snpcur
  | .wrnc => .snpinv
  | .atom => .snpinv
  | _ => .snpx

/-- The service of a request at the ordering point (R289, Table 12.4). -/
def State.serve (s : State) (m : Msg) : State :=
  if m.kind = .snpinv then s.startRecall m
  else match (s.filterOf m.line).owner with
  | none => s.serveNoOwner m
  | some o =>
    if o = m.src ∧ (m.kind = .rds ∨ m.kind = .rdx ∨ m.kind = .upg) then (s.setFilter m.line {}).serveNoOwner m
    else (s.sendSnoop (snoopMsg m m.kind.ownerSnoop o)).setHand m.line (some { msg := m, snoop := true })

/-! ### Room in the filter (R285) -/

/-- A request of this kind leaves its line in the filter. -/
def MsgKind.caches : MsgKind → Bool
  | .rds => true
  | .rdx => true
  | .upg => true
  | _ => false

/-- The entries in the set of 16 ways of a line, the most recently used first. -/
def State.waysOf (s : State) (line : Nat) : List (Nat × Filter) :=
  s.coh.filter.filter (fun p => decide (homeOf (64 * p.1) = homeOf (64 * line)) && decide (filterSet p.1 % 1024 = filterSet line % 1024))

/-- The set of a line has no way for it. -/
def State.noRoom (s : State) (line : Nat) : Bool :=
  decide (16 ≤ s.coh.filter.length) && !(s.coh.filter.any (fun p => decide (p.1 = line))) && decide (16 ≤ (s.waysOf line).length)

/-- A way of the set is being freed. -/
def State.freeing (s : State) (line : Nat) : Bool :=
  (s.waysOf line).any (fun p => match s.handOf p.1 with | some x => x.inner && decide (x.msg.src = homeNode) | none => false)

/-- Room for a line: the least recently used way of its set is recalled, of those on whose lines no transaction is under way (DESIGN
CHOICE, assumption 30); where one is being freed already, it is awaited. -/
def State.makeRoom (s : State) (line : Nat) : State :=
  if s.freeing line then s
  else match ((s.waysOf line).filter (fun p => !s.lineMoves p.1)).getLast? with
    | some p => (s.startRecall { kind := .snpinv, line := p.1, src := homeNode, dst := homeNode }).bumpShared 0x1B00 (memDie (64 * line) + 1) 1
    | none => s

/-- A request can be served: no transaction of its line is in hand, and the filter has room for it. -/
def State.canServe (s : State) (m : Msg) : Bool := (s.handOf m.line).isNone && !(m.kind.caches && s.noRoom m.line)

/-- The first waiting request that can be served, no earlier one waiting for its line. -/
def State.readyMsg (s : State) : List Nat → List Msg → Option Msg
  | _, [] => none
  | seen, m :: ms => if !seen.contains m.line && s.canServe m then some m else s.readyMsg (m.line :: seen) ms

/-- The waiting requests are served in their order, as far as they can be (`fuel` bounds their number); room is made for the rest. -/
def State.serveReady (s : State) : Nat → State
  | 0 => s
  | fuel + 1 =>
    match s.readyMsg [] s.coh.wait with
    | some m => ({ s with coh := { s.coh with wait := s.coh.wait.erase m } }.serve m).serveReady fuel
    | none => s.coh.wait.foldl (fun (s : State) m => if (s.handOf m.line).isNone && m.kind.caches && s.noRoom m.line then s.makeRoom m.line else s) s

def State.serveWaiting (s : State) : State := s.serveReady (s.coh.wait.length + 1)

/-- A transaction ends and the next request for its line starts. -/
def State.endTxn (s : State) (line : Nat) : State := (s.setHand line none).serveWaiting

/-- A request enters the ordering point (R288): it is served, or waits for the transaction in hand, for an earlier request of its line,
or for room. -/
def State.enter (s : State) (m : Msg) : State :=
  let s := (s.order m.line m.src).lend m.line 0 none
  if s.canServe m && !s.coh.wait.any (fun x => decide (x.line = m.line)) then s.serve m
  else
    let s := { s with coh := { s.coh with wait := s.coh.wait ++ [m] } }
    if (s.handOf m.line).isNone && m.kind.caches && s.noRoom m.line then s.makeRoom m.line else s

/-! ### Responses at the home (R289 to R291) -/

/-- The transaction in hand goes on without an owner: from memory. -/
def State.serveAgain (s : State) (line : Nat) (m : Msg) : State :=
  let s := (s.setHand line none).serveNoOwner m
  if (s.handOf line).isSome then s else s.serveWaiting

/-- WBACK to the node that wrote back. -/
def State.ackWb (s : State) (n line : Nat) : State := s.send { kind := .wback, line := line, src := homeNode, dst := n }

/-- One more answer to a recall has come: after the last one nobody holds the line (R285, R291). -/
def State.recallAck (s : State) (n line : Nat) (x : Txn) : State :=
  let l := x.acks.erase n
  if l.isEmpty then (s.setFilter line {}).endTxn line else s.setHand line (some { x with acks := l, wbpend := false })

/-- A transaction goes on after the owner of its line has turned out to hold it no longer: a recall has one answer more, an access that
waits at its unit finds the line free, and a request is served from memory. -/
def State.goOn (s : State) (n line : Nat) (x : Txn) : State :=
  if !x.inner then s.serveAgain line x.msg
  else if x.msg.kind = .snpinv then s.recallAck n line x
  else s.endTxn line

/-- An invalidation is done (R289): after the last one the transaction ends. -/
def State.ackIn (s : State) (n line : Nat) : State :=
  match s.handOf line with
  | none => s
  | some x =>
    if !x.acks.contains n || decide (x.msg.kind = .snpinv) then s
    else
      let l := x.acks.erase n
      if !l.isEmpty then s.setHand line (some { x with acks := l })
      else (if x.inner then s else match x.msg.kind with
        | .wrnc => s.finishNc x.msg
        | .atom => s.finishNc x.msg
        | _ => s.send (reply x.msg .cmp [] false)).endTxn line

/-- The line lies in a granule that is being scrubbed, or outside memory. -/
def State.scrubbed (s : State) (line : Nat) : Bool :=
  match granuleOf (64 * line) with | some g => decide (entState (s.granule g) = 2) | none => true

/-- The data of a dirty copy written to memory; of a granule that is being scrubbed it is discarded (R291). -/
def State.acceptDirty (s : State) (line : Nat) (d : Bytes) : State :=
  if d.length = 64 && !s.scrubbed line then s.putLine line d else s

/-- A snoop response of a node that has supplied its line, clean or dirty: for a request that was in hand, for an access that waits at its
unit, or for one of a host that has been lost (Table 12.4). -/
def State.rspHit (s : State) (n line : Nat) (x : Txn) (dirty : Bool) (d : Bytes) : State :=
  let m := x.msg
  let s := if dirty && decide (m.kind ≠ .rdx) && decide (m.kind ≠ .upg) && decide (m.kind ≠ .rdnc) then s.acceptDirty line d else s
  (match m.kind with
   | .rds => s.setFilter line { owner := none, sharers := bit193 n ||| (if x.inner then 0 else bit193 m.src) }
   | .rdnc => if x.inner && decide (d.length = 64) then s.lend line m.src (some d) else s
   | .wrnc => if x.inner then s.setFilter line {} else (s.setFilter line {}).finishNc m
   | .atom => if x.inner then s.setFilter line {} else (s.setFilter line {}).finishNc m
   | _ => s.setFilter line (if x.inner then {} else { owner := some m.src, sharers := 0 })).endTxn line

/-- A snoop response (Table 12.4, R290). -/
def State.rspIn (s : State) (n line : Nat) (r : SnpRsp) (d : Bytes) : State :=
  match s.handOf line with
  | none => s
  | some x =>
    let ofRecall := decide (x.msg.kind = .snpinv)
    if !(if ofRecall then x.acks.contains n else x.snoop) then s
    else
      let f := s.filterOf line
      match r with
      | .wbpend =>
        if f.owner = some n then s.setHand line (some { x with snoop := false, wbpend := true })
        else (s.ackWb n line).goOn n line { x with snoop := false }
      | .miss => (if ofRecall then s else s.setFilter line { f with owner := none }).goOn n line { x with snoop := false }
      | _ =>
        if ofRecall then (if r = .dirty then s.acceptDirty line d else s).recallAck n line x
        else (s.setHand line (some { x with snoop := false })).rspHit n line x (decide (r = .dirty)) d

/-- A write-back reaches the home (R290): it takes effect before any grant to another node. In a granule that is being
scrubbed it is discarded (R291). -/
def State.wbIn (s : State) (n line : Nat) (d : Bytes) : State :=
  let f := s.filterOf line
  let s := (s.acceptDirty line d).setFilter line { f with owner := if f.owner = some n then none else f.owner }
  match s.handOf line with
  | none => s.ackWb n line
  | some x =>
    if x.wbpend then (s.ackWb n line).goOn n line { x with wbpend := false }
    else if (x.snoop ∨ (x.msg.kind = .snpinv ∧ x.acks.contains n)) ∧ f.owner = some n then s
    else s.ackWb n line

/-- The host gives up what it holds of this package, with the answers that it owes (R350, R299; DESIGN CHOICE, assumption 31). -/
def State.hostGivesUp (s : State) : State :=
  let s := s.coh.hand.foldl (fun (s : State) p =>
    match s.handOf p.1 with
    | none => s
    | some x =>
      if x.acks.contains 192 then (if x.msg.kind = .snpinv then s.rspIn 192 p.1 .miss [] else s.ackIn 192 p.1)
      else if (x.snoop || x.wbpend) && decide ((s.filterOf p.1).owner = some 192) then (s.setHand p.1 (some { x with snoop := true, wbpend := false })).rspIn 192 p.1 .miss []
      else s) s
  s.coh.filter.foldl (fun (s : State) p =>
    let f := s.filterOf p.1
    if f.owner = some 192 ∨ f.sharers.getLsbD 192 then
      s.setFilter p.1 { owner := if f.owner = some 192 then none else f.owner, sharers := f.sharers &&& ~~~(bit193 192) }
    else s) s

/-! ### The L2 and its snoops (R284, R287, R290) -/

/-- A snoop reaches a tile's L2 (object 0x1B11). -/
def State.countSnoop (s : State) (t : Nat) : State :=
  s.onTile t (fun x => { x with xlat := { x.xlat with cnt := tabSet 0 x.xlat.cnt 4 (Nat.min (tabGet 0 x.xlat.cnt 4 + 1) (2 ^ 64 - 1)) } })

/-- The answer of an L2 to a snoop. The data of an access that no message can reach, of another package, of S, or of the host's
non-caching reads, comes with the response to the home (DESIGN CHOICE, assumption 30). -/
def State.answerSnoop (s : State) (t line : Nat) (k : MsgKind) (req : Nat) : State :=
  let s := s.countSnoop t
  let rsp (r : SnpRsp) (d : Bytes) : Msg := { kind := .snprsp, line := line, src := t, dst := homeNode, rsp := r, data := d, req := req }
  let node := req % 256
  let direct := decide (node < 192) || (decide (node = 192) && decide (req / 256 = 0))
  let give (s : State) (k : MsgKind) (d : Bytes) : State :=
    if !direct then s else s.send { kind := k, line := line, src := t, dst := node, data := d, unit_ := req / 256 }
  if (s.wbOf t line).isSome then s.send (rsp .wbpend [])
  else
    let l := s.l2 t line
    let dirty := decide (l.st = .m)
    match k with
    | .inv => (s.setL2 t line {}).send { kind := .invack, line := line, src := t, dst := homeNode }
    | .snps =>
      if l.st = .i then s.send (rsp .miss [])
      else (give (s.setL2 t line { l with st := .s }) .data l.data).send
        (rsp (if dirty then .dirty else .clean) (if dirty then l.data else []))
    | .snpx =>
      if l.st = .i then s.send (rsp .miss [])
      else (give (s.setL2 t line {}) .datax l.data).send (rsp (if dirty then .dirty else .clean) [])
    | .snpcur =>
      if l.st = .i then s.send (rsp .miss [])
      else (give s .data l.data).send (rsp (if dirty then .dirty else .clean) (if direct then [] else l.data))
    | _ =>
      if l.st = .i then s.send (rsp .miss [])
      else (s.setL2 t line {}).send (rsp (if dirty then .dirty else .clean) (if dirty then l.data else []))

def MsgKind.snoopCode : MsgKind → Nat
  | .snps => 0
  | .snpx => 1
  | .snpcur => 2
  | .snpinv => 3
  | _ => 4

def snoopOfCode : Nat → MsgKind
  | 0 => .snps
  | 1 => .snpx
  | 2 => .snpcur
  | 3 => .snpinv
  | _ => .inv

def isAtomDest : Dest → Bool
  | .atom _ _ => true
  | _ => false

/-- A snoop arrives at an L2: it is held while the line's own grant is due and no copy is held (R287). -/
def State.snoop (s : State) (t line : Nat) (k : MsgKind) (req : Nat) : State :=
  let x := s.tile t
  if x.l2.out.any (fun o => decide (o.line = line) && !isAtomDest o.dest && (o.granted || decide ((l2Find x.l2 line).st = .i))) && (s.wbOf t line).isNone then
    s.onTile t (fun x => { x with l2 := { x.l2 with held := x.l2.held ++ [(line, k.snoopCode, req)] } })
  else
    s.answerSnoop t line k req

/-- The snoops held for a line are answered after its grant has been used. -/
def State.releaseHeld (s : State) (t line : Nat) : State :=
  let h := (s.tile t).l2.held.filter (fun p => decide (p.1 = line))
  let s := s.onTile t (fun x => { x with l2 := { x.l2 with held := x.l2.held.filter (fun p => decide (p.1 ≠ line)) } })
  h.foldl (fun (s : State) p => s.answerSnoop t line (snoopOfCode p.2.1) p.2.2) s

/-! ### Where loaded data goes -/

/-- A loaded value extended to 64 bits. -/
def extendTo64 (signed : Bool) (b : Bytes) : U64 :=
  if signed then BitVec.ofInt 64 (toSigned (8 * b.length) (leNat b)) else BitVec.ofNat 64 (leNat b)

/-- A load's bytes written to x registers (two above 8 bytes), or to an f register. -/
def State.putX (s : State) (t r n : Nat) (signed : Bool) (b : Bytes) : State :=
  if 8 < n then (s.setX t r (BitVec.ofNat 64 (leNat (b.take 8)))).setX t (r + 1) (extendTo64 signed (b.drop 8))
  else s.setX t r (extendTo64 signed b)

def State.putF (s : State) (t r : Nat) (b : Bytes) : State := s.setF t r (BitVec.ofNat 64 (leNat b))

/-- One part of a load that spans two lines: the register is written when both have arrived. -/
def State.putHalf (s : State) (t : Nat) (r : Fin 32) (fp : Bool) (n : Nat) (signed : Bool) (off : Nat) (b : Bytes) : State :=
  match (s.tile t).core.halves.find? (fun h => decide (h.r = r) && decide (h.fp = fp)) with
  | none => s.onTile t (fun x => { x with core := { x.core with halves := ⟨r, fp, off, b⟩ :: x.core.halves } })
  | some h =>
    let s := s.onTile t (fun x => { x with core := { x.core with halves := x.core.halves.erase h } })
    let all := if off < h.off then b ++ h.data else h.data ++ b
    if fp then s.putF t r.val all else s.putX t r.val n signed all

/-- A value delivered to its destination (R66); the old value of a 32-bit atomic is sign-extended (R294). -/
def State.deliver (s : State) (t : Nat) (d : Dest) (b : Bytes) : State :=
  match d with
  | .xreg r n sg => s.putX t r.val n sg b
  | .freg r => s.putF t r.val b
  | .half r fp n sg off => s.putHalf t r fp n sg off b
  | .atom r n => s.putX t r.val n (decide (n = 4)) b
  | .store => s

/-- Bytes written into a line that a tile's L2 holds in E or M (R292): the line is M, and what had been lent of it is out of date. `pa` is
a physical or a local address. -/
def State.l2Write (s : State) (t pa : Nat) (b : Bytes) : State :=
  let line := lineOf (localOf pa)
  let l := s.l2 t line
  (s.setL2 t line { st := .m, data := l.data.take (pa % 64) ++ b ++ l.data.drop (pa % 64 + b.length) }).lend line 0 none

/-- One request of a tile that its line now satisfies: a load takes its bytes, a store writes them and makes the line M. -/
def State.useLine (s : State) (t : Nat) (o : Outstanding) : State :=
  let l := s.l2 t o.line
  if o.write then
    match (s.tile t).core.storeQ.find? (fun p => decide (p.addr = o.addr) && decide (p.data.length = o.size)) with
    | none => s
    | some p =>
      let s := s.l2Write t o.addr p.data
      s.onTile t (fun x => { x with core := { x.core with storeQ := x.core.storeQ.erase p } })
  else s.deliver t o.dest ((l.data.drop (o.addr % 64)).take o.size)

/-- The requests of a tile for a line that a grant satisfies are performed and dropped, and held snoops are answered. A load
is satisfied by any grant, a store by one that allows writing. -/
def State.performLine (s : State) (t line : Nat) (canWrite : Bool) : State :=
  let ok := fun (o : Outstanding) => decide (o.line = line) && (!o.write || canWrite)
  let l := (s.tile t).l2.out.filter ok
  let s := s.onTile t (fun x => { x with l2 := { x.l2 with out := x.l2.out.filter (fun o => !ok o) } })
  (l.foldl (fun (s : State) o => s.useLine t o) s).releaseHeld t line

end Sys2Proof.Machine
end

