-- ==== Sys2Proof/Machine/Curve.lean ====
section
/-!
DEFINITION. Curve.lean: ECDSA and ECDH over P-256 (00 R15, Table 0.6), written from the standards that the spec names: PRESUMED
(assumption 4).
-/
namespace Sys2Proof.Crypto

/-- The number a signer multiplies the base point by. Neither the spec nor the standard fixes it: a free value of the key and of what is
signed (assumption 4). -/
opaque signNonce (priv : Nat) (m : Bytes) : Nat

/-- The prime of the field, the order of the group, the coefficient *b* and the base point. -/
def p256 : Nat := 2 ^ 256 - 2 ^ 224 + 2 ^ 192 + 2 ^ 96 - 1
def p256Order : Nat := 0xFFFFFFFF00000000FFFFFFFFFFFFFFFFBCE6FAADA7179E84F3B9CAC2FC632551
def p256B : Nat := 0x5AC635D8AA3A93E7B3EBBD55769886BC651D06B0CC53B0F63BCE3C3E27D2604B
def baseX : Nat := 0x6B17D1F2E12C4247F8BCE6E563A440F277037D812DEB33A0F4A13945D898C296
def baseY : Nat := 0x4FE342E2FE1A7F9B8EE7EB4A7C0F9E162BCE33576B315ECECBB6406837BF51F5

/-- A power modulo `m`: the exponent's bits from bit `n − 1` down. -/
def powMod (m x e : Nat) : Nat → Nat
  | 0 => 1
  | n + 1 =>
    let y := powMod m x (e / 2) n
    let y := y * y % m
    if e % 2 = 1 then y * x % m else y

/-- The inverse modulo a prime. -/
def invMod (m x : Nat) : Nat := powMod m (x % m) (m - 2) 256

/-- A point in Jacobian coordinates; Z is 0 at infinity. -/
structure Point where
  x : Nat
  y : Nat
  z : Nat

/-- `a − b` in the field, for `b` less than the prime. -/
def subP (a b : Nat) : Nat := (a + p256 - b) % p256

/-- Twice a point. -/
def Point.double (a : Point) : Point :=
  let d := a.z * a.z % p256
  let g := a.y * a.y % p256
  let b := a.x * g % p256
  let m := 3 * (subP a.x d * (a.x + d)) % p256
  let x := subP (m * m) (8 * b % p256)
  ⟨x, subP (m * subP (4 * b % p256) x) (8 * (g * g) % p256), 2 * (a.y * a.z) % p256⟩

/-- The sum of two points. -/
def Point.add (a b : Point) : Point :=
  if a.z = 0 then b
  else if b.z = 0 then a
  else
    let za := a.z * a.z % p256
    let zb := b.z * b.z % p256
    let u := a.x * zb % p256
    let s := a.y * zb % p256 * b.z % p256
    let h := subP (b.x * za) u
    let r := subP (b.y * za % p256 * a.z) s
    if h = 0 then (if r = 0 then a.double else ⟨1, 1, 0⟩)
    else
      let h2 := h * h % p256
      let h3 := h * h2 % p256
      let v := u * h2 % p256
      let x := subP (r * r) ((h3 + 2 * v) % p256)
      ⟨x, subP (r * subP v x) (s * h3 % p256), h * a.z % p256 * b.z % p256⟩

/-- A multiple of a point, from the bits of the number below bit `n`. -/
def Point.mulBits (a : Point) (k : Nat) : Nat → Point
  | 0 => ⟨1, 1, 0⟩
  | n + 1 =>
    let t := (a.mulBits (k / 2) n).double
    if k % 2 = 1 then t.add a else t

def Point.mul (a : Point) (k : Nat) : Point := a.mulBits k 256

def base : Point := ⟨baseX, baseY, 1⟩

/-- The two coordinates of a point that is not at infinity. -/
def Point.affine (a : Point) : Nat × Nat :=
  let i := invMod p256 a.z
  (a.x * (i * i % p256) % p256, a.y * (i * i % p256 * i % p256) % p256)

/-- The point that 65 bytes encode: 0x04 and the two coordinates. None where they are no point of the curve. -/
def pointOf (b : Bytes) : Option Point :=
  let x := beVal ((b.drop 1).take 32)
  let y := beVal ((b.drop 33).take 32)
  if b.length = 65 ∧ b.take 1 = [4] ∧ x < p256 ∧ y < p256 ∧ y * y % p256 = (x * x % p256 * x + (p256 - 3) * x + p256B) % p256 then some ⟨x, y, 1⟩ else none

/-- The 65 bytes of a point. -/
def Point.bytes (a : Point) : Bytes := 4 :: (be 32 a.affine.1 ++ be 32 a.affine.2)

/-- The public key of a P-256 key pair. -/
@[irreducible] def publicKey (priv : Nat) : Bytes := (base.mul (priv % p256Order)).bytes

/-- What an exchange with a key that is no point of the curve gives: the spec states no result (assumption 4). -/
opaque offCurve (priv : Nat) (peer : Bytes) : Nat

/-- The x coordinate of a private key times a point. -/
def xOf (priv : Nat) (q : Point) : Bytes := be 32 (q.mul (priv % p256Order)).affine.1

/-- The shared secret of an ECDH exchange. -/
@[irreducible] def ecdh (priv : Nat) (peer : Bytes) : Bytes :=
  match pointOf peer with
  | some q => xOf priv q
  | none => be 32 (offCurve priv peer)

/-- An ECDSA signature with SHA-256 over a byte string: r ‖ s, each 32 bytes big-endian. -/
@[irreducible] def sign (priv : Nat) (m : Bytes) : Bytes :=
  let k := signNonce priv m % (p256Order - 1) + 1
  let r := (base.mul k).affine.1 % p256Order
  let s := invMod p256Order k * ((beVal (hash256 m) + r * (priv % p256Order)) % p256Order) % p256Order
  be 32 r ++ be 32 s

/-- The check of an ECDSA signature. -/
@[irreducible] def verify (pub m sig : Bytes) : Bool :=
  match pointOf pub with
  | none => false
  | some q =>
    let r := beVal (sig.take 32)
    let s := beVal (sig.drop 32)
    let w := invMod p256Order s
    let t := (base.mul (beVal (hash256 m) * w % p256Order)).add (q.mul (r * w % p256Order))
    decide (sig.length = 64) && decide (0 < r ∧ r < p256Order) && decide (0 < s ∧ s < p256Order) && decide (t.z ≠ 0) && decide (t.affine.1 % p256Order = r)

end Sys2Proof.Crypto
end

