-- ==== Sys2Proof/Machine/LinkOps.lean ====
section
/-!
DEFINITION. Machine/LinkOps.lean: what the fabric router does for every command that meets it: sealing, routing, remote
transactions, and in-router reduction (14 R316 to R335).
-/
namespace Sys2Proof.Machine
open Sys2Proof

/-! ### Ports -/

def State.port (s : State) (p : Nat) : Port := tabGet ({} : Port) s.fab.ports p

def State.setPort (s : State) (p : Nat) (x : Port) : State := { s with fab := { s.fab with ports := tabSet ({} : Port) s.fab.ports p x } }

def State.onPort (s : State) (p : Nat) (f : Port → Port) : State := s.setPort p (f (s.port p))

/-- A port's new state, with the flits that it has put on its link counted (objects 0x1C50, 0x1E10.01). Port 32 is the Hedom link. -/
def State.sentPort (s : State) (p : Nat) (f : LinkKind → Port → Port) : State :=
  if p = 32 then
    let y := f hedomLink s.hedom.link
    { s with hedom := { s.hedom with link := y } }.bump 0x1E10 1 (Port.sentSince s.hedom.link y)
  else
    let y := f fabricLink (s.port p)
    (s.setPort p y).bump 0x1C50 (p + 1) (Port.sentSince (s.port p) y)

/-- A flit leaves the input buffer that it stands in, unless its link has been down since. -/
def Hold.giveBack (h : Hold) (x : Port) : Port := if x.era = h.era then x.giveBack [h.kind] else x

/-- Flits leave input buffers; their credits go back on IDLE flits where no other flit takes them (R312, R320). -/
def State.release (s : State) (l : List Hold) : State :=
  l.foldl (fun (s : State) h => s.sentPort h.port (fun k x => (h.giveBack x).idle k 16)) s

/-- What a port can send is sent; the packets that begin to leave give back the room that they took on arrival. -/
def State.sendPort (s : State) (p : Nat) : State :=
  let s := s.sentPort p (fun k x => x.pump k)
  (s.onPort p (fun x => { x with freed := [] })).release (s.port p).freed

/-- A message of link management as packets on MGT. The spec gives the opcodes 0x20 to 0x27 and no layout: one packet for each part, in
the order of R336 (DESIGN CHOICE, assumption 93). -/
def mgtPackets (code : Nat) (parts : List Bytes) : List Packet :=
  parts.zipIdx.map (fun (b : Bytes × Nat) => ({ opc := 0x20 + code + b.2, len := (b.1.take 4096).length, data := b.1.take 4096 } : Packet))

/-- Step 1 of the exchange of R336: this end's chain, report and fresh random value, with its port number. -/
def State.sayHello (s : State) (p : Nat) : State :=
  let random := BitVec.ofNat 256 (freeValue s.freeCtr 33 p)
  s.onPort p (fun x => { x with
    reportSent := s.fw.report, myRandom := random
    out := x.out ++ mgtPackets 0 [s.fw.chain, s.fw.report, natBeBytes 32 random.toNat ++ natBeBytes 1 p] })

/-- This end asks for a rekey (R337): after 2^40 flits, or 24 h. -/
def State.askRekey (s : State) (p : Nat) : State :=
  let x := s.port p
  if x.st = .up ∧ !x.asked ∧ (2 ^ 40 ≤ x.sinceKey ∨ 8640000000 ≤ s.gov.uptime - x.keyAt) then
    ((s.sayHello p).onPort p (fun x => { x with asked := true })).sendPort p
  else s

/-- What a port can send is sent (R320, R321). -/
def State.pumpPort (s : State) (p : Nat) : State := (s.sendPort p).askRekey p

/-- The ports whose keys are due for a change ask for one: looked at once a second (R337). -/
def State.agePorts (s : State) : State :=
  if s.gov.tick % 100000 = 0 then (List.range 32).foldl (fun (s : State) p => s.askRekey p) s else s

def leField (b : Bytes) (i n : Nat) : Nat := leNat ((b.drop i).take n)

/-- The transcript that the ephemeral keys are signed over: both random values, both package IDs, both port numbers and both reports,
the lower package ID's first (assumption 4). -/
def Port.transcript (x : Port) (p : Nat) (eph : Bytes) : Bytes :=
  let lower := decide (leField x.reportSent 24 2 ≤ leField x.peerReport 24 2)
  let both := fun (a b : Bytes) => if lower then a ++ b else b ++ a
  eph ++ both (natBeBytes 32 x.myRandom.toNat) (natBeBytes 32 x.peerRandom.toNat) ++ both ((x.reportSent.drop 24).take 2) ((x.peerReport.drop 24).take 2)
    ++ both (natBeBytes 1 p) (natBeBytes 1 x.peerPort) ++ both x.reportSent x.peerReport

/-- This end's step 3: its ephemeral public key, signed with the attestation key over the transcript. -/
def State.sayKey (s : State) (p : Nat) : State :=
  let x := s.port p
  let pub := Crypto.publicKey x.myEph.toNat
  match s.fw.attKey with
  | some k => (s.setPort p { x with out := x.out ++ mgtPackets 3 [pub, Crypto.sign k.toNat (x.transcript p pub)] }).sendPort p
  | none => s

/-- A port or the Hedom link goes to FAILED: what its replay buffer, its queue and its input buffer hold is discarded (R315). -/
def Port.fail (x : Port) : Port :=
  { x with
    st := .failed, lanes := 0, replay := [], out := [], parts := [], tails := [], replays := 0, asking := false, rtry := false, news := false
    buf := [], back := [], era := x.era + 1, freed := x.freed ++ x.out.flatMap (fun p => p.held), tx := none, rx := none, rekeying := none
    step := 0, resume := false, asked := false }

/-- A port leaves its state by `f`, which discards what waited on it. -/
def State.takeDown (s : State) (p : Nat) (f : Port → Port) : State :=
  let y := f (s.port p)
  (s.setPort p { y with freed := [] }).release y.freed

/-- The error record of a link that has failed (R451 to R453). -/
def State.linkError (s : State) (src munit : Nat) : State :=
  (s.error { cls := 3, src := BitVec.ofNat 8 src, kind := 4, munit := BitVec.ofNat 8 munit }).alert 9

def State.failPort (s : State) (p : Nat) : State := (s.takeDown p Port.fail).linkError 0x31 p

/-! ### Sealing (R318) -/

def sealNonce (p : Packet) : Nat := p.spid * 2 ^ 80 + p.sealer.toNat * 2 ^ 72 + p.sealCnt

def sealAad (p : Packet) : Bytes := p.header fabricLink 0 ++ p.ext

/-- The Cloak of this package that holds a group, 0 for none. -/
def State.memberOf (s : State) (g : U16) : Nat :=
  match (rangeFrom 1 64).find? (fun k => decide ((s.cloak k).group = some g)) with
  | some k => k
  | none => 0

/-- A packet's data sealed under a key, with the sealer and the counter that stand in it. -/
def Packet.sealWith (p : Packet) (key : BitVec 256) : Packet :=
  { p with data := Crypto.gcmSeal key.toNat (sealNonce p) (sealAad p) p.data, gcm := Crypto.gcmTag key.toNat (sealNonce p) (sealAad p) p.data }

/-- The group key in the slot of the unit that seals: Glide's of a tile, or the router's for a Cloak. -/
def State.sealKeyOf (s : State) (k : Nat) (tile : Option Nat) : Option (BitVec 256) :=
  match tile with | some t => (s.tile t).glide.grpKey | none => (s.cloak k).grpKey

/-- A packet sealed under a Cloak's group key, by the Glide of a tile or by the router; none where the slot is empty or the unit's counter
is exhausted. -/
def State.seal (s : State) (k : Nat) (tile : Option Nat) (p : Packet) : Option (Packet × State) :=
  match s.sealKeyOf k tile, (s.cloak k).group with
  | some key, some g =>
    let n := match tile with | some t => kvGet 0 s.fab.glideCnt t | none => tabGet 0 s.fab.sealCnt k
    if 2 ^ 56 ≤ n then none
    else
      let p := { p with sealed := true, group := g, sealer := BitVec.ofNat 8 (match tile with | some t => t | none => 192), sealCnt := n }
      some (p.sealWith key, match tile with
        | some t => { s with fab := { s.fab with glideCnt := kvSet 0 s.fab.glideCnt t (n + 1) } }
        | none => { s with fab := { s.fab with sealCnt := tabSet 0 s.fab.sealCnt k (n + 1) } })
  | _, _ => none

/-- A sealed packet opened under a key: its plaintext, where the tag verifies. -/
def Packet.openWith (p : Packet) (key : BitVec 256) : Option Packet :=
  let d := Crypto.gcmOpen key.toNat (sealNonce p) (sealAad p) p.data
  if Crypto.gcmTag key.toNat (sealNonce p) (sealAad p) d = p.gcm then some { p with data := d } else none

/-! ### Routing (R323 to R325) -/

def State.routeEntry (s : State) (id : Nat) : Nat := s.obj (0x1D00 + id / 128) (id % 128 + 1)

/-- The ports that an entry names. -/
def routePorts (e : Nat) : List Nat := [field e 13 9, field e 18 14, field e 23 19, field e 28 24].take (field e 30 29 + 1)

/-- The port that a packet leaves by. -/
def State.egress (s : State) (p : Packet) : Option Nat :=
  let e := s.routeEntry p.dpid
  if !bit e 31 then none
  else
    let up := (routePorts e).filter (fun q => decide ((s.port q).st = .up))
    if up.isEmpty then none else some (up.getD (portHash p.spid p.dpid (field p.addr 43 12) % up.length) 0)

def isRequest (opc : Nat) : Bool := decide (opc = 1 ∨ opc = 2 ∨ opc = 3)

/-- The status of a packet that cannot be forwarded: 5 HOPS, 4 UNREACH. -/
def State.stuck (s : State) (p : Packet) : Option Nat :=
  if p.hops = 0 then some 5 else match s.egress p with | none => some 4 | some _ => none

/-- A packet put on its way, with its hops lowered; through a dateline port it moves to class 1 (R322). -/
def State.emit (s : State) (p : Packet) : State :=
  match s.egress p with
  | none => s
  | some q =>
    let c := p.cls || decide (s.obj 0x1C03 (q + 1) = 1)
    (s.onPort q (fun x => { x with out := x.out ++ [{ p with hops := p.hops - 1, cls := c }] })).pumpPort q

/-- A packet for this package waits for its command. A request waits in the input buffer that it arrived in; a response or a reduction
packet goes into room that was reserved for it (R319). -/
def State.toInbox (s : State) (p : Packet) : State :=
  if isRequest p.opc then { s with fab := { s.fab with inbox := s.fab.inbox ++ [p] } }
  else { s with fab := { s.fab with inbox := s.fab.inbox ++ [{ p with held := [] }] } }.release p.held

/-- A packet dropped or discarded (object 0x1C60.02). -/
def State.dropPacket (s : State) (p : Packet) : State := (s.release p.held).bump 0x1C60 2 1

/-- A packet of which this package is the destination goes to the inbox; any other is forwarded, or discarded where it
cannot be. -/
def State.deliverOrForward (s : State) (p : Packet) : State :=
  if p.dpid = s.pkg then s.toInbox p
  else if (s.stuck p).isSome then s.dropPacket p
  else s.emit p

/-- The ERR answer to a request (R325). -/
def errFor (own : Nat) (hops : Nat) (p : Packet) (status : Nat) : Packet :=
  { dpid := p.spid, spid := own, opc := 0x13, tag := p.tag, hops := hops, addr := status, bulk := p.bulk }

/-- A packet that is not for this package leaves by its route, or is discarded; a request that cannot leave is answered ERR. -/
def State.sendOn (s : State) (p : Packet) : State :=
  match s.stuck p with
  | none => s.emit p
  | some st => if isRequest p.opc then (s.release p.held).deliverOrForward (errFor s.pkg (s.obj 0x1C00 6) p st) else s.dropPacket p

/-- The flits that a packet fills (R312, R314), and their charge where it passes through this package (R421, Table 19.4). -/
def transitCharge (p : Packet) : Nat := 8 * (((p.bytes fabricLink).length + 235) / 236)

/-- Transit waits for its charge on the shared pool, in order (R421). -/
def State.passOn : List Packet → State → State
  | [], s => { s with fab := { s.fab with transit := [] } }
  | p :: ps, s =>
    match s.chargeShared (transitCharge p) with
    | (true, s) => State.passOn ps (s.sendOn p)
    | (false, s) => { s with fab := { s.fab with transit := p :: ps } }

def State.runTransit (s : State) : State := if s.fab.transit.isEmpty then s else State.passOn s.fab.transit s

/-- A request that passes through this package from another one to a third: transit REQ or BULK-Q. -/
def State.inTransit (s : State) (p : Packet) : Bool := isRequest p.opc && decide (p.spid ≠ s.pkg)

/-- A packet forwarded, or sent from this package. -/
def State.forward (s : State) (p : Packet) : State :=
  if p.dpid = s.pkg then s.toInbox p
  else if s.inTransit p then State.passOn (s.fab.transit ++ [p]) s
  else s.sendOn p

/-- An answer from this package: sealed by the router where its request was of a Cloak group. An ERR that no key of this package can
seal leaves unsealed, as a transit router's does (R325, R327: a GROUP that the table does not hold is answered AUTH). -/
def State.answer (s : State) (req : Packet) (opc : Nat) (status : Nat) (data : Bytes) : State :=
  let p : Packet := { dpid := req.spid, spid := s.pkg, opc := opc, len := data.length, tag := req.tag, hops := s.obj 0x1C00 6, addr := status, data := data, bulk := req.bulk }
  if req.group = 0 then s.forward p
  else match s.seal (s.memberOf req.group) none p with
    | some (p, s) => s.forward p
    | none => if opc = 0x13 then s.forward p else s.dropPacket p

/-! ### Reduction (R330 to R335) -/

/-- Bytes put into a byte string at an offset. -/
def bytesPut : Bytes → Nat → Bytes → Bytes
  | l, _, [] => l
  | [], 0, b :: bs => b :: bytesPut [] 0 bs
  | [], n + 1, b => 0 :: bytesPut [] n b
  | _ :: xs, 0, b :: bs => b :: bytesPut xs 0 bs
  | x :: xs, n + 1, b => x :: bytesPut xs n b

def redBase (e : Nat) : Nat := field e 127 96 * 4096
def redSize (e : Nat) : Nat := (field e 95 78 + 1) * 4096
def redRoot (e : Nat) : Nat := field e 77 66
def redGroup (e : Nat) : U16 := BitVec.ofNat 16 (field e 65 50)
def redTree (e : Nat) : Nat := field e 49 42
def redFmt (e : Nat) : Nat := field e 41 38
def redOne (e : Nat) : Bool := bit e 37
def redState (e : Nat) : Nat := field e 35 33

/-- An entry with EN and STATE replaced. -/
def redWith (e : Nat) (en : Bool) (st : Nat) : Nat := e / 2 ^ 37 * 2 ^ 37 + flag en * 2 ^ 36 + st * 2 ^ 33

def State.redEntry (s : State) (i : Nat) : Nat := s.obj 0x1C30 (i + 1)

def State.tree (s : State) (n : Nat) : Nat := s.obj (0x1C20 + n / 128) (n % 128 + 1)

def treeChildren (t : Nat) : List Nat := (List.range (field t 103 100)).map (fun j => field t (12 * j + 11) (12 * j))

/-- The entry whose range holds some of `n` bytes, of a root and a group, in one of the states given. -/
def State.findRed (s : State) (root a n : Nat) (g : U16) (sts : List Nat) : Option Nat :=
  (List.range 64).find? (fun i =>
    let e := s.redEntry i
    sts.contains (redState e) && decide (redRoot e = root) && decide (redGroup e = g) && decide (redBase e < a + n) && decide (a < redBase e + redSize e))

def redFormat (e : Nat) : Fmt := match fmtOfCode (redFmt e) with | some f => f | none => f32

/-- Elements of a chunk as accumulator values: FP32 bits, or INT32. -/
def redElems (e : Nat) (b : Bytes) : List Nat :=
  let w := (redFormat e).width / 8
  (List.range (256 / w)).map (fun i =>
    let v := leNat ((b.drop (w * i)).take w)
    if redFmt e = 10 then v else (convert false f32 .rne (decodeVal (redFormat e) v)).bits)

/-- Two accumulator values added (R332), and whether the sum saturated. -/
def redAdd (e x y : Nat) : Nat × Bool :=
  if redFmt e = 10 then
    let c := convert false i32 .rne (Val.add .rne (decodeVal i32 x) (decodeVal i32 y)).v
    (c.bits, c.counted)
  else
    let c := convert false f32 .rne (Val.add .rne (decodeVal f32 x) (decodeVal f32 y)).v
    (c.bits, c.counted)

/-- The bytes of a sum rounded once to FMT, and the number of its elements that saturated. -/
def redBytes (e : Nat) (acc : List Nat) : Bytes × Nat :=
  let f := redFormat e
  let c := acc.map (fun v => if redFmt e = 10 then (⟨v, 0, false, false⟩ : Conv) else convert false f .rne (decodeVal f32 v))
  ((c.map (fun x => natLe (f.width / 8) x.bits)).flatten, countIf (fun x => x.counted) c)

/-- A packet between tree neighbours, sealed for a group. -/
def State.redSend (s : State) (e : Nat) (p : Packet) : State :=
  let p := { p with spid := s.pkg, hops := s.obj 0x1C00 6 }
  if redGroup e = 0 then s.forward p
  else match s.seal (s.memberOf (redGroup e)) none p with
    | some (p, s) => s.forward p
    | none => s

/-- The lowest chunk whose result has not reached this member, moved past the results that have, round after round: the results that
have been passed are forgotten, those of the next round stay. -/
def lowOn (i n : Nat) : Nat → Nat → List (Nat × Nat) → Nat × List (Nat × Nat)
  | 0, low, done => (low, done)
  | m + 1, low, done =>
    if done.contains (i, low) then lowOn i n m (if n ≤ low + 1 then 0 else low + 1) (done.erase (i, low)) else (low, done)

/-- The answer to a write that a reduction holds, once no part of it waits any more. -/
def State.redAnswer (s : State) (i opc st : Nat) (tags : List U16) : State :=
  tags.eraseDups.foldl (fun (s : State) t =>
    if s.fab.writes.any (fun w => decide (w.tag = t)) then s
    else s.toInbox { dpid := s.pkg, spid := redRoot (s.redEntry i), opc := opc, tag := t, addr := st }) s

/-- The result of a chunk has reached this member: its writes are acknowledged, and the window moves on. -/
def State.redReached (s : State) (i c : Nat) : State :=
  let mine := s.fab.writes.filter (fun w => decide (w.entry = i) && decide (w.chunk = c) && w.taken)
  let done := (i, c) :: s.fab.done
  let on := lowOn i (redSize (s.redEntry i) / 256) done.length (tabGet 0 s.fab.low i) done
  let s := { s with fab := { s.fab with
    writes := s.fab.writes.filter (fun w => !mine.contains w)
    chunks := s.fab.chunks.filter (fun x => !(decide (x.entry = i) && decide (x.chunk = c)))
    done := on.2
    low := tabSet 0 s.fab.low i on.1 } }
  s.redAnswer i 0x11 0 (mine.map (fun w => w.tag))

/-- A chunk's result sent to this member's children. -/
def State.redDown (s : State) (i c : Nat) (b : Bytes) : State :=
  let e := s.redEntry i
  (treeChildren (s.tree (redTree e))).foldl (fun (s : State) k =>
    s.redSend e { dpid := k, opc := 5, len := if redOne e then 0 else 256, group := redGroup e, addr := redBase e + 256 * c, data := if redOne e then [] else b }) s

/-- A contribution added to its chunk (R332). -/
def State.redAddTo (s : State) (i c from_ : Nat) (b : Bytes) : State :=
  let e := s.redEntry i
  let new := redElems e b
  let rest := s.fab.chunks.filter (fun x => !(decide (x.entry = i) && decide (x.chunk = c)))
  match s.fab.chunks.find? (fun x => decide (x.entry = i) && decide (x.chunk = c)) with
  | none => { s with fab := { s.fab with chunks := s.fab.chunks ++ [{ entry := i, chunk := c, acc := new, from_ := [from_] }] } }
  | some x =>
    let sums := (x.acc.zip new).map (fun p => redAdd e p.1 p.2)
    let y : RedChunk := { x with acc := sums.map (fun p => p.1), from_ := from_ :: x.from_ }
    let s := { s with fab := { s.fab with chunks := rest ++ [y] } }
    s.bump 0x1C60 3 (countIf (fun p => p.2) sums)

/-- Whether a waiting write can be taken now (R331): no contribution of this member stands in its chunk, none of its bytes has been taken
already, and the chunk lies in the window or its result has arrived. -/
def State.redTakes (s : State) (w : RedWrite) : Bool :=
  !w.taken
    && !(s.fab.chunks.any (fun x => decide (x.entry = w.entry) && decide (x.chunk = w.chunk) && x.from_.contains s.pkg))
    && !(s.fab.writes.any (fun v => decide (v.entry = w.entry) && decide (v.chunk = w.chunk) && v.taken
      && decide (v.off < w.off + w.data.length) && decide (w.off < v.off + v.data.length)))
    && decide (w.chunk < tabGet 0 s.fab.low w.entry + 4096)

/-- A chunk that holds NCHILD + 1 contributions and has not been passed on. -/
def State.redFull (s : State) (x : RedChunk) : Bool :=
  !x.forwarded && decide ((treeChildren (s.tree (redTree (s.redEntry x.entry)))).length + 1 ≤ x.from_.length)

/-- A full chunk that can be passed on: at the root, one whose lines are at rest. -/
def State.redComplete (s : State) (x : RedChunk) : Bool :=
  let e := s.redEntry x.entry
  s.redFull x && (decide (redRoot e ≠ s.pkg) || s.free 0xFFFD (redBase e + 256 * x.chunk) 256 true false)

def markForwarded (x y : RedChunk) : RedChunk := if y.entry = x.entry ∧ y.chunk = x.chunk then { y with forwarded := true } else y

/-- A result written to its range, where the entry's group reaches it (R5, R40, R51): OPEN memory for group 0, memory of the member
for a Cloak group. A write that the owner check refuses is counted and not performed. -/
def State.redWrite (s : State) (e a : Nat) (b : Bytes) : State :=
  let k := if redGroup e = 0 then 0 else s.memberOf (redGroup e)
  if (redGroup e = 0 || decide (k ≠ 0)) && s.reachesAll k a b.length then (s.cohWrite 0xFFFD a false b).2 else s.bump 0x1C60 1 1

/-- A complete chunk is passed to the parent as RED, or finished at the root (R331, R333). -/
def State.redPass (s : State) (x : RedChunk) : State :=
  let e := s.redEntry x.entry
  let r := redBytes e x.acc
  let s := s.bump 0x1C60 3 r.2
  if redRoot e = s.pkg then
    let s := s.redWrite e (redBase e + 256 * x.chunk) r.1
    (s.redDown x.entry x.chunk r.1).redReached x.entry x.chunk
  else
    let s := { s with fab := { s.fab with chunks := s.fab.chunks.map (markForwarded x) } }
    s.redSend e { dpid := field (s.tree (redTree e)) 115 104, opc := 4, len := 256, group := redGroup e, addr := redBase e + 256 * x.chunk, data := r.1 }

/-- This member's contribution to a chunk, once the writes taken cover all of its 256 bytes (assumption 33). -/
def State.redOwn (s : State) (i c : Nat) : Option Bytes :=
  let parts := s.fab.writes.filter (fun w => decide (w.entry = i) && decide (w.chunk = c) && w.taken)
  if 256 ≤ sumNat (parts.map (fun w => w.data.length)) then
    some (parts.foldl (fun (b : Bytes) w => bytesPut b w.off w.data) (List.replicate 256 0))
  else none

/-- Waiting writes are taken and complete chunks passed on, as far as they can be. -/
def State.redGo (s : State) : Nat → State
  | 0 => s
  | n + 1 =>
    match s.fab.writes.find? (fun w => s.redTakes w) with
    | some w =>
      let s := { s with fab := { s.fab with writes := s.fab.writes.map (fun v => if v = w then { v with taken := true } else v) } }
      (match s.redOwn w.entry w.chunk with
       | some b => s.redAddTo w.entry w.chunk s.pkg b
       | none => s).redGo n
    | none =>
      match s.fab.chunks.find? (fun x => s.redComplete x) with
      | some x => (s.redPass x).redGo n
      | none =>
        (s.fab.chunks.filter (fun x => s.redFull x)).foldl (fun (s : State) x =>
          s.callIn 0xFFFD (redBase (s.redEntry x.entry) + 256 * x.chunk) 256 true false) s

def State.redRun (s : State) : State := s.redGo (2 * (s.fab.writes.length + s.fab.chunks.length) + 2)

/-- An entry fails (R335): its store is freed, and its waiting writes are answered ERR REDFAIL. -/
def State.redFail (s : State) (i : Nat) : State :=
  let mine := s.fab.writes.filter (fun w => decide (w.entry = i))
  let s := (s.setObj 0x1C30 (i + 1) (redWith (s.redEntry i) (bit (s.redEntry i) 36) 3))
  let s := { s with fab := { s.fab with
    writes := s.fab.writes.filter (fun w => decide (w.entry ≠ i)), chunks := s.fab.chunks.filter (fun x => decide (x.entry ≠ i))
    done := s.fab.done.filter (fun p => decide (p.1 ≠ i)), low := tabSet 0 s.fab.low i 0 } }
  s.redAnswer i 0x13 9 (mine.map (fun w => w.tag))

/-! ### Remote transactions (R297, R316, R318, R326) -/

/-- What an access to another package gives: it is under way, or it faults locally with REMOTE. -/
inductive Remote where
  | sent (s : State)
  | fault
  deriving DecidableEq, Repr

/-- The parts of a write in each chunk that it covers: the chunk, where in it the part starts, and its bytes. -/
def chunkParts : Nat → Nat → Bytes → List (Nat × Nat × Bytes)
  | 0, _, _ => []
  | n + 1, o, b =>
    if b.isEmpty then []
    else (o / 256, o % 256, b.take (256 - o % 256)) :: chunkParts n (o - o % 256 + 256) (b.drop (256 - o % 256))

/-- A reduction takes a write as the local contribution to each chunk that it covers: it waits for their results (R331, R333). -/
def State.redTake (s : State) (i : Nat) (user : TxUser) (opc a : Nat) (data : Bytes) (pkg : Nat) : State :=
  let tag := s.fab.nextTag
  let e := s.redEntry i
  let t : RTxn := { tag := tag, user := user, opc := opc, addr := a, len := data.length, data := data, pkg := pkg }
  let s := { s with fab := { s.fab with nextTag := tag + 1, txns := s.fab.txns ++ [t] } }
  if redState e = 3 then s.toInbox { dpid := s.pkg, spid := pkg, opc := 0x13, tag := tag, addr := 9 }
  else
    let l := (chunkParts (data.length / 256 + 2) (a - redBase e) data).map (fun p => (⟨i, p.1, p.2.1, p.2.2, false, tag⟩ : RedWrite))
    { s with fab := { s.fab with writes := s.fab.writes ++ l } }.redRun

/-- The group that an access of a tile carries: 0 for the open domain and through a leaf with SHR. -/
def State.groupOf (s : State) (t : Nat) (shr : Bool) : Option U16 :=
  if shr ∨ s.tag t = 0 then some 0 else (s.cloak (s.tag t)).group

/-- The packet that still waits to leave, with its port, to which the router joins a request of a Glide stream (R317): one of the same
stream, sealed alike, whose addresses the request follows, with room for it in 4,096 bytes. -/
def State.joinable (s : State) (t : Nat) (r : GReq) (opc pa len : Nat) (g : U16) (glideKey : Bool) : Option (Nat × Packet) :=
  let same := fun (x : RTxn) => match x.user with | .glide u q => decide (u = t) && decide (q.stream = r.stream) | _ => false
  let ok := fun (p : Packet) =>
    p.bulk && decide (p.opc = opc) && decide (p.spid = s.pkg) && decide (p.dpid = pkgOf pa) && decide (p.group = g)
      && decide (p.addr + p.len = localOf pa) && decide (p.len + len ≤ 4096) && decide (p.sealed = true → (p.sealer ≠ 192 ↔ glideKey = true))
      && s.fab.txns.any (fun x => decide (x.tag = p.tag) && decide (x.pkg = p.dpid) && same x)
  if r.stream.isNone then none
  else (List.range 32).findSome? (fun q => ((s.port q).out.find? ok).map (fun p => (q, p)))

/-- A request joined to a waiting packet: it takes the packet's tag, and a sealed packet is sealed anew, with its counter, over all that it
now carries. -/
def State.joinTo (s : State) (t q : Nat) (p : Packet) (x : RTxn) (glideKey : Bool) : State :=
  let data := (s.fab.txns.filter (fun y => decide (y.tag = p.tag) && decide (y.pkg = p.dpid))).flatMap (fun y => y.data)
  let p' : Packet := { p with len := p.len + x.len, data := data ++ x.data }
  let p' := if p.sealed then (match s.sealKeyOf (s.tag t) (if glideKey then some t else none) with | some key => p'.sealWith key | none => p') else p'
  let s := s.onPort q (fun y => { y with out := y.out.map (fun (o : Packet) => if o = p then p' else o) })
  { s with fab := { s.fab with txns := s.fab.txns ++ [{ x with tag := p.tag }] } }

/-- An access of a tile to another package: `glideKey` says that Glide itself seals it (KSRC 0b01). -/
def State.remote (s : State) (t : Nat) (user : TxUser) (opc pa len : Nat) (data : Bytes) (shr glideKey : Bool) : Remote :=
  match s.groupOf t shr with
  | none => .fault
  | some g =>
    match (if opc = 2 then s.findRed (pkgOf pa) (localOf pa) 1 g [1, 3] else none) with
    | some i => .sent (s.redTake i user opc (localOf pa) data (pkgOf pa))
    | none =>
      let bulk := match user with | .glide _ _ => true | _ => false
      let tag := s.fab.nextTag
      let p : Packet := { dpid := pkgOf pa, spid := s.pkg, opc := opc, len := len, tag := tag, hops := s.obj 0x1C00 6, addr := localOf pa, data := data, bulk := bulk }
      let r : RTxn := { tag := tag, user := user, opc := opc, addr := localOf pa, len := len, data := data, pkg := pkgOf pa, group := g }
      let s' := { s with fab := { s.fab with nextTag := tag + 1, txns := s.fab.txns ++ [r] } }
      match (match user with | .glide u q => s.joinable u q opc pa len g glideKey | _ => none) with
      | some (q, w) => .sent (s.joinTo t q w r glideKey)
      | none =>
      if g = 0 then .sent (s'.forward p)
      else match s'.seal (s.tag t) (if glideKey then some t else none) p with
        | some (p, s) => .sent (s.forward p)
        | none => .fault

/-- An access to another package would fault at once (R51, R318): its domain has no group, or no key to seal it with. -/
def State.remoteFails (s : State) (t opc pa : Nat) (shr : Bool) : Bool :=
  match s.groupOf t shr with
  | none => true
  | some g =>
    !(decide (opc = 2) && (s.findRed (pkgOf pa) (localOf pa) 1 g [1, 3]).isSome) && decide (g ≠ 0)
      && ((s.cloak (s.tag t)).grpKey.isNone || decide (2 ^ 56 ≤ tabGet 0 s.fab.sealCnt (s.tag t)))

/-- The reduction that a write of this package's own engines to local memory belongs to (R331): its root is here. -/
def State.ownRed (s : State) (t a : Nat) (shr : Bool) : Option Nat :=
  match s.groupOf t shr with
  | some g => s.findRed s.pkg a 1 g [1]
  | none => none

end Sys2Proof.Machine
end

