-- ==== Sys2Proof/Machine/Funcs.lean ====
section
/-!
DEFINITION. Machine/Funcs.lean: exponentials, logarithms and the normal distribution in fixed point of 256 fraction bits, within
2^-120 of the exact values, and the free errors that 07 R178 to R180 bound (assumption 5).
-/
namespace Sys2Proof.Machine
open Sys2Proof

/-! ### Series -/

def fxOne : Int := 2 ^ 256
/-- The natural logarithm of 2, and 1 / sqrt (2 pi), in units of 2^-256. -/
def fxLn2 : Int := 80260960185991308862233904206310070533990667611589946606122867505419956976171
def fxRootTau : Int := 46194360132781112550002021175736725500524138381534012844286371432913401257262

/-- `1 + r/i (1 + r/(i+1) (1 + ...))`, `k` terms: the exponential of `r` for `i = 1`. -/
def expSeries (r : Int) : Nat → Nat → Int
  | 0, _ => fxOne
  | k + 1, i => fxOne + r * expSeries r k (i + 1) / (fxOne * (i : Int))

/-- `1/i + z (1/(i+2) + z (1/(i+4) + ...))`: for the square `z` of `x` and `i = 1`, the inverse hyperbolic tangent of `x` over `x`. -/
def atanhSeries (z : Int) : Nat → Nat → Int
  | 0, _ => 0
  | k + 1, i => fxOne / (i : Int) + z * atanhSeries z k (i + 2) / fxOne

/-- `1 + z/i (1 + z/(i+2) (1 + ...))`: for the square `z` of `x` and `i = 3`, the sum of `x^2n / (2n+1)!!`. -/
def oddSeries (z : Int) : Nat → Nat → Int
  | 0, _ => fxOne
  | k + 1, i => fxOne + z * oddSeries z k (i + 2) / (fxOne * (i : Int))

/-- A number in fixed point, and back. -/
def toFx (neg : Bool) (m : Nat) (e : Int) : Int :=
  let u := e + 256
  signedOf neg (if u < 0 then m / 2 ^ (-u).toNat else m * 2 ^ u.toNat)

def ofFx (x : Int) : Val := .fin (decide (x < 0)) x.natAbs (-256)

/-- A nonzero number of magnitude `2^k` or more. -/
def atLeast (k : Int) (m : Nat) (e : Int) : Bool := decide (m ≠ 0) && decide (k ≤ (Nat.log2 m : Int) + e)

def oneVal : Val := .fin false 1 0

/-! ### The functions, on finite values -/

/-- e^x. A result that leaves every format stands as a power of two that leaves it the same way. -/
def expVal : Val → Val
  | .fin neg m e =>
    if atLeast 10 m e then .fin false 1 (if neg then -2000 else 2000)
    else
      let x := toFx neg m e
      let k := (2 * x + fxLn2) / (2 * fxLn2)
      .fin false (expSeries (x - k * fxLn2) 60 1).toNat (k - 256)
  | .inf true => zeroVal
  | x => x

/-- 2^x. -/
def exp2Val : Val → Val
  | .fin neg m e =>
    if atLeast 11 m e then .fin false 1 (if neg then -3000 else 3000)
    else
      let x := toFx neg m e
      let k := (2 * x + fxOne) / (2 * fxOne)
      .fin false (expSeries ((x - k * fxOne) * fxLn2 / fxOne) 60 1).toNat (k - 256)
  | x => x

/-- The natural logarithm of a positive number, in fixed point. -/
def lnFx (m : Nat) (e : Int) : Int :=
  let l := Nat.log2 m
  let y : Int := ((m * 2 ^ 256 / 2 ^ l : Nat) : Int)
  let z := (y - fxOne) * fxOne / (y + fxOne)
  2 * z * atanhSeries (z * z / fxOne) 90 1 / fxOne + ((l : Int) + e) * fxLn2

/-- 1 / (1 + e^-x). -/
def sigmVal (x : Val) : Val := (Val.div oneVal (Val.add .rne oneVal (expVal x.neg)).v).v

/-- The hyperbolic tangent; a number below 2^-60 stands for its own. -/
def tanhVal (x : Val) : Val :=
  match x with
  | .fin _ m e =>
    if !atLeast (-60) m e then x
    else
      let y := expVal (Val.add .rne x x).v
      (Val.div (Val.sub .rne y oneVal).v (Val.add .rne y oneVal).v).v
  | _ => x

/-- x times the normal distribution function of x; from 16 on in magnitude it is x or zero within 2^-180. -/
def geluVal (x : Val) : Val :=
  match x with
  | .fin neg m e =>
    if atLeast 4 m e then (if neg then zeroVal else x)
    else
      let y := toFx neg m e
      let z := y * y / fxOne
      let dens := Val.mul (expVal (ofFx (-(z / 2)))) (ofFx fxRootTau)
      let tail := (Val.mul dens.v (ofFx (y * oddSeries z 500 3 / fxOne))).v
      (Val.mul x (Val.add .rne (.fin false 1 (-1)) tail).v).v
  | _ => x

def siluVal (x : Val) : Val := (Val.mul x (sigmVal x)).v

/-! ### Free errors -/

/-- A value with a relative error of at most `2^-k`: the error is a free value. -/
def nearRel (k n use i : Nat) (v : Val) : Val :=
  match v with
  | .fin s m e =>
    let m1 := m * 2 ^ (k + 40)
    let b := m * 2 ^ 40
    .fin s (m1 - b + freeValue n use i % (2 * b + 1)) (e - (k + 40 : Nat))
  | x => x

/-- A value with an absolute error of at most `2^-k`. -/
def nearAbs (k n use i : Nat) (v : Val) : Val :=
  (Val.add .rne v (.fin (freeBit n use (2 * i)) (freeValue n use (2 * i + 1) % (2 ^ 60 + 1)) (-(k + 60 : Nat)))).v

end Sys2Proof.Machine
end

