-- ==== Sys2Proof/Machine/Matrix.lean ====
section
/-!
DEFINITION. Machine/Matrix.lean: the matrix slot and what a matrix operation computes
(03 R78, R79, R87, R88; 05 R118 to R136; 06 R149, R153 to R157, R474).
-/
namespace Sys2Proof.Machine
open Sys2Proof

/-- The Pocket holds 2 MiB, and its addresses wrap (R28, R78). -/
def pocketSize : Nat := 2097152

/-! ### Fields of a matrix slot (Table 3.9) -/

def mMop (w : Nat) : Nat := field w 47 44
def mPair (w : Nat) : Nat := field w 43 42
def mUse (w : Nat) : Nat := field w 41 40
def mAccsel (w : Nat) : Nat := field w 39 39
def mFmtA (w : Nat) : Nat := field w 38 36
def mFmtB (w : Nat) : Nat := field w 35 33
def mAreg (w : Nat) : Nat := field w 32 29
def mAoff (w : Nat) : Nat := field w 28 23
def mSb (w : Nat) : Nat := field w 23 23
def mBreg (w : Nat) : Nat := field w 22 19
def mTbuf (w : Nat) : Nat := field w 21 19
def mBoff (w : Nat) : Nat := field w 18 13

/-- The operations of Table 3.10. -/
def mopMma : Nat := 1
def mopMmz : Nat := 2
def mopMmav : Nat := 3
def mopAcrd : Nat := 4
def mopAcz : Nat := 5
def mopAcsv : Nat := 6
def mopAcld : Nat := 7

/-- Whether a slot holds one of MMA, MMZ and MMAV. -/
def isMac (w : Nat) : Bool := decide (1 ≤ mMop w ∧ mMop w ≤ 3)

/-- The arrays that a slot addresses (USE, Table 3.9). -/
def mArrays (w : Nat) : List Nat :=
  let p := 2 * mPair w
  match mUse w with
  | 1 => [p]
  | 2 => [p + 1]
  | _ => [p, p + 1]

/-- The format pairs that MMA and MMZ allow (Table 3.10). -/
def pairAllowed (a b : Nat) : Bool :=
  (decide (a = 0 ∨ a = 1 ∨ a = 5) && decide (b = 0 ∨ b = 1 ∨ b = 5)) ||
  (decide (a = 2 ∨ a = 6) && decide (b = 2 ∨ b = 6)) ||
  (decide (a = 3) && decide (b = 3)) || (decide (a = 4) && decide (b = 4)) || (decide (a = 7) && decide (b = 7))

/-- Whether a matrix slot faults with BADOP (Table 3.10, R122, R140): `usable` is the tile's mask of arrays. -/
def matrixBad (usable : Nat) (w : Nat) : Bool :=
  let m := mMop w
  let u := mUse w
  decide (8 ≤ m) ||
  (decide (m = mopMma ∨ m = mopMmz) && ! pairAllowed (mFmtA w) (mFmtB w)) ||
  (decide (m = mopMmav) &&
    (! pairAllowed (mFmtA w) (mFmtB w) || decide (4 < mFmtA w) || decide (mFmtB w = 5 ∨ mFmtB w = 6) || decide (u = 3))) ||
  (decide (m = mopAcrd ∨ m = mopAcsv ∨ m = mopAcld) && ! decide (u = 1 ∨ u = 2)) ||
  (decide (m = mopAcrd) && decide (5 < mTbuf w)) ||
  (decide (m ≠ 0) && (mArrays w).any (fun j => ! usable.testBit j))

/-- The size of an operand tile in bytes (Table 5.1). -/
def operandSize (fmt : Nat) : Nat :=
  match fmt with
  | 5 => 512
  | 6 => 512
  | 3 => 2048
  | 4 => 2048
  | 7 => 4096
  | _ => 1024

/-- The address `(q[REG] + OFF * unit) mod 2 MiB` with its low 8 bits ignored (R78). -/
def pocketOperand (q off unit : Nat) : Nat := ((q + off * unit) % pocketSize) / 256 * 256

/-- Lead, row period and span of R123, in array cycles. -/
def macLead (w : Nat) : Nat := if mFmtA w = 5 ∨ mFmtA w = 6 ∨ mFmtB w = 5 ∨ mFmtB w = 6 then 6 else 4
def macSpan (strict : Bool) (w : Nat) : Nat :=
  let b := if mFmtA w = 7 then 768 else if mFmtA w = 3 ∨ mFmtA w = 4 then 128 else 32
  if strict then 4 * b else b

/-- The occupancy O of a matrix operation (Table 3.15, R88). -/
def matrixOcc (strict : Bool) (w : Nat) : Nat :=
  if isMac w then macSpan strict w
  else if mMop w = mopAcz then 2
  else if mMop w = mopAcrd then 4
  else 120

/-- The row start of R124 for an operation issued at `t` where the array's rows are free from `e1` on. -/
def rowStart (w t e1 : Nat) : Nat := if t + macLead w < e1 then e1 else t + macLead w

/-- The cycle at which the result of a matrix operation is whole in array `j` (R124, Table 3.15). -/
def matrixLand (strict : Bool) (w t e1 : Nat) : Nat :=
  if isMac w then rowStart w t e1 + macSpan strict w + 4
  else if mMop w = mopAcz then t + 2
  else if mMop w = mopAcrd then t + 6
  else t + 122

/-! ### Operands -/

/-- Element `n` (row-major) of a tile in the Pocket layout of Table 5.1 and R172: its bits. -/
def tileElem (fmt : Nat) (bs : Bytes) (n : Nat) : Nat :=
  match fmt with
  | 5 => let b := (tabGet 0 bs (n / 2)).toNat
         if n % 2 = 0 then b % 16 else b / 16
  | 6 => let b := (tabGet 0 bs (n / 2)).toNat
         if n % 2 = 0 then b % 16 else b / 16
  | _ =>
    let k := codeWidth fmt / 8
    leNat ((bs.drop (k * n)).take k)

/-- The bytes of `n` elements as chunks of `k` (in order). -/
def chunks (k : Nat) : Nat → Bytes → List Bytes
  | 0, _ => []
  | n + 1, bs => bs.take k :: chunks k n (bs.drop k)

/-- The two 4-bit elements of each byte, the even one first. -/
def nibbles : Bytes → List Nat
  | [] => []
  | b :: bs => b.toNat % 16 :: b.toNat / 16 :: nibbles bs

/-- The bits of `n` elements of a tile, in row-major order. -/
def tileElems (fmt n : Nat) (bs : Bytes) : List Nat :=
  if fmt = 5 ∨ fmt = 6 then (nibbles bs).take n else (chunks (codeWidth fmt / 8) n bs).map leNat

/-- The values of `n` elements of a tile. -/
def tileVals (fmt n : Nat) (bs : Bytes) : List Val :=
  let f := (fmtOfCode fmt).getD w48
  (tileElems fmt n bs).map (decodeVal f)

/-- Row `i` of a 32-column tile. -/
def rowOf {α : Type} (i : Nat) (xs : List α) : List α := (xs.drop (32 * i)).take 32

/-- Column `c` of a list of rows of 32. -/
def colOf {α : Type} (c : Nat) : Nat → List α → List α
  | 0, _ => []
  | n + 1, xs => (xs.drop c).take 1 ++ colOf c n (xs.drop 32)

/-! ### Products and sums -/

/-- One product of a cell, exact in W48 (R126, R149). The rule names an integer product of zero without a sign: the product of a negative
integer and zero is -0 here, as for the floating-point formats (DESIGN CHOICE, assumption 82). -/
def cellProduct (x y : Val) : W48 × Flags := wRound (Val.mul x y)

/-- The products of a row of A and a column of B. -/
def products : List Val → List Val → List W48 × Flags
  | x :: xs, y :: ys =>
    let p := cellProduct x y
    let r := products xs ys
    (p.1 :: r.1, p.2 ||| r.2)
  | _, _ => ([], 0)

/-- The instruction sum of a cell for operands that are not FP32 (R153). -/
def cellSum (row col : List Val) : W48 × Flags :=
  let p := products row col
  let t := tree32 p.1
  (t.1, t.2 ||| p.2)

/-- The value rounded toward zero to BF16 (R129). -/
def truncBf (v : Val) : Val := decodeVal bf16 (convert true bf16 .rtz v).bits

/-- The three pieces of an FP32 operand (R129). -/
def pieces (x : Val) : Val × Val × Val :=
  match x with
  | .fin _ _ _ =>
    let x1 := truncBf x
    let d1 := (Val.sub .rne x x1).v
    let x2 := truncBf d1
    let x3 := truncBf (Val.sub .rne d1 x2).v
    (x1, x2, x3)
  | _ => (x, zeroVal, zeroVal)

/-- The product that pass `p` (0 to 5, Table 5.6) forms of `a` and `b`; an operand that is NaN or infinite leaves +0 to every
pass but the last, and its product there is that of `a` and `b` (R129). -/
def passProduct (p : Nat) (a b : Val) : W48 × Flags :=
  if a.isFin && b.isFin then
    let x := pieces a
    let y := pieces b
    match p with
    | 0 => cellProduct x.2.2 y.1
    | 1 => cellProduct x.2.1 y.2.1
    | 2 => cellProduct x.1 y.2.2
    | 3 => cellProduct x.2.1 y.1
    | 4 => cellProduct x.1 y.2.1
    | _ => cellProduct x.1 y.1
  else if p < 5 then (0, 0) else cellProduct a b

def passProducts (p : Nat) : List Val → List Val → List W48 × Flags
  | x :: xs, y :: ys =>
    let h := passProduct p x y
    let r := passProducts p xs ys
    (h.1 :: r.1, h.2 ||| r.2)
  | _, _ => ([], 0)

/-- The pass register after the passes `ps`, in order (R130). -/
def passRegister (row col : List Val) : List Nat → W48 × Flags → W48 × Flags
  | [], acc => acc
  | p :: ps, acc =>
    let pr := passProducts p row col
    let t := tree32 pr.1
    let a := wAdd acc.1 t.1
    passRegister row col ps (a.1, acc.2 ||| pr.2 ||| t.2 ||| a.2)

/-- The instruction sum of a cell (R118, R130, R153). -/
def instrSum (fmtA : Nat) (row col : List Val) : W48 × Flags :=
  if fmtA = 7 then passRegister row col [0, 1, 2, 3, 4, 5] (0, 0) else cellSum row col

/-- The instruction sums of every cell of one row against the columns of B. -/
def rowSums (fmtA : Nat) (row : List Val) : List (List Val) → List W48 × Flags
  | [] => ([], 0)
  | c :: cs =>
    let h := instrSum fmtA row c
    let r := rowSums fmtA row cs
    (h.1 :: r.1, h.2 ||| r.2)

def allSums (fmtA : Nat) (a : List Val) (cols : List (List Val)) : List Nat → List W48 × Flags
  | [] => ([], 0)
  | i :: is =>
    let h := rowSums fmtA (rowOf i a) cols
    let r := allSums fmtA a cols is
    (h.1 ++ r.1, h.2 ||| r.2)

/-- The 1,024 instruction sums of an operation whose operands have been read as `a` and `b` (R118). -/
def tileSums (fmtA fmtB : Nat) (a b : Bytes) : List W48 × Flags :=
  let av := tileVals fmtA 1024 a
  let bv := tileVals fmtB 1024 b
  allSums fmtA av ((rangeFrom 0 32).map (fun c => colOf c 32 bv)) (rangeFrom 0 32)

/-! ### The cascade (R154, R155) -/

/-- Two planes added cell by cell, each cell rounding to nearest even; an unlisted cell is +0. -/
def planeAdd : List W48 → List W48 → List W48 × Flags
  | [], [] => ([], 0)
  | x :: xs, [] => let h := wAdd x 0; let r := planeAdd xs []; (h.1 :: r.1, h.2 ||| r.2)
  | [], y :: ys => let h := wAdd 0 y; let r := planeAdd [] ys; (h.1 :: r.1, h.2 ||| r.2)
  | x :: xs, y :: ys => let h := wAdd x y; let r := planeAdd xs ys; (h.1 :: r.1, h.2 ||| r.2)

/-- The fold of a plane of carries into S: stochastic in fast mode with one draw for each cell, to nearest even in strict mode
(R154 to R156). -/
def planeFold (strict : Bool) (key : BitVec 128) (fold : Nat) : Nat → List W48 → List W48 → List W48 × Flags
  | _, s, [] => (s, 0)
  | i, s, c :: cs =>
    let x := s.headD 0
    let h := if strict then wAdd x c else stochasticFold (foldDraw key fold i) x c
    let r := planeFold strict key fold (i + 1) s.tail cs
    (h.1 :: r.1, h.2 ||| r.2)

def Acc.level (a : Acc) (m : Nat) : List W48 :=
  match m with
  | 0 => a.l0
  | 1 => a.l1
  | 2 => a.l2
  | _ => a.l3

def Acc.setLevel (a : Acc) (m : Nat) (p : List W48) : Acc :=
  match m with
  | 0 => { a with l0 := p }
  | 1 => { a with l1 := p }
  | 2 => { a with l2 := p }
  | _ => { a with l3 := p }

/-- The entry of a plane of instruction sums into the cascade from level `m` on, `k` levels (R154). -/
def cascadeFrom (strict : Bool) (key : BitVec 128) (fold : Nat) : Nat → Nat → Acc → List W48 → Acc × Flags
  | 0, _, a, carry =>
    let r := planeFold strict key fold 0 a.s carry
    ({ a with s := r.1 }, r.2)
  | k + 1, m, a, carry =>
    if a.casc.getLsbD m then
      let r := planeAdd (a.level m) carry
      let a1 := { a.setLevel m [] with casc := a.casc &&& ~~~(BitVec.ofNat 4 (2 ^ m)) }
      let q := cascadeFrom strict key fold k (m + 1) a1 r.1
      (q.1, q.2 ||| r.2)
    else ({ a.setLevel m carry with casc := a.casc ||| BitVec.ofNat 4 (2 ^ m) }, 0)

/-- AFLAGS of the flags that the arrays raise (R474): [1] inexact, [0] invalid. -/
def aflagsOf (f : Flags) : BitVec 2 := (if f.getLsbD 0 then 2 else 0) ||| (if f.getLsbD 4 then 1 else 0)

def satAdd (w v k : Nat) : BitVec w := BitVec.ofNat w (if v + k < 2 ^ w then v + k else 2 ^ w - 1)

/-- An accumulator after one MMA, MMZ or MMAV whose instruction sums are `sums` (R118, R134, R154, R162, R474). -/
def accumulate (strict : Bool) (key : BitVec 128) (fold : Nat) (zero : Bool) (a : Acc) (sums : List W48 × Flags) : Acc :=
  let a0 : Acc := if zero then {} else a
  let r := cascadeFrom strict key fold 4 0 a0 sums.1
  let np := satAdd 64 a0.nprod.toNat 32
  { r.1 with
    nprod := np
    longsum := a0.longsum || decide (2 ^ 30 < np.toNat)
    aflags := if strict then a0.aflags ||| aflagsOf (sums.2 ||| r.2) else a0.aflags }

/-- The occupied levels added up from +0 (R157). -/
def levelFold (a : Acc) : Nat → Nat → List W48 × Flags → List W48 × Flags
  | 0, _, t => t
  | k + 1, m, t =>
    if a.casc.getLsbD m then
      let r := planeAdd t.1 (a.level m)
      levelFold a k (m + 1) (r.1, t.2 ||| r.2)
    else levelFold a k (m + 1) t

/-- The plane of 1,024 cells, unlisted ones written out. -/
def fullPlane {α : Type} (d : α) : Nat → List α → List α
  | 0, _ => []
  | n + 1, [] => d :: fullPlane d n []
  | n + 1, x :: xs => x :: fullPlane d n xs

/-- The Tailor buffer that ACRD writes (R134, R157, R170, R474). R474 names only inexact of ACRD's own fold: an invalid of that fold, an
infinity of S that meets the opposite one in a level, does not reach AFLAGS (DESIGN CHOICE, assumption 83). -/
def acrdBuf (strict : Bool) (a : Acc) : TBuf :=
  let t := levelFold a 4 0 (fullPlane 0 1024 [], 0)
  let r := planeAdd (fullPlane 0 1024 a.s) t.1
  { els := r.1
    tag := 8
    longsum := a.longsum
    aflags := if strict then a.aflags ||| (aflagsOf (t.2 ||| r.2) &&& 2) else 0
    allmask := 0 }

/-! ### Save areas (R133, Tables 5.7 and 5.8) -/

def saveAreaSize : Nat := 30784

def planeBytes (p : List W48) : Bytes := ((fullPlane 0 1024 p).map (fun x => natLe 6 x.toNat)).flatten

def saveBytes (a : Acc) : Bytes :=
  let lv := fun m => planeBytes (if a.casc.getLsbD m then a.level m else [])
  planeBytes a.s ++ lv 0 ++ lv 1 ++ lv 2 ++ lv 3 ++
    natLe 8 a.nprod.toNat ++
    [BitVec.ofNat 8 (a.casc.toNat + 16 * flag a.longsum + 32 * a.aflags.toNat)] ++ natLe 55 0

def bytesPlane (bs : Bytes) : List W48 := (chunks 6 1024 bs).map (fun c => BitVec.ofNat 48 (leNat c))

/-- The accumulator that a save area restores (R133, R134). -/
def loadAcc (bs : Bytes) : Acc :=
  let cb := bs.drop 30720
  let c := (tabGet 0 cb 8).toNat
  let lv := fun m => if c.testBit m then bytesPlane ((bs.drop (6144 * (m + 1))).take 6144) else []
  { s := bytesPlane (bs.take 6144)
    l0 := lv 0
    l1 := lv 1
    l2 := lv 2
    l3 := lv 3
    nprod := BitVec.ofNat 64 (leNat (cb.take 8))
    casc := BitVec.ofNat 4 c
    longsum := c.testBit 4
    aflags := BitVec.ofNat 2 (c / 32) }

end Sys2Proof.Machine
end

