-- ==== Sys2Proof/Machine/TailorOps.lean ====
section
/-!
DEFINITION. Machine/TailorOps.lean: the Tailor slot and what a Tailor operation computes
(03 R81, R87; 07 R170 to R190; 06 R167, R168).
-/
namespace Sys2Proof.Machine
open Sys2Proof

/-! ### Fields of a Tailor slot (Table 3.12) -/

def tTop (w : Nat) : Nat := field w 63 56
def tTd (w : Nat) : Nat := field w 55 53
def tTa (w : Nat) : Nat := field w 52 50
def tTb (w : Nat) : Nat := field w 49 47
def tTc (w : Nat) : Nat := field w 46 44
def tFmtd (w : Nat) : Nat := field w 43 40
def tFmts (w : Nat) : Nat := field w 39 36
def tPreg (w : Nat) : Nat := field w 35 32
def tPoff (w : Nat) : Nat := field w 31 21
def tAux (w : Nat) : Nat := field w 20 0
def tStset (w : Nat) : Nat := field w 20 18

/-- What a Tailor operation reads and writes, for the checks of R173. -/
structure TUse where
  td : Bool := false
  ta : Bool := false
  tb : Bool := false
  tc : Bool := false
  fmtd : Bool := false     -- FMTD must be 0 to 8 or 10
  fmts : Bool := false     -- FMTS must be 0 to 8 or 10
  extra : Bool := true     -- the further restriction that Table 7.2 names holds
  deriving DecidableEq, Repr

/-- The row of Table 7.2 for a slot; a TOP that the table does not list has none. -/
def tailorUse (w : Nat) : Option TUse :=
  let t := tTop w
  let d := tFmtd w
  let s := tFmts w
  let m := bit (tAux w) 16
  let argOk := decide (d = 2 ∨ d = 3 ∨ d = 4 ∨ d = 7 ∨ d = 8 ∨ d = 10)
  if t = 0x01 then some { td := true, fmts := true }
  else if t = 0x02 ∨ t = 0x03 then some { ta := true }
  else if t = 0x04 ∨ t = 0x06 then some {}
  else if t = 0x05 then some { td := true, fmtd := true }
  else if 0x10 ≤ t ∧ t ≤ 0x14 then some { td := true, ta := true, tb := true, fmtd := true }
  else if t = 0x15 ∨ t = 0x16 then some { td := true, ta := true, fmtd := true }
  else if t = 0x17 then some { td := true, ta := true, tb := true, fmtd := true }
  else if 0x18 ≤ t ∧ t ≤ 0x1B then some { td := true, ta := true, tb := true, tc := true, fmtd := true }
  else if t = 0x20 then some { td := true, ta := true, fmtd := true }
  else if t = 0x21 then some { td := true, fmtd := true, fmts := true }
  else if t = 0x22 ∨ t = 0x23 then some { ta := true, fmtd := true }
  else if t = 0x28 then some { td := true, fmtd := true, extra := decide (s = 9) }
  else if t = 0x29 then some { ta := true, extra := decide (d = 9) }
  else if 0x30 ≤ t ∧ t ≤ 0x3A then some { td := true, ta := true, fmtd := true }
  else if t = 0x3B then some { td := true, ta := true, tb := m, fmtd := true }
  else if t = 0x3C then some { td := true, ta := true, tb := m, fmtd := true, extra := decide (d = 8) }
  else if t = 0x3D then some { td := true, ta := true, tb := m, tc := true, fmtd := true }
  else if 0x40 ≤ t ∧ t ≤ 0x44 then some { td := true, ta := true, tb := true, fmtd := true }
  else if t = 0x45 then some { td := true, ta := true, tb := true, tc := true, fmtd := true }
  else if t = 0x46 then some { td := true, tb := true, fmtd := true }
  else if (0x50 ≤ t ∧ t ≤ 0x57) ∨ (0x60 ≤ t ∧ t ≤ 0x67) then
    some { td := true, ta := true, fmtd := true, extra := argOk || ! decide (t = 0x55 ∨ t = 0x65) }
  else if t = 0x70 ∨ t = 0x71 then some { td := true, ta := true, tb := true, fmtd := true }
  else if t = 0x72 then some { ta := true, tb := true, fmtd := true, extra := ! decide (d = 5 ∨ d = 6) }
  else if t = 0x73 then some { td := true, tb := true, fmtd := true, fmts := true, extra := ! decide (s = 5 ∨ s = 6) }
  else if t = 0x80 ∨ t = 0x82 ∨ t = 0x83 ∨ t = 0x84 then some {}
  else if t = 0x81 then some { ta := true }
  else if t = 0x88 then some { ta := true, extra := decide (d = 3 ∨ d = 4 ∨ d = 7) }
  else if t = 0x90 ∨ t = 0x91 then some { td := true, fmtd := true }
  else if t = 0x92 then some { td := true, ta := true, fmtd := true }
  else none

def codeOk (c : Nat) : Bool := decide (c ≤ 8 ∨ c = 10)

/-- Whether a Tailor slot faults with BADOP (R81, R173). -/
def tailorBad (w : Nat) : Bool :=
  if tTop w = 0 then false
  else
    match tailorUse w with
    | none => true
    | some u =>
      (u.td && decide (5 < tTd w)) || (u.ta && decide (5 < tTa w)) || (u.tb && decide (5 < tTb w)) ||
      (u.tc && decide (5 < tTc w)) || (u.fmtd && ! codeOk (tFmtd w)) || (u.fmts && ! codeOk (tFmts w)) || ! u.extra

/-- Occupancy and latency of a Tailor class in fast mode (Table 3.15). -/
def tailorFast (t : Nat) : Nat × Nat :=
  if t < 0x10 then (4, 6)
  else if t < 0x18 then (4, 6)
  else if t < 0x20 then (4, 8)
  else if t < 0x28 then (4, 7)
  else if t < 0x30 then (4, 8)
  else if t < 0x40 then (8, 14)
  else if t < 0x50 then (4, 6)
  else if t < 0x70 then (4, 10)
  else if t < 0x80 then (4, 9)
  else if t < 0x88 then (8, 12)
  else if t < 0x90 then (16, 20)
  else (4, 8)

/-- Occupancy and latency with the changes of strict mode (R88). -/
def tailorOcc (strict : Bool) (w : Nat) : Nat := if strict then 4 * (tailorFast (tTop w)).1 else (tailorFast (tTop w)).1
def tailorLat (strict : Bool) (w : Nat) : Nat :=
  (tailorFast (tTop w)).2 + (if strict then 3 * (tailorFast (tTop w)).1 else 0)

/-- The Pocket address of a Tailor slot (R172): at byte resolution for CMPS and XPDL, else the low 8 bits ignored. -/
def tailorAddr (q : Nat) (w : Nat) : Nat :=
  let a := (q + tPoff w * 1024) % pocketSize
  if tTop w = 0x72 ∨ tTop w = 0x73 then a else a / 256 * 256

/-- The size in bytes of a tile of 1,024 elements in a format (R172; BS8 takes 1,056, R146). -/
def tileSize (code : Nat) : Nat := if code = 9 then 1056 else codeWidth code * 128

/-- The bytes an operation reads from the Pocket: how many from its address on. -/
def tailorReads (w : Nat) : Nat :=
  let t := tTop w
  if t = 0x01 ∨ t = 0x21 then tileSize (tFmts w)
  else if t = 0x28 then 1056
  else if t = 0x73 then codeWidth (tFmts w) / 8 * 1024
  else if t = 0x06 then 32
  else if t = 0x80 then 64
  else if t = 0x88 then (if tFmtd w = 7 then 4096 else 2048) + 2336
  else 0

/-! ### Elements -/

def TBuf.vals (b : TBuf) : List Val :=
  let f := (fmtOfCode b.tag).getD w48
  (fullPlane 0 1024 b.els).map (fun x => decodeVal f x.toNat)

/-- The bytes of a list of element encodings in a format, in the layout of R172. -/
def elemBytes (code : Nat) (xs : List Nat) : Bytes :=
  if code = 5 ∨ code = 6 then pack xs else (xs.map (natLe (codeWidth code / 8))).flatten
where
  pack : List Nat → Bytes
    | a :: b :: t => BitVec.ofNat 8 (a % 16 + 16 * (b % 16)) :: pack t
    | [a] => [BitVec.ofNat 8 (a % 16)]
    | [] => []

/-- Whether a mask element is selected (R174). -/
def selected (v : Val) : Bool := ! v.isZero

/-- What an operation reports to its statistics set. -/
structure TEvents where
  sats : Nat := 0
  unders : Nat := 0
  flags : Flags := 0
  allmasks : Nat := 0
  observed : Option (List Val) := none
  longsum : Bool := false
  deriving DecidableEq, Repr

/-- A partial write of a buffer (R170): the elements it writes, and TAG and flags. -/
structure PartWr where
  els : List (Nat × Nat)
  tag : Nat
  longsum : Bool
  aflags : BitVec 2
  deriving DecidableEq, Repr

/-- What a Tailor operation delivers. -/
structure TRes where
  buf : Option TBuf := none
  part : Option PartWr := none
  pocket : List (Nat × Bytes) := []
  ev : TEvents := {}
  qadd : Option (Nat × Nat) := none
  ctx : Option OptCtx := none
  flurry : Option Flurry := none
  clearSet : Bool := false
  refused : Bool := false
  deriving DecidableEq, Repr

/-- A result formed in W48 steps, with the flags of the steps, and whether one of them saturated (Table 6.9). -/
structure WR where
  v : Val
  fl : Flags := 0
  sat : Bool := false
  deriving DecidableEq, Repr

/-- A result rounded to W48 as the Tailor rounds: Table 6.9 governs what lies beyond the range. -/
def wRnd (strict : Bool) (x : VF) : WR :=
  let c := convert strict w48 .rne x.v
  ⟨decodeVal w48 c.bits, c.fl ||| x.fl, c.counted⟩

/-- An operation on two such results. -/
def WR.op (strict : Bool) (f : Val → Val → VF) (a b : WR) : WR :=
  let r := wRnd strict (f a.v b.v)
  ⟨r.v, a.fl ||| b.fl ||| r.fl, a.sat || b.sat || r.sat⟩

/-- The balanced tree of R153, `k` levels, on W48 adders of the Tailor. -/
def WR.level (strict : Bool) : List WR → List WR
  | a :: b :: t => WR.op strict (Val.add .rne) a b :: WR.level strict t
  | l => l

def WR.tree (strict : Bool) : Nat → List WR → WR
  | 0, l => l.headD { v := zeroVal }
  | k + 1, l => WR.tree strict k (WR.level strict l)

/-- The element encodings of a list of results, each rounded once to FMTD, with their events (R174). An element counts once in SATS,
whichever of its roundings saturated (R182). -/
def roundWR (strict : Bool) (code : Nat) : List WR → List Nat × TEvents
  | [] => ([], {})
  | x :: xs =>
    let c := convert strict ((fmtOfCode code).getD w48) .rne x.v
    let r := roundWR strict code xs
    (c.bits :: r.1,
     { r.2 with
       sats := r.2.sats + flag (c.counted || x.sat)
       unders := r.2.unders + flag c.under
       flags := r.2.flags ||| c.fl ||| x.fl })

/-- The same of exact results. -/
def roundAll (strict : Bool) (code : Nat) (xs : List VF) : List Nat × TEvents := roundWR strict code (xs.map (fun x => { v := x.v, fl := x.fl }))

def exactly (v : Val) : VF := ⟨v, 0⟩

/-- The flags that the AFLAGS of the buffers read bring into the set (R474). -/
def flagsOfA (a : BitVec 2) : Flags := (if a.getLsbD 0 then fNV else 0) ||| (if a.getLsbD 1 then fNX else 0)

/-- The LONGSUM and AFLAGS that a write to TD takes from the buffers read (R170, R474). -/
def readLong (bs : List TBuf) : Bool := bs.any (fun b => b.longsum)
def readAflags (strict : Bool) (bs : List TBuf) : BitVec 2 := if strict then bs.foldl (fun a b => a ||| b.aflags) 0 else 0

/-- A whole-buffer write in a format (R170). -/
def wholeBuf (strict : Bool) (code : Nat) (reads : List TBuf) (bits : List Nat) : TBuf :=
  { els := bits.map (BitVec.ofNat 48)
    tag := code
    longsum := readLong reads
    aflags := readAflags strict reads
    allmask := 0 }

/-- A result that writes all of TD. -/
def wholeRes (strict : Bool) (code : Nat) (reads : List TBuf) (xs : List VF) : TRes :=
  let r := roundAll strict code xs
  { buf := some (wholeBuf strict code reads r.1), ev := r.2 }

/-- `f` over three lists of values, element by element. -/
def zip3 (f : Val → Val → Val → VF) : List Val → List Val → List Val → List VF
  | x :: xs, y :: ys, z :: zs => f x y z :: zip3 f xs ys zs
  | _, _, _ => []

def zip2 (f : Val → Val → VF) : List Val → List Val → List VF
  | x :: xs, y :: ys => f x y :: zip2 f xs ys
  | _, _ => []

/-- The operations of two and three sources (Table 7.2, R174); `t` is the TOP. A signalling NaN in an element that MASK or SEL does not
select raises no flag, since it takes part in no result (DESIGN CHOICE, assumption 84). -/
def elemOp (t : Nat) (h x y z : Val) : VF :=
  if t = 0x10 then Val.add .rne x y
  else if t = 0x11 then Val.sub .rne x y
  else if t = 0x12 then Val.mul x y
  else if t = 0x13 then Val.max x y
  else if t = 0x14 then Val.min x y
  else if t = 0x15 then Val.mul x h
  else if t = 0x16 then Val.add .rne x h
  else if t = 0x17 then ⟨if selected y then x else zeroVal, sigFlag y⟩
  else if t = 0x18 then Val.fma .rne x y z
  else if t = 0x19 then Val.fma .rne x y z.neg
  else if t = 0x1A then ⟨if selected z then x else y, sigFlag z⟩
  else
    let m := Val.max x y
    let r := Val.min m.v z
    ⟨r.v, m.fl ||| r.fl⟩

/-- The broadcast operations (R175). -/
def broadOp (t : Nat) (x b b2 : Val) : VF :=
  if t = 0x40 then Val.add .rne x b
  else if t = 0x41 then Val.sub .rne x b
  else if t = 0x42 then Val.mul x b
  else if t = 0x43 then Val.max x b
  else if t = 0x44 then Val.min x b
  else if t = 0x45 then Val.fma .rne x b b2
  else exactly b

/-- The broadcast of row `n` (DIR = 0) or column `n` (DIR = 1) of a tile (R175). -/
def broadcast (aux : Nat) (xs : List Val) : List Val :=
  let n := aux % 32
  if bit aux 5 then
    ((colOf n 32 xs).map (fun v => List.replicate 32 v)).flatten
  else (List.replicate 32 (rowOf n xs)).flatten

/-! ### Reductions (R176) -/

def maxAll (f : Val → Val → VF) : Val → List Val → VF
  | a, [] => exactly a
  | a, x :: xs =>
    let m := f a x
    let r := maxAll f m.v xs
    ⟨r.v, r.fl ||| m.fl⟩

/-- The lowest index of the maximum, or of the first NaN. -/
def argMax : Nat → Nat → Val → List Val → Nat
  | _, best, _, [] => best
  | i, best, b, x :: xs =>
    if b.isNan then best
    else if x.isNan then i
    else if Val.lt true b x then argMax (i + 1) i x xs
    else argMax (i + 1) best b xs

def anySig (xs : List Val) : Bool := xs.any (fun x => decide (x = .nan true))

/-- The invalid flag of reading a signalling NaN (R147). -/
def sigFlags (xs : List Val) : Flags := if anySig xs then fNV else 0

/-- One reduction of 32 elements; `k` is the low three bits of the TOP and `old` the element of TD that the accumulating
forms use. -/
def reduce32 (strict : Bool) (k : Nat) (old : Val) (xs : List Val) : WR :=
  let w := fun (x : Val) => wRnd strict (exactly x)
  let plain := fun (x : VF) => ({ v := x.v, fl := x.fl } : WR)
  match k with
  | 0 => WR.tree strict 5 (xs.map w)
  | 1 => plain (maxAll Val.max (xs.headD zeroVal) xs.tail)
  | 2 => plain (maxAll Val.min (xs.headD zeroVal) xs.tail)
  | 3 => WR.tree strict 5 (xs.map (fun x => wRnd strict (Val.mul x x)))
  | 4 => plain (maxAll Val.max (xs.headD zeroVal).abs (xs.tail.map Val.abs))
  | 5 => { v := .fin false (argMax 1 0 (xs.headD zeroVal) xs.tail) 0, fl := sigFlags xs }
  | 6 => WR.op strict (Val.add .rne) (w old) (WR.tree strict 5 (xs.map w))
  | _ =>
    let m := maxAll Val.max (xs.headD zeroVal) xs.tail
    let r := Val.max old m.v
    { v := r.v, fl := m.fl ||| r.fl }

/-- The element positions that a reduction writes: column `n` for rows, row `n` for columns. -/
def reduceDest (rows : Bool) (n i : Nat) : Nat := if rows then 32 * i + n else 32 * n + i

/-- Elements put at given positions of a plane. -/
def putElems : List W48 → List (Nat × Nat) → List W48
  | p, [] => p
  | p, (i, v) :: t => putElems (tabSet 0 p i (BitVec.ofNat 48 v)) t

/-- A partial write: TAG becomes FMTD; the other elements' slots and ALLMASK stay as the buffer has them when it lands (R170). -/
def partialWr (strict : Bool) (code : Nat) (reads : List TBuf) (es : List (Nat × Nat)) : PartWr :=
  { els := es, tag := code, longsum := readLong reads, aflags := readAflags strict reads }

def PartWr.put (p : PartWr) (b : TBuf) : TBuf :=
  { b with els := putElems b.els p.els, tag := p.tag, longsum := p.longsum, aflags := p.aflags }

def reduceRes (strict : Bool) (w : Nat) (ta td : TBuf) : TRes :=
  let rows := decide (tTop w < 0x60)
  let n := tAux w % 32
  let k := tTop w % 8
  let xs := ta.vals
  let os := td.vals
  let one := fun i =>
    reduce32 strict k (tabGet zeroVal os (reduceDest rows n i)) (if rows then rowOf i xs else colOf i 32 xs)
  let r := roundWR strict (tFmtd w) ((rangeFrom 0 32).map one)
  let reads := if k = 6 ∨ k = 7 then [ta, td] else [ta]
  { part := some (partialWr strict (tFmtd w) reads ((rangeFrom 0 32).zip r.1 |>.map (fun p => (reduceDest rows n p.1, p.2))))
    ev := r.2 }

/-! ### Compress and expand (R177) -/

/-- The selected elements, in position order. A signalling NaN that is not selected raises no flag (DESIGN CHOICE, assumption 84). -/
def compress : List Val → List Val → List Val
  | x :: xs, m :: ms => if selected m then x :: compress xs ms else compress xs ms
  | _, _ => []

def expand : List Val → List Val → List Val
  | _, [] => []
  | xs, m :: ms => if selected m then xs.headD zeroVal :: expand xs.tail ms else zeroVal :: expand xs ms

/-- The number of selected positions of a mask buffer. -/
def selCount (ms : List Val) : Nat := countIf selected ms

/-! ### Functions (R178) and softmax (R168, R179, R180) -/

/-- One of the functions of R178 by its TOP. The special operands are exact, and so is a result of zero; every other value has a free
error within the bounds of R178 (assumption 5). -/
def funOp (t n use i : Nat) (x : Val) : VF :=
  match x with
  | .nan s => ⟨.nan false, if s then fNV else 0⟩
  | .inf neg =>
    if t = 0x30 ∨ t = 0x31 then exactly (if neg then zeroVal else .inf false)
    else if t = 0x32 ∨ t = 0x33 then (if neg then ⟨.nan false, fNV⟩ else exactly (.inf false))
    else if t = 0x34 then exactly (.fin neg 0 0)
    else if t = 0x35 then (if neg then ⟨.nan false, fNV⟩ else exactly (.inf false))
    else if t = 0x36 then (if neg then ⟨.nan false, fNV⟩ else exactly zeroVal)
    else if t = 0x37 then exactly (.fin neg 1 0)
    else if t = 0x38 then exactly (if neg then zeroVal else .fin false 1 0)
    else exactly (if neg then .fin true 0 0 else .inf false)
  | .fin neg m e =>
    let near := fun (v : Val) => exactly (nearRel 31 n use i v)
    if t = 0x30 then near (expVal x)
    else if t = 0x31 then near (exp2Val x)
    else if t = 0x32 ∨ t = 0x33 then
      (if m = 0 then ⟨.inf true, fDZ⟩
       else if neg then ⟨.nan false, fNV⟩
       else
         let l := lnFx m e
         exactly (nearAbs 31 n use i (ofFx (if t = 0x32 then l else l * fxOne / fxLn2))))
    else if t = 0x34 then (if m = 0 then ⟨.inf neg, fDZ⟩ else near (Val.div oneVal x).v)
    else if t = 0x35 then
      (if m = 0 then exactly x else if neg then ⟨.nan false, fNV⟩ else near (Val.sqrt x).v)
    else if t = 0x36 then
      (if m = 0 then ⟨.inf neg, fDZ⟩
       else if neg then ⟨.nan false, fNV⟩
       else near (Val.div oneVal (Val.sqrt x).v).v)
    else if t = 0x37 then (if m = 0 then exactly x else near (tanhVal x))
    else if t = 0x38 then near (sigmVal x)
    else exactly (nearAbs 40 n use i (nearRel 30 n (use + 1) i (if t = 0x39 then geluVal x else siluVal x)))

def funAll (t n use : Nat) : Nat → List Val → List VF
  | _, [] => []
  | i, x :: xs => funOp t n use i x :: funAll t n use (i + 1) xs

/-- The positions of a row that the mask of R179 masks: `true` is masked. `row` is the row, `qv` the signed q[PREG]. -/
def softMask (aux : Nat) (qv : Int) (row : Nat) : Nat → List Val → List Bool
  | _, [] => []
  | c, b :: bs =>
    ((bit aux 16 && ! selected b) || (bit aux 17 && decide (qv < (c : Int) - (row : Int)))) :: softMask aux qv row (c + 1) bs

/-- The unmasked elements of a row. -/
def unmasked : List Bool → List Val → List Val
  | m :: ms, x :: xs => if m then unmasked ms xs else x :: unmasked ms xs
  | _, _ => []

/-- The largest finite value of a list, minus infinity when there is none. -/
def maxFinite : List Val → Val
  | [] => .inf true
  | x :: xs => let m := maxFinite xs; if x.isFin && Val.lt true m x then x else m

/-- e^(x - top) of an element, and the sum of it over the finite ones. -/
def expBelow (top x : Val) : Val := expVal (Val.sub .rne x top).v
def sumExp (top : Val) (us : List Val) : Val :=
  (us.filter Val.isFin).foldl (fun a x => (Val.add .rne a (expBelow top x)).v) zeroVal

/-- The values of a row by its case of Table 6.10: `k` is the count of case 3, `top` and `sum` the maximum and the sum of exponentials
of case 4, whose outputs have a free error within R179 and R180. -/
def softRow (n use i : Nat) (cas : Nat) (k : Nat) (top sum : Val) : List Bool → List Val → List VF
  | m :: ms, x :: xs =>
    let v : VF :=
      match cas with
      | 1 => exactly (.nan false)
      | 2 => exactly zeroVal
      | 3 => if ! m && decide (x = .inf false) then Val.div (.fin false 1 0) (.fin false k 0) else exactly zeroVal
      | _ => if m || decide (x = .inf true) then exactly zeroVal else exactly (nearRel 31 n use i (Val.div (expBelow top x) sum).v)
    v :: softRow n use (i + 1) cas k top sum ms xs
  | _, _ => []

def anyNan (xs : List Val) : Bool := xs.any Val.isNan
def posInfs (xs : List Val) : Nat := countIf (fun x => decide (x = .inf false)) xs

/-- The case of Table 6.10 for the unmasked elements of a row. -/
def softCase (us : List Val) : Nat :=
  if anyNan us then 1
  else if us.all (fun x => decide (x = .inf true)) then 2
  else if posInfs us ≠ 0 then 3
  else 4

/-- SMAX (R179): every row of TA a whole softmax row of 32 elements. -/
def smaxRows (n use : Nat) (aux : Nat) (qv : Int) (xs ms : List Val) : List Nat → List VF × Nat × Flags
  | [] => ([], 0, 0)
  | i :: is =>
    let row := rowOf i xs
    let mk := softMask aux qv i 0 (rowOf i ms)
    let us := unmasked mk row
    let cas := softCase us
    let top := maxFinite us
    let h := softRow n use (32 * i) cas (posInfs us) top (sumExp top us) mk row
    let r := smaxRows n use aux qv xs ms is
    (h ++ r.1, r.2.1 + (if cas = 2 then 2 ^ i else 0), r.2.2 ||| (if anySig us then fNV else 0))

/-- SMNM (R180): the case comes from the row statistics in TC, of which a signalling NaN raises invalid (R147). -/
def smnmRows (n use : Nat) (aux : Nat) (qv : Int) (xs ms tc : List Val) : List Nat → List VF × Nat × Flags
  | [] => ([], 0, 0)
  | i :: is =>
    let row := rowOf i xs
    let mk := softMask aux qv i 0 (rowOf i ms)
    let st := rowOf i tc
    let c3 := tabGet zeroVal st 3
    let kk := tabGet zeroVal st 2
    let cas :=
      if ! c3.isZero then 1
      else if tabGet zeroVal st 0 = .inf true ∧ kk.isZero then 2
      else if Val.lt false kk (.fin false 1 0) then 4
      else 3
    let one : Val → VF := fun x => if x = .inf false then Val.div (.fin false 1 0) kk else exactly zeroVal
    let h := if cas = 3 then
        zip2 (fun m x => if selected m then exactly zeroVal else one x) (mk.map (fun b => .fin false (flag b) 0)) row
      else softRow n use (32 * i) cas 0 (tabGet zeroVal st 0) (tabGet zeroVal st 1) mk row
    let r := smnmRows n use aux qv xs ms tc is
    (h ++ r.1, r.2.1 + (if cas = 2 then 2 ^ i else 0),
     r.2.2 ||| (if cas = 1 ∧ anySig (unmasked mk row) then fNV else 0) ||| sigFlags (st.take 4))

/-- SMST (R180) for one row: the new columns 0 to 3. M, k and the NaN mark are exact; the sum of exponentials has a free error that,
with its rounding to W48, is at most 2^-36 (DEDUCED from R180's bound, assumption 5). -/
def smstRow (n use : Nat) (first : Bool) (us old : List Val) (i : Nat) : List VF :=
  let m0 := if first then .inf true else tabGet zeroVal old 0
  let k0 := if first then zeroVal else tabGet zeroVal old 2
  let n0 := if first then zeroVal else tabGet zeroVal old 3
  let m := (Val.max m0 (maxFinite us)).v
  let anyNew := us.any Val.isFin
  let s0 := if first then zeroVal else tabGet zeroVal old 1
  let kept := if m0.isFin then (Val.mul s0 (expBelow m m0)).v else zeroVal
  let s : Val := if anyNew then nearRel 37 n use i (Val.add .rne kept (sumExp m us)).v else s0
  let k := Val.add .rne k0 (.fin false (posInfs us) 0)
  [exactly m, exactly s, k, ⟨if anyNan us || ! n0.isZero then oneVal else zeroVal, sigFlags us ||| (if first then 0 else sigFlags (old.take 4))⟩]

/-! ### BS8 (R146, R184) -/

/-- The value of a BS8 element (Table 6.3). -/
def bs8Val (s e : Nat) : Val :=
  if s = 0xFF then .nan false
  else if 128 ≤ e then .fin true (256 - e) ((s : Int) - 133)
  else .fin false e ((s : Int) - 133)

def bs8Rows (bs scales : Bytes) : Nat → List Val
  | 0 => []
  | n + 1 =>
    (bs.take 32).map (fun e => bs8Val (scales.headD 0).toNat e.toNat) ++ bs8Rows (bs.drop 32) scales.tail n

/-- The 1,024 values of a BS8 tile. -/
def bs8Vals (bs : Bytes) : List Val := bs8Rows bs (bs.drop 1024) 32

/-- The largest absolute value of a row of finite values. -/
def maxAbs : List Val → Val
  | [] => zeroVal
  | x :: xs => let m := maxAbs xs; if Val.lt false m x.abs then x.abs else m

/-- One encoded BS8 row: 32 element bytes, the scale, SATS, UNDERS, the flags of strict mode, and whether a value lies
beyond the range (R184). -/
structure Bs8Row where
  els : Bytes
  scale : Byte
  sats : Nat
  unders : Nat
  fl : Flags
  beyondRange : Bool
  deriving DecidableEq, Repr

/-- The signed codes of a row at a scale, and whether any is inexact. -/
def bs8Codes (s : Int) : List Val → List Int × Bool
  | .fin n m e :: t =>
    let r := roundAt .rne n m e (s - 133)
    let q := bs8Codes s t
    (signedOf n r.1 :: q.1, r.2 || q.2)
  | _ :: t => let q := bs8Codes s t; (0 :: q.1, q.2)
  | [] => ([], false)

def bs8Encode (strict : Bool) (xs : List Val) : Bs8Row :=
  let zero := List.replicate 32 (0 : Byte)
  if xs.any (fun x => ! x.isFin) then
    ⟨zero, 0xFF, 0, 0, if xs.any Val.isInf || anySig xs then fNV else 0, xs.any (fun x => ! x.isFin)⟩
  else
    match maxAbs xs with
    | .fin _ m e =>
      if m = 0 then ⟨zero, 0, 0, 0, 0, false⟩
      else
        let raw : Int := (Nat.log2 m : Int) + e + 127
        let s0 : Int := if raw < 0 then 0 else if 254 < raw then 254 else raw
        let c0 := bs8Codes s0 xs
        let s := if c0.1.any (fun c => decide (128 ≤ c.natAbs)) && decide (s0 < 254) then s0 + 1 else s0
        let c := bs8Codes s xs
        let high := countIf (fun v => decide (127 < v.natAbs)) c.1
        let lim := c.1.map (fun v => if 127 < v then 127 else if v < -127 then (-127 : Int) else v)
        let und := countIf id (zipTiny c.1 xs)
        if high ≠ 0 ∧ strict then ⟨zero, 0xFF, high, und, fOF ||| fNX ||| (if und ≠ 0 then fUF else 0), true⟩
        else ⟨lim.map (fun v => BitVec.ofNat 8 (ofSigned 8 v)), BitVec.ofNat 8 s.toNat, high, und,
              (if c.2 then fNX else 0) ||| (if und ≠ 0 then fUF else 0), decide (high ≠ 0)⟩
    | _ => ⟨zero, 0xFF, 0, 0, 0, true⟩
where
  zipTiny : List Int → List Val → List Bool
    | c :: cs, x :: xs => (decide (c = 0) && ! x.isZero) :: zipTiny cs xs
    | _, _ => []

/-- The rows of a tile encoded as BS8, `n` rows from row `i` on. -/
def bs8Tile (strict : Bool) (xs : List Val) : Nat → List Bs8Row
  | 0 => []
  | n + 1 => bs8Encode strict (xs.take 32) :: bs8Tile strict (xs.drop 32) n

def bs8Bytes (rows : List Bs8Row) : Bytes := (rows.map (fun r => r.els)).flatten ++ rows.map (fun r => r.scale)

/-! ### Flurry (R189, R190) -/

def m64 (x : Nat) : Nat := x % 2 ^ 64

def flurryMix (z : Nat) : Nat :=
  let z1 := m64 ((z ^^^ (z / 2 ^ 30)) * 0xBF58476D1CE4E5B9)
  let z2 := m64 ((z1 ^^^ (z1 / 2 ^ 27)) * 0x94D049BB133111EB)
  z2 ^^^ (z2 / 2 ^ 31)

/-- The 24-bit Flurry value of an element index (R189). -/
def flurryValue (f : Flurry) (e : Nat) : Nat :=
  let k := f.seed.toNat ^^^ (f.layer.toNat * 2 ^ 32 + f.step.toNat)
  let z := flurryMix (m64 (k + m64 ((e + 1) * 0x9E3779B97F4A7C15)))
  flurryMix (z ^^^ k) / 2 ^ 40

def flurryAt (f : Flurry) (q i : Nat) : Nat := flurryValue f (m64 (f.ibase.toNat + 1024 * q + i))

/-! ### Statistics (R182, R183) -/

/-- Squares of the finite observed elements rounded to W48, +0 for the others. The roundings that SUMSQ takes are those of a statistic:
they raise no flag and count no event (DESIGN CHOICE, assumption 70). -/
def squares (strict : Bool) (xs : List Val) : List WR :=
  xs.map (fun x => if x.isFin then wRnd strict (Val.mul x x) else { v := zeroVal })

/-- The W48 encoding of a W48 value. -/
def wBits (v : Val) : W48 := BitVec.ofNat 48 (convert true w48 .rne v).bits

/-- A set after an operation's events, in issue order; counters saturate. -/
def StatSet.take (s : StatSet) (strict : Bool) (e : TEvents) : StatSet :=
  let s1 := { s with
    sats := satAdd 32 s.sats.toNat e.sats
    unders := satAdd 32 s.unders.toNat e.unders
    allmasks := satAdd 32 s.allmasks.toNat e.allmasks
    flags := if strict then s.flags ||| e.flags else s.flags }
  match e.observed with
  | none => s1
  | some xs =>
    let nn := countIf Val.isNan xs
    let ni := countIf Val.isInf xs
    let mx := maxAbs (xs.filter Val.isFin)
    let am := wVal s.amax
    { s1 with
      count := satAdd 64 s.count.toNat xs.length
      nans := satAdd 32 s.nans.toNat nn
      infs := satAdd 32 s.infs.toNat ni
      longsums := satAdd 32 s.longsums.toNat (flag e.longsum)
      amax := if Val.lt false am mx then wBits mx else s.amax
      sumsq := wBits (WR.op strict (Val.add .rne) { v := wVal s.sumsq } (WR.tree strict 10 (squares strict xs))).v
      ops := satAdd 32 s.ops.toNat 1
      firstnf := if s.firstnf = 0xFFFFFFFF ∧ nn + ni ≠ 0 then s.ops else s.firstnf }

/-- The 64 bytes of a statistics set (Table 7.4). -/
def statBytes (s : StatSet) : Bytes :=
  natLe 8 s.count.toNat ++ natLe 4 s.nans.toNat ++ natLe 4 s.infs.toNat ++ natLe 4 s.sats.toNat ++
  natLe 4 s.unders.toNat ++ natLe 4 s.longsums.toNat ++ natLe 4 s.allmasks.toNat ++ natLe 6 s.amax.toNat ++
  natLe 6 s.sumsq.toNat ++ natLe 4 s.ops.toNat ++ natLe 4 s.firstnf.toNat ++ natLe 1 s.flags.toNat ++ natLe 11 0

/-- Each field of a statistics set old or new, by free choice (R183). -/
def StatSet.pick (n use : Nat) (a b : StatSet) : StatSet :=
  { count := if freeBit n use 0 then a.count else b.count
    nans := if freeBit n use 1 then a.nans else b.nans
    infs := if freeBit n use 2 then a.infs else b.infs
    sats := if freeBit n use 3 then a.sats else b.sats
    unders := if freeBit n use 4 then a.unders else b.unders
    longsums := if freeBit n use 5 then a.longsums else b.longsums
    allmasks := if freeBit n use 6 then a.allmasks else b.allmasks
    amax := if freeBit n use 7 then a.amax else b.amax
    sumsq := if freeBit n use 8 then a.sumsq else b.sumsq
    ops := if freeBit n use 9 then a.ops else b.ops
    firstnf := if freeBit n use 10 then a.firstnf else b.firstnf
    flags := if freeBit n use 11 then a.flags else b.flags }

/-! ### Optimizer contexts (R185 to R188) -/

def ctxOfBytes (bs : Bytes) : OptCtx :=
  let w := fun k => BitVec.ofNat 32 (leNat ((bs.drop (4 * k)).take 4))
  let f := (tabGet 0 bs 52).toNat
  { eta := w 0, beta1 := w 1, beta2 := w 2, eps := w 3, lambda := w 4, sigma := w 5, clip := w 6, gs := w 7,
    b1t := w 8, b2t := w 9, step := w 10, block := w 11, failblk := w 12, failed := f.testBit 0,
    cause := BitVec.ofNat 2 (f / 2), rest := BitVec.ofNat 93 (leNat (bs.drop 52) / 8) }

def ctxBytes (c : OptCtx) : Bytes :=
  ([c.eta, c.beta1, c.beta2, c.eps, c.lambda, c.sigma, c.clip, c.gs, c.b1t, c.b2t, c.step, c.block, c.failblk].map
    (fun x => natLe 4 x.toNat)).flatten ++ natLe 12 (flag c.failed + 2 * c.cause.toNat + 8 * c.rest.toNat)

/-- Each field of a context old or new, by free choice (R89 part 3). -/
def OptCtx.pick (n use : Nat) (a b : OptCtx) : OptCtx :=
  let p := fun i (x y : U32) => if freeBit n use i then x else y
  { eta := p 0 a.eta b.eta, beta1 := p 1 a.beta1 b.beta1, beta2 := p 2 a.beta2 b.beta2, eps := p 3 a.eps b.eps,
    lambda := p 4 a.lambda b.lambda, sigma := p 5 a.sigma b.sigma, clip := p 6 a.clip b.clip, gs := p 7 a.gs b.gs,
    b1t := p 8 a.b1t b.b1t, b2t := p 9 a.b2t b.b2t, step := p 10 a.step b.step, block := p 11 a.block b.block,
    failblk := p 12 a.failblk b.failblk, failed := if freeBit n use 13 then a.failed else b.failed,
    cause := if freeBit n use 14 then a.cause else b.cause
    rest := if freeBit n use 15 then a.rest else b.rest }

/-- Each field of a Flurry context old or new, by free choice (R89 part 3). -/
def Flurry.pick (n use : Nat) (a b : Flurry) : Flurry :=
  { seed := if freeBit n use 0 then a.seed else b.seed
    layer := if freeBit n use 1 then a.layer else b.layer
    step := if freeBit n use 2 then a.step else b.step
    ibase := if freeBit n use 3 then a.ibase else b.ibase }

def v32 (x : U32) : Val := decodeVal f32 x.toNat
/-- RNE_FP32 of a result, and its events. -/
def rne32 (strict : Bool) (x : VF) : U32 × TEvents :=
  let r := roundAll strict 7 [x]
  (BitVec.ofNat 32 (r.1.headD 0), r.2)

/-- OPTBEGIN (R186). -/
def optBegin (strict : Bool) (aux : Nat) (c : OptCtx) (st : StatSet) : OptCtx × TEvents :=
  let c1 := { c with block := 0, failed := false, cause := 0, failblk := 0xFFFFFFFF }
  let cl := v32 c.clip
  let ss := wVal st.sumsq
  let root := Val.sqrt ss
  let quot := Val.div cl root.v
  let fct : VF := if ss.isZero then exactly oneVal else ⟨(Val.min oneVal quot.v).v, root.fl ||| quot.fl⟩
  let p := Val.mul (v32 c.sigma) fct.v
  let g := rne32 strict ⟨p.v, p.fl ||| fct.fl⟩
  let c2 := if Val.lt false zeroVal cl then ({ c1 with gs := g.1 }, g.2) else (c1, {})
  if bit aux 2 ∧ st.nans.toNat + st.infs.toNat ≠ 0 then ({ c2.1 with failed := true, cause := 2, failblk := 0 }, c2.2) else c2

/-- OPTEND (R188). -/
def optEnd (strict : Bool) (c : OptCtx) : OptCtx × TEvents :=
  if c.failed then (c, {})
  else
    let b1 := rne32 strict (Val.mul (v32 c.b1t) (v32 c.beta1))
    let b2 := rne32 strict (Val.mul (v32 c.b2t) (v32 c.beta2))
    ({ c with step := c.step + 1, b1t := b1.1, b2t := b2.1 },
     { sats := b1.2.sats + b2.2.sats, unders := b1.2.unders + b2.2.unders, flags := b1.2.flags ||| b2.2.flags })

/-- The value of a field of a context. -/
def e32 (x : U32) : WR := { v := v32 x }

/-- What phase B computes of one element. -/
structure OptEl where
  g : WR
  m : WR
  v : WR
  w : WR
  deriving DecidableEq, Repr

/-- One element of a block (R187), each operation rounded to W48. -/
def optElem (strict : Bool) (n use i : Nat) (c : OptCtx) (gg m0 v0 w0 : Val) : OptEl :=
  let exactly := fun (x : Val) => ({ v := x } : WR)
  let wmul := WR.op strict Val.mul
  let wadd := WR.op strict (Val.add .rne)
  let wsub := WR.op strict (Val.sub .rne)
  let wdiv := WR.op strict Val.div
  let one : WR := exactly oneVal
  let b1 := e32 c.beta1
  let b2 := e32 c.beta2
  let g := wmul (e32 c.gs) (exactly gg)
  let m := wadd (wmul b1 (exactly m0)) (wmul (wsub one b1) g)
  let v := wadd (wmul b2 (exactly v0)) (wmul (wmul (wsub one b2) g) g)
  let c1 := wsub one (wmul (e32 c.b1t) b1)
  let c2 := wsub one (wmul (e32 c.b2t) b2)
  let q := wdiv v c2
  let sq := Val.sqrt q.v
  let root := wRnd strict ⟨nearRel 31 n use i sq.v, sq.fl ||| q.fl⟩
  let upd := wadd (wdiv (wdiv m c1) (wadd root (e32 c.eps))) (wmul (e32 c.lambda) (exactly w0))
  ⟨g, m, v, wsub (exactly w0) (wmul (e32 c.eta) upd)⟩

def optElems (strict : Bool) (n use : Nat) (c : OptCtx) : Nat → List Val → List Val → List Val → List Val → List OptEl
  | i, g :: gs, m :: ms, v :: vs, w :: ws => optElem strict n use i c g m v w :: optElems strict n use c (i + 1) gs ms vs ws
  | _, _, _, _, _ => []

def OptEl.finite (e : OptEl) : Bool := e.g.v.isFin && e.m.v.isFin && e.v.v.isFin && e.w.v.isFin
/-- One of the W48 roundings of an element has saturated (Table 6.9). -/
def OptEl.sat (e : OptEl) : Bool := e.g.sat || e.m.sat || e.v.sat || e.w.sat
def OptEl.flags (e : OptEl) : Flags := e.g.fl ||| e.m.fl ||| e.v.fl ||| e.w.fl

/-- The events of a block (R182 to R184): SATS counts an element once, whichever of its roundings, in W48 or to FMTD, saturated. -/
def optEvents (strict : Bool) (fmtd : Nat) (es : List OptEl) (rows : List Bs8Row) : TEvents :=
  let rw := roundWR strict fmtd (es.map (fun p => { v := p.w.v, fl := p.flags, sat := p.sat }))
  { rw.2 with
    sats := rw.2.sats + sumNat (rows.map (fun r => r.sats))
    unders := rw.2.unders + sumNat (rows.map (fun r => r.unders))
    flags := rows.foldl (fun f r => f ||| r.fl) rw.2.flags }

/-- OPTB (R187): a block of bytes at the operation's address, with the gradient tile in TA. A failing block writes nothing and reports
the events of its computation (R183). -/
def optBlock (strict : Bool) (n use : Nat) (fmtd addr : Nat) (c : OptCtx) (ta : TBuf) (bs : Bytes) : TRes :=
  let next := { c with block := c.block + 1 }
  if c.failed then { ctx := some next, refused := true }
  else
    let wsz := if fmtd = 7 then 4096 else 2048
    let gs := ta.vals
    let es := optElems strict n use c 0 gs (bs8Vals (bs.drop wsz)) (bs8Vals (bs.drop (wsz + 1280))) (tileVals fmtd 1024 (bs.take wsz))
    let rw := roundAll strict fmtd (es.map (fun p => exactly p.w.v))
    let rm := bs8Tile strict (es.map (fun p => p.m.v)) 32
    let rv := bs8Tile strict (es.map (fun p => p.v.v)) 32
    let ev := optEvents strict fmtd es (rm ++ rv)
    let bad := gs.any (fun x => ! x.isFin) || es.any (fun p => ! p.finite) ||
      es.any (fun p => (convert false ((fmtOfCode fmtd).getD f32) .rne p.w.v).counted) ||
      rm.any (fun r => r.beyondRange) || rv.any (fun r => r.beyondRange)
    if bad then
      { ctx := some { next with failed := true, cause := 1, failblk := c.block }, refused := true, ev := ev }
    else
      { ctx := some next
        pocket := [(addr, elemBytes fmtd rw.1), (addr + wsz, bs8Bytes rm), (addr + wsz + 1280, bs8Bytes rv)]
        ev := ev }

/-! ### The whole operation -/

/-- The values of a buffer named by a field. -/
def bufAt (bufs : List TBuf) (i : Nat) : TBuf := tabGet {} bufs i

/-- An operation that reads the elements of TD that it writes: the accumulating reductions, and SMST without FIRST (R176, R180). -/
def readsTd (w : Nat) : Bool :=
  decide (tTop w = 0x56 ∨ tTop w = 0x57 ∨ tTop w = 0x66 ∨ tTop w = 0x67) || (decide (tTop w = 0x3C) && !bit (tAux w) 0)

/-- The buffers that an operation reads (for LONGSUM and AFLAGS). -/
def readBufs (w : Nat) (bufs : List TBuf) : List TBuf :=
  match tailorUse w with
  | none => []
  | some u =>
    (if u.ta then [bufAt bufs (tTa w)] else []) ++ (if u.tb then [bufAt bufs (tTb w)] else []) ++
    (if u.tc then [bufAt bufs (tTc w)] else []) ++ (if readsTd w then [bufAt bufs (tTd w)] else [])

/-- What a Tailor operation delivers, from its slot, its mode, the q value of PREG, its buffers as it read them, the Pocket
bytes it read, and the set and context it names. -/
def tailorResult (n use : Nat) (strict : Bool) (w q addr : Nat) (bufs : List TBuf) (bs : Bytes) (st : StatSet)
    (cx : OptCtx) (fl : Flurry) : TRes :=
  let t := tTop w
  let aux := tAux w
  let d := tFmtd w
  let ta := bufAt bufs (tTa w)
  let tb := bufAt bufs (tTb w)
  let tc := bufAt bufs (tTc w)
  let td := bufAt bufs (tTd w)
  let reads := readBufs w bufs
  let qv := toSigned 32 q
  let masks := decide (0x70 ≤ t ∧ t ≤ 0x73) || (decide (0x3B ≤ t ∧ t ≤ 0x3D) && bit aux 16)
  let afl : Flags := if t = 0x88 ∧ cx.failed then 0 else flagsOfA (readAflags strict reads) ||| (if masks then sigFlags tb.vals else 0)
  let addF := fun (r : TRes) => { r with ev := { r.ev with flags := r.ev.flags ||| afl } }
  addF <|
  if t = 0x01 then { buf := some (wholeBuf strict (tFmts w) [] (tileElems (tFmts w) 1024 bs)) }
  else if t = 0x02 ∨ t = 0x03 then
    { pocket := [(addr, elemBytes ta.tag ((fullPlane 0 1024 ta.els).map (fun x => x.toNat)))]
      ev := if t = 0x03 then { observed := some ta.vals, longsum := ta.longsum } else {} }
  else if t = 0x04 then { pocket := [(addr, statBytes st)], clearSet := bit aux 0 }
  else if t = 0x05 then { buf := some (wholeBuf strict d [] (List.replicate 1024 0)) }
  else if t = 0x06 then
    { flurry := some { seed := BitVec.ofNat 64 (leNat (bs.take 8)), layer := BitVec.ofNat 32 (leNat ((bs.drop 8).take 4)),
                       step := BitVec.ofNat 32 (leNat ((bs.drop 12).take 4)),
                       ibase := BitVec.ofNat 64 (leNat ((bs.drop 16).take 8)) } }
  else if 0x10 ≤ t ∧ t ≤ 0x1B then
    wholeRes strict d reads (zip3 (elemOp t (decodeVal bf16 (aux % 65536))) ta.vals tb.vals tc.vals)
  else if t = 0x20 then wholeRes strict d reads (ta.vals.map (fun v => ⟨v, sigFlag v⟩))
  else if t = 0x21 then wholeRes strict d [] ((tileVals (tFmts w) 1024 bs).map (fun v => ⟨v, sigFlag v⟩))
  else if t = 0x22 ∨ t = 0x23 then
    let r := roundAll strict d (ta.vals.map (fun v => ⟨v, sigFlag v⟩))
    { pocket := [(addr, elemBytes d r.1)]
      ev := if t = 0x23 then
          { r.2 with observed := some (r.1.map (decodeVal ((fmtOfCode d).getD w48))), longsum := ta.longsum }
        else r.2 }
  else if t = 0x28 then wholeRes strict d [] ((bs8Vals bs).map exactly)
  else if t = 0x29 then
    let rows := bs8Tile strict ta.vals 32
    { pocket := [(addr, bs8Bytes rows)]
      ev := { sats := sumNat (rows.map (fun r => r.sats)), unders := sumNat (rows.map (fun r => r.unders)),
              flags := rows.foldl (fun f r => f ||| r.fl) 0 } }
  else if 0x30 ≤ t ∧ t ≤ 0x3A then wholeRes strict d reads (funAll t n use 0 ta.vals)
  else if t = 0x3B then
    let r := smaxRows n use aux qv ta.vals tb.vals (rangeFrom 0 32)
    let x := wholeRes strict d reads r.1
    { x with
      buf := x.buf.map (fun b => { b with allmask := BitVec.ofNat 32 r.2.1 })
      ev := { x.ev with flags := x.ev.flags ||| r.2.2, allmasks := countIf (fun i => r.2.1.testBit i) (rangeFrom 0 32) } }
  else if t = 0x3C then
    let one := fun i =>
      smstRow n use (bit aux 0) (unmasked (softMask aux qv i 0 (rowOf i tb.vals)) (rowOf i ta.vals)) (rowOf i td.vals) i
    let r := roundAll strict 8 (((rangeFrom 0 32).map one).flatten)
    let pos := ((rangeFrom 0 32).map (fun i => [32 * i, 32 * i + 1, 32 * i + 2, 32 * i + 3])).flatten
    { part := some (partialWr strict 8 reads (pos.zip r.1)), ev := r.2 }
  else if t = 0x3D then
    let r := smnmRows n use aux qv ta.vals tb.vals tc.vals (rangeFrom 0 32)
    let x := wholeRes strict d reads r.1
    { x with
      buf := x.buf.map (fun b => { b with allmask := BitVec.ofNat 32 r.2.1 })
      ev := { x.ev with flags := x.ev.flags ||| r.2.2, allmasks := countIf (fun i => r.2.1.testBit i) (rangeFrom 0 32) } }
  else if 0x40 ≤ t ∧ t ≤ 0x46 then
    wholeRes strict d reads (zip3 (broadOp t) ta.vals (broadcast aux tb.vals) (broadcast aux tc.vals))
  else if (0x50 ≤ t ∧ t ≤ 0x57) ∨ (0x60 ≤ t ∧ t ≤ 0x67) then reduceRes strict w ta td
  else if t = 0x70 then
    let x := wholeRes strict d reads ((fullPlane zeroVal 1024 (compress ta.vals tb.vals)).map exactly)
    { x with qadd := some (aux % 16, selCount tb.vals) }
  else if t = 0x71 then
    let x := wholeRes strict d reads ((expand ta.vals tb.vals).map exactly)
    { x with qadd := some (aux % 16, selCount tb.vals) }
  else if t = 0x72 then
    let r := roundAll strict d ((compress ta.vals tb.vals).map (fun v => ⟨v, sigFlag v⟩))
    { pocket := [(addr, elemBytes d r.1)], ev := r.2, qadd := some (tPreg w, selCount tb.vals * (codeWidth d / 8)) }
  else if t = 0x73 then
    let k := selCount tb.vals
    let x := wholeRes strict d [] ((expand (tileVals (tFmts w) k bs) tb.vals).map (fun v => ⟨v, sigFlag v⟩))
    { x with qadd := some (tPreg w, k * (codeWidth (tFmts w) / 8)) }
  else if t = 0x80 then { ctx := some (ctxOfBytes bs) }
  else if t = 0x81 then
    let r := roundAll strict 8 (ta.vals.map (fun x => Val.mul (v32 cx.sigma) x))
    { ev := { r.2 with observed := some (r.1.map (decodeVal w48)), longsum := ta.longsum } }
  else if t = 0x82 then let r := optBegin strict aux cx st; { ctx := some r.1, ev := r.2 }
  else if t = 0x83 then let r := optEnd strict cx; { ctx := some r.1, ev := r.2 }
  else if t = 0x84 then { pocket := [(addr, ctxBytes cx)] }
  else if t = 0x88 then optBlock strict n use d addr cx ta bs
  else if t = 0x90 then
    let isInt := decide (d = 2 ∨ d = 6 ∨ d = 10)
    wholeRes strict d [] ((rangeFrom 0 1024).map (fun i => exactly (.fin false (flurryAt fl q i) (if isInt then 0 else -24))))
  else if t = 0x91 then
    wholeRes strict d [] ((rangeFrom 0 1024).map (fun i =>
      exactly (if 256 * (aux % 65536) ≤ flurryAt fl q i then .fin false 1 0 else zeroVal)))
  else if t = 0x92 then
    let x := wholeRes strict d [] (zip2 (fun m v => exactly (if selected m then v else zeroVal))
      ((rangeFrom 0 1024).map (fun i => if 256 * (aux % 65536) ≤ flurryAt fl q i then (.fin false 1 0 : Val) else zeroVal)) ta.vals)
    x
  else {}

end Sys2Proof.Machine
end

