-- ==== Sys2Proof/Machine/Island.lean ====
section
/-!
DEFINITION. Machine/Island.lean: a tile's array island as one thing: issue, landing, and the end of engine streams
(03 R73 to R91; 05 R123 to R136; 07 R177, R183). Cycles are array cycles of the tile.
-/
namespace Sys2Proof.Machine
open Sys2Proof

/-- What the array island tells the rest of the tile. -/
inductive EngOut where
  | gateAdd (g n : Nat)      -- a Gate increased (DONEGATE)
  | gateSub (g n : Nat)      -- a Gate decreased (GWAITD)
  | event (ticket : U16)     -- the engine event on the tile's C-core
  | parity (tailor : Bool)   -- an operation met a parity error (R137, R191)
  | badRead                  -- the sequencer met an uncorrectable error in a bundle, when it would issue, or in an argument block (R77)
  deriving DecidableEq, Repr

/-- The array island with the Pocket it works on and what it has told the rest of the tile. -/
structure Isl where
  eng : Engine
  pk : Mem
  out : List EngOut := []
  deriving DecidableEq, Repr

def qGet (q : List U32) (i : Nat) : Nat := (tabGet 0 q i).toNat
def qSet (q : List U32) (i v : Nat) : List U32 := tabSet 0 q i (BitVec.ofNat 32 v)

/-- Counter `i` of the island increased by `k` (objects 0x1310 to 0x1313, 0x1510 to 0x1512, 0x1610 to 0x1612). -/
def cntAdd (c : List Nat) (i k : Nat) : List Nat := tabSet 0 c i ((tabGet 0 c i + k) % 2 ^ 64)

def Engine.count (e : Engine) (i k : Nat) : Engine := { e with cnt := cntAdd e.cnt i k }
def Isl.setSeq (s : Isl) (f : Seq → Seq) : Isl := { s with eng := { s.eng with seq := f s.eng.seq } }
def Isl.count (s : Isl) (i k : Nat) : Isl := { s with eng := s.eng.count i k }
def Isl.tell (s : Isl) (o : EngOut) : Isl := { s with out := s.out ++ [o] }

/-! ### The parts of a bundle (Table 3.8) -/

def slotM0 (b : BitVec 256) : Nat := field b.toNat 255 208
def slotM1 (b : BitVec 256) : Nat := field b.toNat 207 160
def slotT (b : BitVec 256) : Nat := field b.toNat 159 96
def slotG (b : BitVec 256) : Nat := field b.toNat 95 48
def slotC (b : BitVec 256) : Nat := field b.toNat 47 0

def gGop (w : Nat) : Nat := field w 47 44
def gStream (w : Nat) : Nat := field w 43 40
def gDreg (w : Nat) : Nat := field w 39 36
def gDoff (w : Nat) : Nat := field w 35 26
def gGate (w : Nat) : Nat := field w 25 20
def gCount (w : Nat) : Nat := field w 19 0
def cCop (w : Nat) : Nat := field w 47 43
def cQ (w : Nat) : Nat := field w 42 39
def cGate (w : Nat) : Nat := field w 42 37
def cTarget (w : Nat) : Nat := field w 15 0
def cImm (w : Nat) : Nat := field w 31 0
def cValue (w : Nat) : Nat := field w 15 0

/-- The operation of slot `k` (0 M0, 1 M1, 2 T, 3 G, 4 C); 0 is a no-operation. -/
def slotOp (b : BitVec 256) (k : Nat) : Nat :=
  match k with
  | 0 => mMop (slotM0 b)
  | 1 => mMop (slotM1 b)
  | 2 => tTop (slotT b)
  | 3 => gGop (slotG b)
  | _ => cCop (slotC b)

/-- Whether a bundle faults with BADOP (R79 to R83, R89 part 2). -/
def bundleBad (usable : Nat) (b : BitVec 256) : Bool :=
  matrixBad usable (slotM0 b) || matrixBad usable (slotM1 b) || tailorBad (slotT b) ||
  decide (4 < gGop (slotG b)) || decide (11 < cCop (slotC b))

/-- Whether a matrix slot meets a unit or path that is busy at cycle `t` (R87, R89 part 1). -/
def matrixBusy (q : Seq) (t w : Nat) : Bool :=
  decide (mMop w ≠ 0) &&
    ((mArrays w).any (fun j => decide (t < tabGet 0 q.arrayBusy j)) ||
     (decide (mMop w = mopAcrd) && decide (t < q.acrdBusy)) ||
     (decide (mMop w = mopAcsv ∨ mMop w = mopAcld) && decide (t < q.saveBusy)))

/-- Whether the two matrix slots of one bundle meet in an array or a path (R79). -/
def slotsMeet (a b : Nat) : Bool :=
  decide (mMop a ≠ 0) && decide (mMop b ≠ 0) &&
    ((mArrays a).any (fun j => (mArrays b).contains j) ||
     (decide (mMop a = mopAcrd) && decide (mMop b = mopAcrd)) ||
     (decide (mMop a = mopAcsv ∨ mMop a = mopAcld) && decide (mMop b = mopAcsv ∨ mMop b = mopAcld)))

/-- Whether a bundle that issues at cycle `t` faults with OVERISSUE (R86, R89 part 1, Table 3.15: every Glide-slot operation, GADD
included, occupies the command path of its STREAM). -/
def bundleOver (q : Seq) (t : Nat) (b : BitVec 256) : Bool :=
  matrixBusy q t (slotM0 b) || matrixBusy q t (slotM1 b) || slotsMeet (slotM0 b) (slotM1 b) ||
  (decide (tTop (slotT b) ≠ 0) && decide (t < q.tailorBusy)) ||
  (decide (gGop (slotG b) ≠ 0) && decide (t < tabGet 0 q.glideBusy (gStream (slotG b))))

/-- The charge of a bundle in charge units (Table 19.4). -/
def matrixCharge (w : Nat) : Nat :=
  let n := (mArrays w).length
  if isMac w then n * (if mFmtA w = 7 then 1584 else if mFmtA w = 3 ∨ mFmtA w = 4 then 264 else 66)
  else if mMop w = mopAcz then n
  else if mMop w = mopAcrd then 4 * n
  else if mMop w = mopAcsv ∨ mMop w = mopAcld then 60 * n
  else 0

def bundleCharge (strict : Bool) (b : BitVec 256) : Nat :=
  matrixCharge (slotM0 b) + matrixCharge (slotM1 b) +
  (if tTop (slotT b) = 0 then 0 else 10 * tailorOcc strict (slotT b))

/-! ### Merging a write into the sources of operations under way -/

/-- Bytes that start at `addr` (wrapping in the Pocket) with a write of `seg` at `sa` merged in: an element that the write
covers is old or new, by free choice. -/
def mergeBytes (n use es : Nat) (addr sa : Nat) (seg : Bytes) : Nat → Bytes → Bytes
  | _, [] => []
  | i, b :: bs =>
    let o := (addr + i + pocketSize - sa % pocketSize) % pocketSize
    (if o < seg.length ∧ freeBit n use (i / es) then tabGet b seg o else b) :: mergeBytes n use es addr sa seg (i + 1) bs

/-- Whether a range of `len` bytes at `addr` meets one of `sl` bytes at `sa`, both wrapping in the Pocket. -/
def overlaps (addr len sa sl : Nat) : Bool :=
  decide (0 < len) && decide (0 < sl) &&
    (decide ((sa % pocketSize + pocketSize - addr % pocketSize) % pocketSize < len) ||
     decide ((addr % pocketSize + pocketSize - sa % pocketSize) % pocketSize < sl))

def mergeInto (n use es addr sa : Nat) (seg old : Bytes) : Bytes :=
  if addr < pocketSize ∧ overlaps addr old.length sa seg.length then mergeBytes n use es addr sa seg 0 old else old

/-- The element size of an operation's Pocket sources, in bytes. -/
def srcElem (f : InFlight) (b : Bool) : Nat :=
  let code := match f.unit with
    | .array _ => if b then mFmtB f.word else mFmtA f.word
    | .tailor => tFmts f.word
  if code = 5 ∨ code = 6 then 1 else codeWidth code / 8

/-- A Pocket write merged into an operation's sources (R72, R89 part 4); `fine` is a write by another unit, byte by byte. -/
def mergePocket (n use : Nat) (fine : Bool) (sa : Nat) (seg : Bytes) (f : InFlight) : InFlight :=
  { f with
    srcA := mergeInto n (use + 1) (if fine then 1 else srcElem f false) f.addrA sa seg f.srcA
    srcB := mergeInto n (use + 2) (if fine then 1 else srcElem f true) f.addrB sa seg f.srcB }

/-- Two planes merged element by element. -/
def mergeEls (n use : Nat) : Nat → List W48 → List W48 → List W48
  | _, [], [] => []
  | i, x :: xs, [] => (if freeBit n use i then x else 0) :: mergeEls n use (i + 1) xs []
  | i, [], y :: ys => (if freeBit n use i then 0 else y) :: mergeEls n use (i + 1) [] ys
  | i, x :: xs, y :: ys => (if freeBit n use i then x else y) :: mergeEls n use (i + 1) xs ys

/-- A buffer that is read while a write lands on it: each element, the TAG and each flag old or new. -/
def mergeBuf (n use : Nat) (a b : TBuf) : TBuf :=
  { els := mergeEls n use 0 a.els b.els
    tag := if freeBit n use 1024 then a.tag else b.tag
    longsum := if freeBit n use 1025 then a.longsum else b.longsum
    aflags := if freeBit n use 1026 then a.aflags else b.aflags
    allmask := if freeBit n use 1027 then a.allmask else b.allmask }

/-- Whether operation `r` has sources that a write of operation `w` landing at `t` can reach: `r` read early, or its
window is still open. -/
def reads (t : Nat) (w r : InFlight) : Bool :=
  decide (w.issue < r.issue) || decide (t < r.issue + r.occ)

/-! ### What an operation writes -/

/-- One write that an operation makes when it lands. -/
inductive Wr where
  | acc (k : Nat) (a : Acc)
  | buf (k : Nat) (b : TBuf)
  | part (k : Nat) (p : PartWr)
  | pocket (addr : Nat) (bs : Bytes)
  | ctx (k : Nat) (c : OptCtx)
  | flurry (f : Flurry)
  | stat (k : Nat) (e : TEvents)
  | clear (k : Nat)
  | qadd (r v : Nat)
  | refused
  deriving DecidableEq, Repr

/-- The number of the place in the free values that an operation uses. -/
def opUse (f : InFlight) : Nat :=
  match f.unit with
  | .array j => 128 * f.issue + 2 * j
  | .tailor => 128 * f.issue + 32

/-- One cell of an accumulator that operations against part 5 of R89 have met: the value of one order, of another, or
zero (R136). -/
def pickPlane (n use : Nat) : Nat → List W48 → List W48 → List W48
  | _, [], [] => []
  | i, x :: xs, [] => pick3 n use i x 0 :: pickPlane n use (i + 1) xs []
  | i, [], y :: ys => pick3 n use i 0 y :: pickPlane n use (i + 1) [] ys
  | i, x :: xs, y :: ys => pick3 n use i x y :: pickPlane n use (i + 1) xs ys
where
  pick3 (n use i : Nat) (x y : W48) : W48 :=
    match freePick n use i 3 with
    | 0 => x
    | 1 => y
    | _ => 0

def pickAcc (n use : Nat) (a b : Acc) : Acc :=
  { a with
    s := pickPlane n use 0 a.s b.s
    l0 := pickPlane n (use + 1) 0 a.l0 b.l0
    l1 := pickPlane n (use + 2) 0 a.l1 b.l1
    l2 := pickPlane n (use + 3) 0 a.l2 b.l2
    l3 := pickPlane n (use + 4) 0 a.l3 b.l3 }

/-- The candidates of ACRD's buffer merged element by element. -/
def acrdOf (n use : Nat) (strict : Bool) : List Acc → TBuf
  | [] => acrdBuf strict {}
  | [a] => acrdBuf strict a
  | a :: t => mergeBuf n use (acrdBuf strict a) (acrdOf n (use + 1) strict t)

/-- The candidates of ACSV's area merged cell by cell. -/
def saveOf (n use : Nat) : List Acc → Bytes
  | [] => saveBytes {}
  | [a] => saveBytes a
  | a :: t => mergeBytes n use 6 0 0 (saveOf n (use + 1) t) 0 (saveBytes a)

/-- The accumulator that an operation in array `j` addresses: a(2 j + ACCSEL). -/
def accIndex (j w : Nat) : Nat := 2 * j + mAccsel w

/-- What a matrix operation writes when it lands (R118, R134, R157). -/
def matrixWrites (n : Nat) (e : Engine) (j : Nat) (f : InFlight) : List Wr :=
  let w := f.word
  let k := accIndex j w
  let cur := tabGet {} e.accs k
  let fin := fun (a : Acc) => if f.early then pickAcc n (opUse f) a cur else a
  if isMac w then
    [.acc k (fin (accumulate f.strict (tabGet 0 e.keys j) f.fold (decide (mMop w = mopMmz)) cur
      (tileSums (mFmtA w) (mFmtB w) f.srcA f.srcB)))]
  else if mMop w = mopAcz then [.acc k ({} : Acc)]
  else if mMop w = mopAcrd then [.buf (mTbuf w) (acrdOf n (opUse f) f.strict f.accs)]
  else if mMop w = mopAcsv then [.pocket f.addrB (saveOf n (opUse f) f.accs)]
  else [.acc k (fin (loadAcc f.srcA))]

/-- What a Tailor operation writes when it lands. The contexts are those of its issue: what lands on one later is old or new, field by
field (R89 part 3, R188). -/
def tailorWrites (n : Nat) (st : StatSet) (f : InFlight) : List Wr :=
  let w := f.word
  let k := tAux w % 4
  let r := tailorResult n (opUse f) f.strict w f.q f.addrB f.bufs f.srcA st f.ctx f.flurry
  (match r.buf with | some b => [.buf (tTd w) b] | none => []) ++
  (match r.part with | some p => [.part (tTd w) p] | none => []) ++
  r.pocket.map (fun p => .pocket p.1 p.2) ++
  (match r.ctx with | some c => [.ctx k c] | none => []) ++
  (match r.flurry with | some x => [.flurry x] | none => []) ++
  (match r.qadd with | some p => [.qadd p.1 p.2] | none => []) ++
  (if r.clearSet then [.clear (tStset w)] else []) ++
  (if r.refused then [.refused] else []) ++
  [.stat (tStset w) r.ev]

/-- A statistics set old or new, field by field, in an update of an operation that was issued earlier and is still under way. -/
def statEarly (n use k issue : Nat) : List InFlight → StatSet → StatSet
  | [], s => s
  | w :: ws, s =>
    statEarly n use k issue ws
      (if w.unit = .tailor ∧ tStset w.word = k ∧ w.issue < issue then
        (tailorWrites n s w).foldl (fun s x => match x with
          | .stat _ ev => StatSet.pick n (use + w.issue) s (s.take w.strict ev)
          | .clear _ => StatSet.pick n (use + w.issue) s {}
          | _ => s) s
      else s)

/-- The statistics set that an operation landing now reads: updates and clears that were not readable when it issued are old or new,
field by field (R183). -/
def statRead (n use : Nat) (e : Engine) (k issue : Nat) : StatSet :=
  statEarly n use k issue e.seq.flight
    ((e.seq.statFlight.filter (fun u => decide (u.set = k) && decide (u.issue < issue) && decide (issue < u.land))).foldl
      (fun s u => StatSet.pick n (use + u.issue) s u.ev) (tabGet {} e.tailor.stats k))

def opWrites (n : Nat) (e : Engine) (f : InFlight) : List Wr :=
  match f.unit with
  | .array j => matrixWrites n e j f
  | .tailor => tailorWrites n (statRead n (opUse f + 16) e (tStset f.word) f.issue) f

/-- One write of operation `w` that lands at `t`, merged into the operation `r` that is under way. -/
def mergeWr (n t : Nat) (w : InFlight) (x : Wr) (r : InFlight) : InFlight :=
  if reads t w r then
    match x, r.unit with
    | .acc k a, .array j =>
      if (mMop r.word = mopAcrd ∨ mMop r.word = mopAcsv) ∧ accIndex j r.word = k then { r with accs := r.accs ++ [a] } else r
    | .buf k b, .tailor => { r with bufs := tabSet {} r.bufs k (mergeBuf n (opUse r + k) (bufAt r.bufs k) b) }
    | .part k p, .tailor =>
      let b := bufAt r.bufs k
      { r with bufs := tabSet {} r.bufs k (mergeBuf n (opUse r + k) b (p.put b)) }
    | .pocket a bs, _ => mergePocket n (opUse r + 40) false a bs r
    | .ctx k c, .tailor => if tAux r.word % 4 = k then { r with ctx := OptCtx.pick n (opUse r + 8) r.ctx c } else r
    | .flurry y, .tailor => { r with flurry := Flurry.pick n (opUse r + 9) r.flurry y }
    | _, _ => r
  else r

/-- Every write of operation `w` merged into `r`. -/
def mergeWrs (n t : Nat) (w : InFlight) : List Wr → InFlight → InFlight
  | [], r => r
  | x :: xs, r => mergeWrs n t w xs (mergeWr n t w x r)

/-- An operation that reads an accumulator whose parity has failed: it writes nothing (R137). -/
def readsFailed (e : Engine) (f : InFlight) : Bool :=
  match f.unit with
  | .array j =>
    ((isMac f.word && decide (mMop f.word ≠ mopMmz)) || decide (mMop f.word = mopAcrd ∨ mMop f.word = mopAcsv))
      && (tabGet ({} : Acc) e.accs (accIndex j f.word)).parityFailed
  | .tailor => false

/-- An operation about to land, with what the operations issued before it and still under way would write merged into its
sources: it used their results early (R89 part 3). -/
def mergeEarlier (n : Nat) (e : Engine) (f : InFlight) : List InFlight → InFlight
  | [] => f
  | w :: ws =>
    if w.issue < f.issue ∧ readsFailed e w = false then mergeEarlier n e (mergeWrs n f.land w (opWrites n e w) f) ws else mergeEarlier n e f ws

/-! ### Landing -/

/-- One write applied to the island. -/
def applyWr (f : InFlight) (x : Wr) (s : Isl) : Isl :=
  match x with
  | .acc k a => { s with eng := { s.eng with accs := tabSet {} s.eng.accs k a } }
  | .buf k b => { s with eng := { s.eng with tailor := { s.eng.tailor with bufs := tabSet {} s.eng.tailor.bufs k b } } }
  | .part k p =>
    { s with eng := { s.eng with tailor := { s.eng.tailor with
        bufs := tabSet {} s.eng.tailor.bufs k (p.put (tabGet {} s.eng.tailor.bufs k)) } } }
  | .pocket a bs => { s with pk := ringWrite pocketSize s.pk a bs }
  | .ctx k c => { s with eng := { s.eng with tailor := { s.eng.tailor with ctxs := tabSet {} s.eng.tailor.ctxs k c } } }
  | .flurry y => { s with eng := { s.eng with tailor := { s.eng.tailor with flurry := y } } }
  | .clear k =>
    let s1 := s.setSeq (fun q => { q with statFlight := q.statFlight ++ [⟨k, f.land + 4, f.issue, tabGet {} s.eng.tailor.stats k⟩] })
    { s1 with eng := { s1.eng with tailor := { s1.eng.tailor with stats := tabSet {} s1.eng.tailor.stats k (({} : StatSet)) } } }
  | .stat k ev =>
    let base := tabGet {} s.eng.tailor.stats k
    let upd := base.take f.strict ev
    let s1 := s.setSeq (fun q => { q with statFlight := q.statFlight ++ [⟨k, f.land + 4, f.issue, base⟩] })
    let s2 := { s1 with eng := { s1.eng with tailor := { s1.eng.tailor with stats := tabSet {} s1.eng.tailor.stats k upd } } }
    s2.count 8 ev.sats
  | .qadd r v => s.setSeq (fun q => { q with q := qSet q.q r (qGet q.q r + v) })
  | .refused => s.count 9 1

def applyWrs (f : InFlight) : List Wr → Isl → Isl
  | [], s => s
  | x :: xs, s => applyWrs f xs (applyWr f x s)

/-- The operation that lands first: the earliest landing, the earlier issued on a tie. -/
def firstLanding : List InFlight → Option InFlight
  | [] => none
  | f :: fs =>
    match firstLanding fs with
    | none => some f
    | some g => if f.land ≤ g.land then some f else some g

/-- An operation of a bundle meets an uncorrectable error: the stream is to fault, and the error is reported (R77). -/
def Isl.meet (tailor : Bool) (bundle : U16) (s : Isl) : Isl :=
  (s.setSeq (fun q => { q with run := q.run.map (fun r => { r with uncorr := some (r.uncorr.getD bundle) }) })).tell (.parity tailor)

/-- The running stream has met such an error. -/
def Isl.met (s : Isl) : Bool := match s.eng.seq.run with | some r => r.uncorr.isSome | none => false

/-- One operation lands: its result becomes whole, and its writes reach the operations under way (R87, R89). One that meets
a parity error delivers nothing. -/
def landOp (n : Nat) (f : InFlight) (s : Isl) : Isl :=
  let rest := s.eng.seq.flight.erase f
  if readsFailed s.eng f then (s.setSeq (fun q => { q with flight := rest })).meet false f.bundle else
  let f1 := mergeEarlier n s.eng f rest
  let ws := opWrites n s.eng f1
  let s1 := applyWrs f1 ws s
  s1.setSeq (fun q => { q with flight := rest.map (mergeWrs n f.land f1 ws) })

/-- FULL bits of the staging buffers that MMAVs have read by cycle `t` are cleared (R115). -/
def clearFull (t : Nat) : List InFlight → List Staging → List Staging
  | [], st => st
  | f :: fs, st =>
    let p := 2 * mPair f.word
    let st1 :=
      if f.fullDone || decide (t < f.issue + f.occ) then st
      else if mFmtA f.word = 3 ∨ mFmtA f.word = 4 then
        let a := tabSet {} st p { tabGet {} st p with full := false }
        tabSet {} a (p + 1) { tabGet {} a (p + 1) with full := false }
      else tabSet {} st (p + mSb f.word) { tabGet {} st (p + mSb f.word) with full := false }
    clearFull t fs st1

/-- The cycle reaches `t`: FULL bits due are cleared. -/
def markFull (t : Nat) (s : Isl) : Isl :=
  let fl := s.eng.seq.flight
  let s1 := { s with eng := { s.eng with staging := clearFull t fl s.eng.staging } }
  s1.setSeq (fun q => { q with
    flight := fl.map (fun f => if t < f.issue + f.occ then f else { f with fullDone := true }) })

/-- Every operation due by cycle `t` lands, in order (`k` bounds their number). -/
def settleGo (n t : Nat) : Nat → Isl → Isl
  | 0, s => s
  | k + 1, s =>
    match firstLanding s.eng.seq.flight with
    | none => s
    | some f =>
      if f.land ≤ t then
        let s1 := markFull f.land s
        match firstLanding s1.eng.seq.flight with
        | some g => settleGo n t k (landOp n g s1)
        | none => s1
      else s

/-- The island at cycle `t`: everything due has landed, and an update of statistics that is readable by then, also to every operation
under way, is no longer open. -/
def settle (n t : Nat) (s : Isl) : Isl :=
  let s1 := markFull t (settleGo n t s.eng.seq.flight.length s)
  s1.setSeq (fun q => { q with
    now := if q.now < t then t else q.now
    statFlight := q.statFlight.filter (fun u => decide (t < u.land) || q.flight.any (fun f => decide (f.issue < u.land))) })

/-- The cycle at which everything under way has landed. -/
def lastLanding : List InFlight → Nat → Nat
  | [], t => t
  | f :: fs, t => lastLanding fs (if t < f.land then f.land else t)

/-- Every operation under way lands. -/
def drain (n : Nat) (s : Isl) : Isl := settle n (lastLanding s.eng.seq.flight s.eng.seq.now) s

/-! ### The end of a stream (R75 to R77) -/

/-- EVENT and DONEGATE of an argument block, as an ended stream that never started has them read (R76). -/
def endArgs (pk : Mem) (st : Stream) : Stream :=
  if st.started then st
  else { st with
    event := (memGet pk ((st.args + 48) % pocketSize)).toNat.testBit 1
    doneGate := (memGet pk ((st.args + 49) % pocketSize)).toNat }

/-- A stream ends, running or queued: its record is kept among the eight newest, EVENT and DONEGATE act, and every FULL bit is
cleared (R76, R77, R115). -/
def endStream (st0 : Stream) (faulted : Bool) (cause : Nat) (s0 : Isl) : Isl :=
  let st := endArgs s0.pk st0
  let s := { s0 with eng := { s0.eng with staging := s0.eng.staging.map (fun (b : Staging) => { b with full := false }) } }
  let s1 := s.setSeq (fun q => { q with records := (⟨st.ticket, faulted, cause, st.bundle⟩ :: q.records).take 8 })
  let s2 := if st.doneGate < 64 then s1.tell (.gateAdd st.doneGate 1) else s1
  let s3 := if st.event then s2.tell (.event st.ticket) else s2
  if faulted then s3.count 3 1 else s3

/-- Every queued stream ends ABANDONED, in ticket order (R77). -/
def abandon : List Stream → Isl → Isl
  | [], s => s
  | st :: sts, s => abandon sts (endStream st true 6 s)

/-- A Gate wait that ends counts its stall (R92): from its start to the island's cycle, and on for a number of cycles that the
commands do not give, below the stream's limit. -/
def Isl.endWait (n use : Nat) (i : Isl) : Isl :=
  match i.eng.seq.waitFrom, i.eng.seq.run with
  | some c, some r =>
    let w := if r.waitLim = 0 then freeValue n 5 use else freeValue n 5 use % 2 ^ r.waitLim
    let now := Nat.max i.eng.seq.now (c + w)
    (i.setSeq (fun q => { q with now := now, waitFrom := none })).count 1 (now - c)
  | _, _ => i

/-- The running stream ends: what was issued has landed, and the prefetch queue is emptied. BUNDLE of an uncorrectable error names the
bundle that carried the operation (R77). -/
def endRunning (n : Nat) (faulted : Bool) (cause : Nat) (s : Isl) : Isl :=
  match s.eng.seq.run with
  | none => s
  | some st =>
    let st := if cause = 4 then { st with bundle := st.uncorr.getD st.bundle } else st
    let s1 := endStream st faulted cause (drain n (s.endWait n 200))
    s1.setSeq (fun q => { q with run := none, prefetch := [], issuing := none, waitFrom := none, bflush := false })

/-- The running stream faults (R77): the queued streams are abandoned. -/
def faultStream (n : Nat) (cause : Nat) (s : Isl) : Isl :=
  let s1 := endRunning n true cause s
  let q := s1.eng.seq.queue
  (abandon q s1).setSeq (fun x => { x with queue := [] })

/-- An uncorrectable error that the stream has met faults it in the same cycle, once the bundle at issue has issued whole (R77). -/
def faultMet (n : Nat) (s : Isl) : Isl := if s.met && s.eng.seq.issuing.isNone then faultStream n 4 s else s

/-! ### Issue -/

/-- The Gate that the control slot of a bundle waits for, and the value (R85). -/
def gateWait (b : BitVec 256) : Option (Nat × Nat) :=
  if cCop (slotC b) = 8 ∨ cCop (slotC b) = 9 then some (cGate (slotC b), cValue (slotC b)) else none

/-- Whether the Gate condition of a bundle holds on the sequencer's view. -/
def gateMet (q : Seq) (b : BitVec 256) : Bool :=
  match gateWait b with
  | none => true
  | some p => decide (p.2 ≤ qGet q.gates p.1)

/-- The cycle at which the head bundle issues. -/
def issueCycle (q : Seq) : Nat := if q.now < q.issueAt then q.issueAt else q.now

/-- The q register values that a bundle reads: a register with an addition of R177 on its way is old or new (R89 part 3). -/
def qView (n : Nat) (e : Engine) : List InFlight → List U32 → List U32
  | [], q => q
  | f :: fs, q =>
    let add : List Wr := match f.unit with
      | .tailor => if 0x70 ≤ tTop f.word ∧ tTop f.word ≤ 0x73 then tailorWrites n {} f else []
      | .array _ => []
    let q1 := add.foldl (fun q x => match x with
      | .qadd r v => if freeBit n (opUse f + 60) r then qSet q r (qGet q r + v) else q
      | _ => q) q
    qView n e fs q1

/-- A matrix operation put under way in array `j` (R87, R89, R120, R121). -/
def matrixFlight (s : Isl) (q : List U32) (strict : Bool) (bundle : U16) (slot w t j : Nat) : InFlight :=
  let sa := operandSize (mFmtA w)
  let sb := operandSize (mFmtB w)
  let odd := j % 2 = 1
  let a0 := pocketOperand (qGet q (mAreg w)) (mAoff w) 1024
  let b0 := pocketOperand (qGet q (mBreg w)) (mBoff w) 1024
  let aA := if mUse w = 3 ∧ odd then (a0 + sa) % pocketSize else a0
  let bA := if mUse w = 0 ∧ odd then (b0 + sb) % pocketSize else b0
  let e1 := tabGet 0 s.eng.seq.rowEnd j
  let p := 2 * mPair w
  let base : InFlight := { unit := .array j, slot := slot, word := w, issue := t, occ := matrixOcc strict w,
                           land := matrixLand strict w t e1, strict := strict, bundle := bundle, fold := tabGet 0 s.eng.folds j }
  let acc := tabGet {} s.eng.accs (accIndex j w)
  if mMop w = mopMmav then
    { base with
      srcA := if mFmtA w = 3 ∨ mFmtA w = 4 then
          fullPlane 0 1024 (tabGet {} s.eng.staging p).data ++ fullPlane 0 1024 (tabGet {} s.eng.staging (p + 1)).data
        else fullPlane 0 1024 (tabGet {} s.eng.staging (p + mSb w)).data
      addrA := pocketSize
      srcB := ringRead pocketSize s.pk bA sb
      addrB := bA
      fullDone := false }
  else if isMac w then
    { base with srcA := ringRead pocketSize s.pk aA sa, addrA := aA, srcB := ringRead pocketSize s.pk bA sb, addrB := bA }
  else if mMop w = mopAcld then { base with srcA := ringRead pocketSize s.pk a0 saveAreaSize, addrA := a0 }
  else if mMop w = mopAcz then base
  else { base with accs := [acc], addrA := pocketSize, addrB := a0 }

/-- The order of operations: by issue, then by slot. -/
def insertFlight (f : InFlight) : List InFlight → List InFlight
  | [] => [f]
  | g :: gs => if g.issue < f.issue ∨ (g.issue = f.issue ∧ g.slot ≤ f.slot) then g :: insertFlight f gs else f :: g :: gs

/-- ACZ against part 5 of R89: the operations still under way into its accumulator are marked (R136). -/
def markEarly (j w : Nat) (f : InFlight) : InFlight :=
  match f.unit with
  | .array i =>
    if i = j ∧ accIndex i f.word = accIndex j w ∧ (isMac f.word ∨ mMop f.word = mopAcld) then { f with early := true } else f
  | .tailor => f

/-- The operation of a matrix slot issued into array `j`. -/
def issueMatrixAt (q : List U32) (strict : Bool) (bundle : U16) (slot w t : Nat) (s : Isl) (j : Nat) : Isl :=
  let f := matrixFlight s q strict bundle slot w t j
  let e1 := tabGet 0 s.eng.seq.rowEnd j
  let s1 := s.setSeq (fun x => { x with
    flight := insertFlight f (if mMop w = mopAcz then x.flight.map (markEarly j w) else x.flight)
    arrayBusy := tabSet 0 x.arrayBusy j (t + f.occ)
    acrdBusy := if mMop w = mopAcrd then t + f.occ else x.acrdBusy
    saveBusy := if mMop w = mopAcsv ∨ mMop w = mopAcld then t + f.occ else x.saveBusy
    rowEnd := if isMac w then tabSet 0 x.rowEnd j (rowStart w t e1 + macSpan strict w) else x.rowEnd })
  let s2 := if isMac w then { s1 with eng := { s1.eng with folds := tabSet 0 s1.eng.folds j (tabGet 0 s1.eng.folds j + 1) } } else s1
  s2.count 5 f.occ

/-- A matrix slot issues (R79, R118). -/
def issueMatrix (q : List U32) (strict : Bool) (bundle : U16) (slot w t : Nat) (s : Isl) : Isl :=
  let s1 := (mArrays w).foldl (issueMatrixAt q strict bundle slot w t) s
  let s2 := s1.count 4 1
  if mMop w = mopAcsv ∨ mMop w = mopAcld then s2.count 6 1 else s2

/-- A Tailor slot issues (R81, R172). -/
def issueTailor (q : List U32) (strict : Bool) (bundle : U16) (w t : Nat) (s : Isl) : Isl :=
  let a := tailorAddr (qGet q (tPreg w)) w
  let k := tailorReads w
  let f : InFlight :=
    { unit := .tailor, slot := 2, word := w, issue := t, occ := tailorOcc strict w, land := t + tailorLat strict w,
      strict := strict, bundle := bundle, q := qGet q (tPreg w),
      srcA := if k = 0 then [] else ringRead pocketSize s.pk a k,
      addrA := if k = 0 then pocketSize else a, addrB := a, bufs := s.eng.tailor.bufs
      ctx := tabGet {} s.eng.tailor.ctxs (tAux w % 4), flurry := s.eng.tailor.flurry }
  (s.setSeq (fun x => { x with flight := insertFlight f x.flight, tailorBusy := t + f.occ })).count 7 1

/-- The head bundle and the stream it belongs to. A bundle that has begun to issue stays the head until its boundary. An
index of 65,536 or more marks a fetch that met an uncorrectable error (R77). -/
def headBundle (s : Isl) : Option (Stream × Nat × BitVec 256) :=
  match s.eng.seq.run, s.eng.seq.prefetch with
  | some st, (i, b) :: _ =>
    if st.started && (s.eng.seq.issuing.isSome || (! st.ended && ! st.stopping && st.uncorr.isNone)) then some (st, i, b) else none
  | _, _ => none

/-- What the start of a bundle's issue gives. -/
inductive Begin where
  | waits            -- its Gate condition does not hold, or there is no head bundle
  | faults (s : Isl) -- BADOP or OVERISSUE, none of its slots having taken effect
  | ready (s : Isl)  -- it can issue at the island's cycle once its charge is met
  deriving DecidableEq, Repr

/-- The head bundle comes to issue: errors that operations have met by now, its own fetch's, its Gate condition, then BADOP, then
OVERISSUE (R77, R85, R89). -/
def beginBundle (n usable : Nat) (s : Isl) : Begin :=
  match headBundle s with
  | none => .waits
  | some (_, i, b) =>
    if s.eng.seq.issuing.isSome then .ready s
    else if i < 65536 ∧ ! gateMet s.eng.seq b then .waits
    else
      let s1 := settle n (issueCycle s.eng.seq) s
      let named := s1.setSeq (fun q => { q with run := q.run.map (fun r => { r with bundle := BitVec.ofNat 16 i }) })
      if s1.met then .faults (faultStream n 4 s1)
      else if 65536 ≤ i then .faults (faultStream n 4 (named.tell .badRead))
      else if bundleBad usable b then .faults (faultStream n 1 named)
      else if bundleOver s1.eng.seq s1.eng.seq.now b then .faults (faultStream n 2 named)
      else .ready s1

/-- The head bundle issues, its charge met: the q registers are as they were before it, its Glide command occupies its
stream, and a GWAITD takes its decrease (R78, R85, R86). -/
def startIssue (n : Nat) (s : Isl) : Isl :=
  match headBundle s with
  | none => s
  | some (st, i, b) =>
    if s.eng.seq.issuing.isSome then s
    else
      let t := s.eng.seq.now
      let gw := slotG b
      let s1 := s.setSeq (fun q => { q with
        issuing := some { q := qView n s.eng q.flight q.q
                          qOwn := qView n s.eng (q.flight.filter (fun f => decide (f.land ≠ t + 1))) q.q
                          done := 0, cycle := t }
        run := some { st with bundle := BitVec.ofNat 16 i }
        waitFrom := none
        glideBusy := if gGop gw ≠ 0 then tabSet 0 q.glideBusy (gStream gw) (t + 4) else q.glideBusy
        gates := if cCop (slotC b) = 9 then qSet q.gates (cGate (slotC b)) (qGet q.gates (cGate (slotC b)) - cValue (slotC b))
          else q.gates })
      let s2 := if cCop (slotC b) = 9 then s1.tell (.gateSub (cGate (slotC b)) (cValue (slotC b))) else s1
      s2.count 0 1

/-- Whether every slot of a bundle that holds an operation has taken effect. -/
def allDone (b : BitVec 256) (d : BitVec 5) : Bool :=
  (rangeFrom 0 5).all (fun k => decide (slotOp b k = 0) || d.getLsbD k)

/-- An operation code of slot `k` of a bundle that its table reserves (Tables 3.10, 7.2, 3.13, 3.14). -/
def reservedOp (b : BitVec 256) (k : Nat) : Bool :=
  match k with
  | 0 => decide (7 < mMop (slotM0 b))
  | 1 => decide (7 < mMop (slotM1 b))
  | 2 => decide (tTop (slotT b) ≠ 0) && (tailorUse (slotT b)).isNone
  | 3 => decide (4 < gGop (slotG b))
  | _ => decide (11 < cCop (slotC b))

/-- No slot of a bundle holds an operation that a command names: each is a no-operation or reserved. -/
def noOps (b : BitVec 256) : Bool := (rangeFrom 0 5).all (fun k => decide (slotOp b k = 0) || reservedOp b k)

/-- The prefetch queue is emptied between bundles: the next bundle is fetched afresh (R91). -/
def Isl.flush (s : Isl) : Isl :=
  (s.setSeq (fun q => { q with
    prefetch := [], bflush := false
    fetchAt := match q.prefetch with | (i, _) :: _ => i % 65536 | [] => q.fetchAt })).count 2 1

/-- The bundle boundary: the bundle leaves the queue, the cycle moves on, and a waiting BFLUSH of the C-core acts
(R84, R91). -/
def finishBundle (n : Nat) (s : Isl) : Isl :=
  match headBundle s, s.eng.seq.issuing with
  | some (_, _, b), some x =>
    if allDone b x.done then
      let s1 := s.setSeq (fun q => { q with prefetch := q.prefetch.tail, issuing := none })
      let s2 := settle n (x.cycle + 1) s1
      if s2.eng.seq.bflush then s2.flush else s2
    else s
  | _, _ => s

/-- Slot `k` of the head bundle has taken effect. -/
def slotDone (k : Nat) (s : Isl) : Isl :=
  s.setSeq (fun q => { q with issuing := q.issuing.map (fun x => { x with done := x.done ||| BitVec.ofNat 5 (2 ^ k) }) })

/-- A branch that is taken in the bundle at cycle `t` (R84). -/
def takeBranch (target t : Nat) (s : Isl) : Isl :=
  (s.setSeq (fun q => { q with
    prefetch := match q.prefetch with | h :: _ => [h] | [] => []
    fetchAt := target % 65536
    issueAt := t + 3 })).count 2 1

end Sys2Proof.Machine
end

