-- ==== Sys2Proof/Machine/PocketOps.lean ====
section
/-!
DEFINITION. Machine/PocketOps.lean: what the C-core, the LVU and Glide do with Pocket bytes (03 R72; 01 R28).
-/
namespace Sys2Proof.Machine
open Sys2Proof

def pocketBytes : Nat := 0x200000

/-- A write of another unit meets the operations under way: where one is still reading its sources, each byte that it reads is old or
new (R72). -/
def Isl.otherWrite (n a : Nat) (b : Bytes) (i : Isl) : Isl :=
  { i.setSeq (fun q => { q with
      flight := q.flight.map (fun f => if q.now < f.issue + f.occ then mergePocket n (opUse f + 44) true a b f else f) }) with
    pk := ringWrite pocketSize i.pk a b }

/-- Bytes that the C-core, the LVU or Glide writes into a tile's Pocket. A load of theirs reads the Pocket as it stands: it finds a
concurrent bundle write whole or not at all (DESIGN CHOICE, assumption 67). -/
def State.pocketWrite (s : State) (t a : Nat) (b : Bytes) : State :=
  let x := s.tile t
  if x.eng.seq.flight.isEmpty then s.onTile t (fun y => { y with pocket := ringWrite pocketBytes y.pocket a b })
  else
    let i := Isl.otherWrite s.freeCtr a b { eng := x.eng, pk := x.pocket }
    (s.onTile t (fun y => { y with eng := i.eng, pocket := i.pk })).tick1

end Sys2Proof.Machine
end

