-- ==== Sys2Proof/Machine/Trans.lean ====
section
/-!
DEFINITION. Machine/Trans.lean: translation (11): contexts, the table walk with its checks, the Cuffs and the Collar, and
invalidation.
-/
namespace Sys2Proof.Machine
open Sys2Proof

/-- The outcome of a translation: a byte of the tile's Pocket, a global physical address (with the leaf's SHR bit), or a
fault with the cause of Table 11.5, or an uncorrectable error on a table; or its walk waits for the entry at a local address. -/
inductive Xl where
  | pocket (off : Nat)
  | ok (pa : Nat) (shr : Bool)
  | page
  | owner
  | uncorr
  | wait (a : Nat)
  deriving DecidableEq, Repr

/-- Bits [56:0] of a register value (R261). -/
def vaOf (v : U64) : Nat := v.toNat % 2 ^ 57

/-- The Pocket window (R261). -/
def pocketWindow (va : Nat) : Bool := decide (0x1FFFFFFFFE00000 ≤ va)

/-- A context (Table 11.1). -/
def ctxEn (c : U64) : Bool := c.getLsbD 63
def ctxRoot (c : U64) : Nat := field c.toNat 59 16 * 4096
def ctxAsid (c : U64) : U16 := BitVec.ofNat 16 (field c.toNat 15 0)

/-- The host-memory window as far as it is in use (R347). -/
def State.hostIn (s : State) (a : Nat) : Bool :=
  decide (place a = .host) && decide (s.obj 0x1E00 5 = 1) && decide (a - 0x40000000000 < s.obj 0x1E00 4 * 0x100000)

/-- Bits of page size `k`: 4 KiB, 64 KiB, 2 MiB, 1 GiB. -/
def pageBits (k : Nat) : Nat := match k with | 0 => 12 | 1 => 16 | 2 => 21 | _ => 30

/-- A table's address passes step 1 of R268. -/
def State.tableOk (s : State) (tag pa : Nat) : Bool :=
  decide (pkgOf pa = s.pkg) &&
    (match granuleOf (localOf pa) with
     | some g => if tag = 0 then decide (entState (s.granule g) = 0)
                 else decide (entState (s.granule g) = 1) && decide (entOwner (s.granule g) = tag)
     | none => decide (tag = 0) && s.hostIn (localOf pa))

/-- Steps 2 to 5 of R268 on a leaf's target. -/
def State.targetOk (s : State) (tag pa : Nat) (shr : Bool) : Bool :=
  if pkgOf pa ≠ s.pkg then true
  else
    let a := localOf pa
    match place a with
    | .window => true
    | .host => s.hostIn a && (decide (tag = 0) || shr)
    | .reserved => false
    | _ =>
      match granuleOf a with
      | none => false
      | some g =>
        let e := s.granule g
        if tag = 0 then decide (entState e = 0)
        else if shr then decide (entState e = 0)
        else decide (entState e = 1) && decide (entOwner e = tag)

/-- What a read of a table entry finds: its value, an uncorrectable error, or nothing yet, as the line at a local address is busy, held by
an owner, or in host memory. -/
inductive Entry where
  | is (v : Nat)
  | bad
  | due (a : Nat)
  deriving DecidableEq, Repr

/-- The 8-byte entry at an address, read coherently for a reader (R273), and the state after the read, in which an error of the line
has been acted on (R251). -/
def State.readEntry (s : State) (reader pa : Nat) : Entry × State :=
  let a := localOf pa
  if place a = .host then
    match s.coh.fetched.find? (fun p => decide (p.1 = a)) with
    | some (_, some v) => (.is v, s)
    | some (_, none) => (.bad, s)
    | none => (.due a, s)
  else if !s.free reader a 8 false false then (.due a, s)
  else match s.currentLine (lineOf a) reader with
    | (some b, s) => (.is (leNat ((b.drop (a % 64)).take 8)), s)
    | (none, s) => (.bad, s)

/-- What a read that has to wait asks for: a read of host memory, or the owner's data. -/
def State.askEntry (s : State) (reader a : Nat) : State :=
  if place a = .host then
    (if s.hedom.txns.any (fun x => decide (x.user = .walk a)) then s else s.hostTxn (.walk a) 4 (s.hostPa a) 8 [])
  else s.callIn reader a 8 false false

/-- Entries read from host memory that have been used. -/
def State.dropFetched (s : State) (used : Nat → Bool) : State :=
  { s with coh := { s.coh with fetched := s.coh.fetched.filter (fun p => !used p.1) } }

/-- What a walk comes to: a leaf with its level, a fault, or an entry for which it waits. -/
inductive Walk where
  | leaf (level : Nat) (e : Nat)
  | page
  | owner
  | uncorr
  | wait (a : Nat)
  deriving DecidableEq, Repr

/-- What a walk reads: the table pointers, each with the level at which it stands, and the addresses of its entries in order. -/
structure Trail where
  ptrs : List (Nat × Nat) := []
  reads : List Nat := []
  deriving DecidableEq, Repr

/-- The walk from a table at `level` (R264, R265, Table 11.5), with what it reads. -/
def State.walkFrom (s : State) (reader tag va : Nat) : Nat → Nat → Trail → Walk × Trail
  | level, table, p =>
    if !s.tableOk tag table then (.owner, p)
    else
      let a := table + 8 * (va / 2 ^ (12 + 9 * level) % 512)
      let p := { p with reads := p.reads ++ [a] }
      match (s.readEntry reader a).1 with
      | .due w => (.wait w, p)
      | .bad => (.uncorr, p)
      | .is e =>
        if !bit e 0 then (.page, p)
        else if bit e 2 || bit e 3 || bit e 4 then (if 3 ≤ level then (.page, p) else (.leaf level e, p))
        else match level with
          | 0 => (.page, p)
          | l + 1 => s.walkFrom reader tag va l (field e 55 12 * 4096) { p with ptrs := (l + 1, field e 55 12 * 4096) :: p.ptrs }
termination_by structural level => level

/-- The size of the page that a leaf maps. -/
def leafSize (level e : Nat) : Nat := match level with | 0 => if bit e 59 then 1 else 0 | 1 => 2 | _ => 3

/-- The PAGE conditions on a leaf (Table 11.5). -/
def leafPage (level e va : Nat) (kernel : Bool) (k : XKind) : Bool :=
  (!bit e 2 && bit e 3)
  || (decide (level = 2) && decide (field e 29 12 ≠ 0))
  || (decide (level = 1) && decide (field e 20 12 ≠ 0))
  || (decide (level = 0) && bit e 59 && decide (field e 15 12 ≠ field va 15 12))
  || (match k with
      | .read => !bit e 2
      | .write => !bit e 3
      | .fetch => !bit e 4
      | .atomic => !bit e 2 || !bit e 3)
  || (!kernel && !bit e 5)
  || (kernel && decide (k = .fetch) && bit e 5)

/-- The physical address that a page gives a virtual address. -/
def pageAddr (size ppage va : Nat) : Nat := ppage / 2 ^ pageBits size * 2 ^ pageBits size + va % 2 ^ pageBits size

/-- Whether 512 granules of a GiB share one STATE and OWNER (R269). -/
def State.wholeGib (s : State) (pa : Nat) : Bool :=
  match granuleOf (localOf pa / 2 ^ 30 * 2 ^ 30) with
  | none => true
  | some g => (rangeFrom g 512).all (fun i => decide (s.granule i = s.granule g))

/-- The entry that a checked leaf installs (R269). -/
def State.leafEntry (s : State) (level e va : Nat) (asid : U16) : XEntry :=
  let sz := leafSize level e
  let pp := field e 55 12 * 4096
  let sz' := if sz = 3 ∧ !s.wholeGib (pageAddr 3 pp va) then 2 else sz
  { size := sz', vpage := va / 2 ^ pageBits sz' * 2 ^ pageBits sz', ppage := pageAddr sz pp va / 2 ^ pageBits sz' * 2 ^ pageBits sz'
    asid := asid, shr := bit e 7, g := bit e 6, u := bit e 5, x := bit e 4, w := bit e 3, r := bit e 2 }

/-- The part of the address space that a walk cache entry serves (R271). -/
def wTop (level va : Nat) : Nat := va / 2 ^ (12 + 9 * level)

/-- The deepest table that a walk cache holds for an address. -/
def walkStart (c : Cuff) (ctx : U64) (va : Nat) : Nat × Nat :=
  let ok := c.walk.filter (fun w => decide (w.asid = ctxAsid ctx) && decide (w.vtop = wTop w.level va))
  ok.foldl (fun (b : Nat × Nat) w => if w.level ≤ b.1 then (w.level - 1, w.table) else b) (4, ctxRoot ctx)

/-- The result of a walk with the checks at fill (R268, R270): the entry that it would install. -/
def State.walkAll (s : State) (reader tag : Nat) (c : Cuff) (ctx : U64) (va : Nat) (kernel : Bool) (k : XKind) :
    Except Xl XEntry × Trail :=
  let st := walkStart c ctx va
  match s.walkFrom reader tag va st.1 st.2 {} with
  | (.page, p) => (.error .page, p)
  | (.owner, p) => (.error .owner, p)
  | (.uncorr, p) => (.error .uncorr, p)
  | (.wait a, p) => (.error (.wait a), p)
  | (.leaf l e, p) =>
    if leafPage l e va kernel k then (.error .page, p)
    else if !s.targetOk tag (pageAddr (leafSize l e) (field e 55 12 * 4096) va) (bit e 7) then (.error .owner, p)
    else (.ok (s.leafEntry l e va (ctxAsid ctx)), p)

/-- An entry covers an address under an ASID (R265, R271). -/
def XEntry.hits (e : XEntry) (asid : U16) (va : Nat) : Bool :=
  decide (va / 2 ^ pageBits e.size * 2 ^ pageBits e.size = e.vpage) && (e.g || decide (e.asid = asid))

/-- The permissions of an entry (Table 11.5). -/
def XEntry.allows (e : XEntry) (kernel : Bool) (k : XKind) : Bool :=
  (match k with
   | .read => e.r
   | .write => e.w
   | .fetch => e.x
   | .atomic => e.r && e.w)
  && (kernel || e.u) && !(kernel && decide (k = .fetch) && e.u)

def Xlat.cuff (x : Xlat) : CuffId → Cuff
  | .core => x.core
  | .lvu => x.lvu
  | .glide => x.glide

def Xlat.setCuff (x : Xlat) (c : CuffId) (v : Cuff) : Xlat :=
  match c with
  | .core => { x with core := v }
  | .lvu => { x with lvu := v }
  | .glide => { x with glide := v }

def State.cuff (s : State) (t : Nat) (c : CuffId) : Cuff := (s.tile t).xlat.cuff c

def State.onCuff (s : State) (t : Nat) (c : CuffId) (f : Cuff → Cuff) : State :=
  s.onTile t (fun x => { x with xlat := x.xlat.setCuff c (f (x.xlat.cuff c)) })

/-- The Collar of a die. -/
def State.collar (s : State) (d : Nat) : List CollarEntry := if d = 0 then s.collars.die0 else s.collars.die1

def State.setCollar (s : State) (d : Nat) (l : List CollarEntry) : State :=
  { s with collars := if d = 0 then { s.collars with die0 := l } else { s.collars with die1 := l } }

/-- The partitions of a domain on a die (R272). -/
def State.partitions (s : State) (tag d : Nat) : Nat :=
  sumNat (((rangeFrom (96 * d) 96).filter (fun t => decide (s.tag t = tag))).map (fun t => if tileCol t % 3 = 0 then 2 else 1))

/-- The set, among the domain's 64 P sets, of a page under an ASID. -/
def State.collarSet (s : State) (tag d : Nat) (e : XEntry) (asid : U16) : Nat :=
  collarHash (e.vpage / 2 ^ pageBits e.size) e.size asid.toNat % (64 * s.partitions tag d)

/-- Who reads the tables of a walk. -/
def walkReader (t : Nat) (c : CuffId) : Nat := if c = .core then 256 + t else t

/-- What the Collar holds for an address: the sets that the hash selects for the four page sizes are probed (R272, R273). -/
def State.collarFind (s : State) (t : Nat) (asid : U16) (va : Nat) : Option CollarEntry :=
  (s.collar (tileDie t)).find? (fun c => decide (c.dom.toNat = s.tag t) && c.e.hits asid va
    && decide (c.set = s.collarSet (s.tag t) (tileDie t) c.e asid))

def State.collarHit (s : State) (t : Nat) (asid : U16) (va : Nat) : Option XEntry := (s.collarFind t asid va).map (·.e)

/-- The translation of an access (R261, R263, R270): the Pocket window, an identity context, a Cuff, the Collar, or a walk. `held` are
translations that the access's tile of a stream uses already (R277). -/
def State.xlate (s : State) (t : Nat) (c : CuffId) (ctx : U64) (kernel : Bool) (k : XKind) (v : U64) (held : List XEntry := []) : Xl :=
  let va := vaOf v
  if pocketWindow va then .pocket (va - 0x1FFFFFFFFE00000)
  else if !ctxEn ctx then (if va / 2 ^ 44 ≠ 0 then .page else .ok (s.pkg * 2 ^ 44 + va) false)
  else
    let found := match (held ++ (s.cuff t c).entries).find? (fun e => e.hits (ctxAsid ctx) va) with
      | some e => some e
      | none => s.collarHit t (ctxAsid ctx) va
    match found with
    | some e => if e.allows kernel k then .ok (pageAddr e.size e.ppage va) e.shr else .page
    | none =>
      match s.walkAll (walkReader t c) (s.tag t) (s.cuff t c) ctx va kernel k with
      | (.ok e, _) => .ok (pageAddr e.size e.ppage va) e.shr
      | (.error x, _) => x

/-- A translation counter of a tile (objects 0x1A10 to 0x1A12) goes up by one. -/
def Tile.countXl (x : Tile) (i : Nat) : Tile :=
  { x with xlat := { x.xlat with cnt := tabSet 0 x.xlat.cnt i (Nat.min (tabGet 0 x.xlat.cnt i + 1) (2 ^ 64 - 1)) } }

/-- A translation fault of an access of an engine (Table 11.5), counted where the engine reports it (R270, R281). -/
def State.xlFault (s : State) (t : Nat) (c : CuffId) (ctx : U64) (kernel : Bool) (k : XKind) (va : U64) : State :=
  match s.xlate t c ctx kernel k va with
  | .page => s.onTile t (fun x => x.countXl 2)
  | .owner => s.onTile t (fun x => x.countXl 2)
  | _ => s

/-! ### Installing (R271 to R273) -/

/-- An entry put into a Cuff of 64, the least recently used one leaving. -/
def Cuff.install (u : Cuff) (e : XEntry) : Cuff :=
  { u with entries := e :: (u.entries.filter (fun o => !(decide (o.size = e.size) && decide (o.vpage = e.vpage) && decide (o.asid = e.asid)))).take 63 }

/-- Table pointers put into a walk cache of 16. -/
def Cuff.installPtrs (u : Cuff) (asid : U16) (va : Nat) (p : List (Nat × Nat)) : Cuff :=
  let new := p.map (fun q => (⟨q.1, wTop q.1 va, q.2, asid⟩ : WEntry))
  { u with walk := (new ++ u.walk.filter (fun w => !(new.any (fun n => decide (n.level = w.level) && decide (n.vtop = w.vtop) && decide (n.asid = w.asid))))).take 16 }

/-- An entry put into the Collar: the least recently used of a full set of 16 leaves. -/
def State.collarInstall (s : State) (t : Nat) (e : XEntry) : State :=
  let d := tileDie t
  let tag := s.tag t
  let c : CollarEntry := ⟨BitVec.ofNat 7 tag, s.collarSet tag d e e.asid, e⟩
  let l := (s.collar d).filter (fun o => decide (o ≠ c))
  let mine := l.filter (fun o => decide (o.dom = c.dom))
  if mine.length < 16 then s.setCollar d (c :: l)
  else
    let same := mine.filter (fun o => decide (o.set = c.set))
    match same.getLast? with
    | some o => if same.length < 16 then s.setCollar d (c :: l) else s.setCollar d (c :: l.erase o)
    | none => s.setCollar d (c :: l)

/-- The Collar's entry for a miss becomes its most recently used and is installed in the Cuff (R273). -/
def State.collarTake (s : State) (t : Nat) (c : CuffId) (o : CollarEntry) : State :=
  (s.setCollar (tileDie t) (o :: (s.collar (tileDie t)).erase o)).onCuff t c (fun u => u.install o.e)

/-- A walk with its checks (R268, R269, R273): its tables are read, errors of their lines being acted on (R251). A leaf that passes is
installed in the Collar and in the Cuff, and the table pointers in the walk cache; a walk that fails installs nothing (R267). One
that waits for an entry changes nothing. -/
def State.walk (s : State) (t : Nat) (c : CuffId) (ctx : U64) (kernel : Bool) (k : XKind) (va : Nat) : Option Xl × State :=
  let r := s.walkAll (walkReader t c) (s.tag t) (s.cuff t c) ctx va kernel k
  let used := (r.2.reads.foldl (fun (s : State) a => (s.readEntry (walkReader t c) a).2) s).dropFetched (fun a => (r.2.reads.map localOf).contains a)
  match r.1 with
  | .error (.wait a) => (some (.wait a), s)
  | .ok e => (none, (used.onCuff t c (fun u => (u.installPtrs (ctxAsid ctx) va r.2.ptrs).install e)).collarInstall t e)
  | .error x => (some x, used)

/-- What the translation of an access leaves (R271, R273): a Cuff hit makes its entry the most recently used; a miss is counted and
goes to the Collar; a miss there is counted and walks. -/
def State.translated (s : State) (t : Nat) (c : CuffId) (ctx : U64) (kernel : Bool) (k : XKind) (v : U64) : State :=
  let va := vaOf v
  if pocketWindow va || !ctxEn ctx then s
  else match (s.cuff t c).entries.find? (fun e => e.hits (ctxAsid ctx) va) with
    | some e => s.onCuff t c (fun u => { u with entries := e :: u.entries.erase e })
    | none =>
      let s := s.onTile t (fun x => x.countXl 0)
      match s.collarFind t (ctxAsid ctx) va with
      | some o => s.collarTake t c o
      | none => ((s.onTile t (fun x => x.countXl 1)).walk t c ctx kernel k va).2

/-- The translation of an access of an engine that faults at it: what it leaves, and the fault counted (R270, R281). -/
def State.translatedFault (s : State) (t : Nat) (c : CuffId) (ctx : U64) (kernel : Bool) (k : XKind) (va : U64) : State :=
  let u := s.translated t c ctx kernel k va
  match s.xlate t c ctx kernel k va with
  | .page => u.onTile t (fun x => x.countXl 2)
  | .owner => u.onTile t (fun x => x.countXl 2)
  | _ => u

/-! ### Invalidation (R275 to R277) -/

/-- Whether an invalidation removes a leaf (Table 11.8). -/
def Inv.removes (i : Inv) (e : XEntry) : Bool :=
  match i.kind with
  | 0 => decide (vaOf i.va / 2 ^ pageBits e.size * 2 ^ pageBits e.size = e.vpage) && (decide (e.asid = i.asid) || e.g)
  | 1 => decide (e.asid = i.asid) && !e.g
  | _ => true

def Inv.removesPtr (i : Inv) (w : WEntry) : Bool :=
  match i.kind with
  | 0 => decide (w.asid = i.asid)
  | 1 => decide (w.asid = i.asid)
  | _ => true

def Cuff.drop (u : Cuff) (i : Inv) : Cuff :=
  { entries := u.entries.filter (fun e => !i.removes e), walk := u.walk.filter (fun w => !i.removesPtr w) }

def Xlat.drop (x : Xlat) (i : Inv) : Xlat :=
  { x with core := x.core.drop i, lvu := x.lvu.drop i, glide := x.glide.drop i }

/-- The entry of a table that a walk has asked the host for is no longer of use to it: its answer goes to no one. -/
def RTxn.stale (x : RTxn) : RTxn :=
  match x.user with
  | .walk _ => { x with user := .device }
  | _ => x

/-- Every entry that an invalidation names removed, in every Cuff and walk cache of the domain's tiles and in its partitions
of both Collars; a walk that has read entries of host memory reads them again (R277). -/
def State.invalidateXl (s : State) (tag : Nat) (i : Inv) : State :=
  let s := (s.tilesOf tag).foldl (fun (s : State) t => s.onTile t (fun x => { x with xlat := x.xlat.drop i })) s
  let keep := fun (c : CollarEntry) => !(decide (c.dom.toNat = tag) && i.removes c.e)
  { s with collars := { s.collars with die0 := s.collars.die0.filter keep, die1 := s.collars.die1.filter keep }
           coh := { s.coh with fetched := [] }, hedom := { s.hedom with txns := s.hedom.txns.map RTxn.stale } }

/-- Every translation of a tile's Cuffs removed. -/
def Xlat.clear (x : Xlat) : Xlat := { x with core := {}, lvu := {}, glide := {}, misses := [], inv := [] }

/-- Every Collar entry of the given domains on a die removed (R272). -/
def State.collarDrop (s : State) (d : Nat) (tags : List Nat) : State :=
  s.setCollar d ((s.collar d).filter (fun c => !(tags.contains c.dom.toNat)))

/-- Every translation to a granule removed (R41 step 2). -/
def State.dropGranule (s : State) (g : Nat) : State :=
  let lo := s.pkg * 2 ^ 44 + granuleBase g
  let keep := fun (e : XEntry) => !(decide (e.ppage < lo + 0x200000) && decide (lo < e.ppage + 2 ^ pageBits e.size))
  let f := fun (u : Cuff) => { u with entries := u.entries.filter keep }
  let s := (List.range 192).foldl (fun (s : State) t =>
    if (s.tile t).xlat.core.entries.isEmpty && (s.tile t).xlat.lvu.entries.isEmpty && (s.tile t).xlat.glide.entries.isEmpty then s
    else s.onTile t (fun x => { x with xlat := { x.xlat with core := f x.xlat.core, lvu := f x.xlat.lvu, glide := f x.xlat.glide } })) s
  { s with collars := { s.collars with die0 := s.collars.die0.filter (fun c => keep c.e), die1 := s.collars.die1.filter (fun c => keep c.e) } }

end Sys2Proof.Machine
end

