-- ==== Sys2Proof/Machine/GlideOps.lean ====
section
/-!
DEFINITION. Machine/GlideOps.lean: Gates, Stitch units, and the streams of Glide (09 R215 to R237; 15 R357).
-/
namespace Sys2Proof.Machine
open Sys2Proof

/-! ### Gates (R224, R225) -/

def gateMax : Nat := 2 ^ 32 - 1

def State.onGlide (s : State) (t : Nat) (f : Glide → Glide) : State := s.onTile t (fun x => { x with glide := f x.glide })

def Glide.count (g : Glide) (i n : Nat) : Glide := { g with cnt := tabSet 0 g.cnt i (Nat.min (tabGet 0 g.cnt i + n) (2 ^ 64 - 1)) }

def gateVal (l : List U32) (g : Nat) : Nat := (tabGet 0 l g).toNat
def gatePut (l : List U32) (g v : Nat) : List U32 := tabSet 0 l g (BitVec.ofNat 32 v)

/-- A view increased by an arrival. -/
def gateUp (l : List U32) (g n : Nat) : List U32 := gatePut l g (Nat.min (gateVal l g + n) gateMax)
def gateDown (l : List U32) (g n : Nat) : List U32 := gatePut l g (gateVal l g - n)

/-- The Glide-side count increased. -/
def Glide.gateAdd (x : Glide) (g n : Nat) : Glide :=
  { x with
    gates := gateUp x.gates g n
    ovf := if gateMax < gateVal x.gates g + n then x.ovf ||| BitVec.ofNat 64 (2 ^ g) else x.ovf }.count 4 n

/-- The Glide-side count decreased. -/
def Glide.gateSub (x : Glide) (g n : Nat) : Glide :=
  { x with
    gates := gateDown x.gates g n
    under := if gateVal x.gates g < n then x.under ||| BitVec.ofNat 64 (2 ^ g) else x.under }.count 5 n

/-- An increase counted in Glide, on its way to both views (R85, R210). -/
def State.gateAdd (s : State) (t g n : Nat) : State :=
  s.onTile t (fun x => { x with glide := x.glide.gateAdd g n, seam := x.seam ++ [.seqGate g false n, .grpGate g false n] })

/-- VSEND's register for a staging buffer, with its Gate: counted in Glide, on its way to the sequencer in one transfer (R79, R115). -/
def State.stage (s : State) (t b g : Nat) (d : Bytes) : State :=
  s.onTile t (fun x => { x with glide := x.glide.gateAdd g 1, seam := x.seam ++ [.staged b d g 1, .grpGate g false 1] })

/-- The view that a transfer in the Seam is for: the groups' (in the vector island), or the sequencer's (in the array island). -/
def SeamMsg.toGroups : SeamMsg → Bool
  | .grpGate _ _ _ => true
  | _ => false

/-- The Gate of a transfer, whether it sets it, and its amount. -/
def SeamMsg.gate : SeamMsg → Nat × Bool × Nat
  | .seqGate g set n => (g, set, n)
  | .grpGate g set n => (g, set, n)
  | .staged _ _ g n => (g, false, n)

def SeamMsg.withAmount (k : Nat) : SeamMsg → SeamMsg
  | .seqGate g set _ => .seqGate g set k
  | .grpGate g set _ => .grpGate g set k
  | .staged b d g _ => .staged b d g k

/-- A decrease of `n` in the transfers that one view has still to receive: `m` units of it come out of the arrivals from here on; a set
carries the count with the whole decrease (R225; DEDUCED, assumption 15), and what it cannot carry comes out of the arrivals after it. -/
def seamTake (grp : Bool) (g n : Nat) : Nat → List SeamMsg → List SeamMsg
  | _, [] => []
  | m, x :: xs =>
    if x.toGroups ≠ grp ∨ x.gate.1 ≠ g then x :: seamTake grp g n m xs
    else
      let d := if x.gate.2.1 then n else m
      x.withAmount (x.gate.2.2 - d) :: seamTake grp g n (d - x.gate.2.2) xs

/-- A decrease that one view has applied: Glide's count follows at once, and so does the other view, which never leads
(R85, R210, R225; DEDUCED, assumption 15). `grp` says that the groups' view is the other one. -/
def State.gateSub (s : State) (t g n : Nat) (grp : Bool) : State :=
  s.onTile t (fun x =>
    let other := if grp then gateVal x.grp.gates g else gateVal x.eng.seq.gates g
    let x := { x with glide := x.glide.gateSub g n, seam := seamTake (!grp) g n 0 (seamTake grp g n (n - other) x.seam) }
    if grp then { x with grp := { x.grp with gates := gateDown x.grp.gates g n } }
    else { x with eng := { x.eng with seq := { x.eng.seq with gates := gateDown x.eng.seq.gates g n } } })

/-- A Gate set through the window: the count goes to both views (R225). -/
def State.gateSet (s : State) (t g v : Nat) : State :=
  s.onTile t (fun x => { x with glide := { x.glide with gates := gatePut x.glide.gates g v }, seam := x.seam ++ [.seqGate g true v, .grpGate g true v] })

/-- A Gate set to zero, in Glide and in both views (R199). -/
def State.gateZero (s : State) (t g : Nat) : State :=
  s.onTile t (fun x => { x with
    glide := { x.glide with gates := gatePut x.glide.gates g 0 }
    grp := { x.grp with gates := gatePut x.grp.gates g 0 }
    eng := { x.eng with seq := { x.eng.seq with gates := gatePut x.eng.seq.gates g 0 } }
    seam := (x.seam.filter (fun m => decide (m.gate.1 ≠ g) || (match m with | .staged _ _ _ _ => true | _ => false))).map
      (fun m => if m.gate.1 = g then m.withAmount 0 else m) })

/-- The island that a transfer goes to is up: the Seam holds what is for an island in retention or cold (R27, R116, R422). -/
def Tile.seamOpen (x : Tile) (m : SeamMsg) : Bool := if m.toGroups then decide (x.lvu.power = .active) else !x.acct.arrayAsleep

/-- A view with an arrival. -/
def gateArrive (v : List U32) (g : Nat) (set : Bool) (n : Nat) : List U32 := if set then gatePut v g n else gateUp v g n

/-- A transfer becomes usable in its island. A staging buffer becomes valid with the arrival of its Gate's count (R79). -/
def Tile.receive (x : Tile) : SeamMsg → Tile
  | .seqGate g set n => { x with eng := { x.eng with seq := { x.eng.seq with gates := gateArrive x.eng.seq.gates g set n } } }
  | .grpGate g set n => { x with grp := { x.grp with gates := gateArrive x.grp.gates g set n } }
  | .staged b d g n =>
    { x with eng := { x.eng with
      staging := tabSet ({} : Staging) x.eng.staging b { tabGet ({} : Staging) x.eng.staging b with data := d }
      seq := { x.eng.seq with gates := gateArrive x.eng.seq.gates g false n } } }

/-- The oldest transfer in a tile's Seam that its island can take arrives (R27). -/
def Tile.seamArrive (x : Tile) : Tile :=
  match x.seam.find? x.seamOpen with
  | none => x
  | some m => { x with seam := x.seam.erase m }.receive m

/-! ### Stitch units (R232 to R235) -/

/-- A running value continued over bytes (R234): the finished check value in and out. -/
def stitchRun (poly : Bool) (v : Nat) (b : Bytes) : Nat :=
  if poly then b.foldl (fun c x => crc64Byte c x.toNat) v
  else (b.foldl (fun c x => crc32cByte c x.toNat) (v % 2 ^ 32 ^^^ 0xFFFFFFFF)) ^^^ 0xFFFFFFFF

/-- A unit absorbs a counted tile. -/
def Stitch.absorb (u : Stitch) (b : Bytes) : Stitch :=
  { u with alive := u.alive + 1, sval := BitVec.ofNat 64 (stitchRun u.poly u.sval.toNat b) }

def absorbAll (k : Nat) (b : Bytes) (l : List Stitch) : List Stitch :=
  (List.range 8).map (fun i => let u := tabGet ({} : Stitch) l i; if u.en && decide (u.stream.val = k) then u.absorb b else u)

/-- SCTL as it reads (Table 9.13). -/
def Stitch.sctl (u : Stitch) : Nat :=
  u.alive.toNat * 2 ^ 24 + u.lalive.toNat * 2 ^ 16 + flag u.poly * 32 + flag u.en * 16 + u.stream.val

/-- A write to SCTL (R235). -/
def Stitch.write (u : Stitch) (v : Nat) : Stitch :=
  let en := bit v 4
  let st : Fin 16 := ⟨v % 16, Nat.mod_lt _ (by decide)⟩
  { u with en := en, poly := bit v 5, stream := st, alive := if (en && !u.en) || (u.en && decide (st ≠ u.stream)) then 0 else u.alive }

/-- SVAL as it reads: under CRC-32C bits [63:32] read as zero (R234). -/
def Stitch.svalRead (u : Stitch) : Nat := if u.poly then u.sval.toNat else u.sval.toNat % 2 ^ 32

/-- A write to SVAL (R234). Under CRC-32C bits [63:32] ignore writes. -/
def Stitch.writeSval (u : Stitch) (v : Nat) : Stitch :=
  { u with sval := if u.poly then BitVec.ofNat 64 v else BitVec.ofNat 64 (u.sval.toNat / 2 ^ 32 * 2 ^ 32 + v % 2 ^ 32) }

/-! ### Descriptors (R216, R217, R219) -/

def dWord (d : List U64) (i : Nat) : Nat := (tabGet 0 d i).toNat
def dWbase (d : List U64) : Nat := field (dWord d 0) 56 0
def dRbase (d : List U64) : Nat := field (dWord d 1) 56 0
def dXaddr (d : List U64) : Nat := field (dWord d 7) 56 0
def dC0 (d : List U64) : Nat := field (dWord d 6) 15 0 + 1
def dC (d : List U64) (i : Nat) : Nat := field (dWord d (i + 1)) 63 48 + 1
def dStr (d : List U64) (i : Nat) : Int := toSigned 48 (field (dWord d (i + 1)) 47 0)
def dSlotb (d : List U64) : Nat := (field (dWord d 6) 31 24 + 1) * 256
def dNslot (d : List U64) : Nat := field (dWord d 6) 39 34 + 1
def dDir (d : List U64) : Bool := bit (dWord d 6) 32
def dRkind (d : List U64) : Bool := bit (dWord d 6) 33
def dGate (d : List U64) : Nat := field (dWord d 6) 45 40
def dNogate (d : List U64) : Bool := bit (dWord d 6) 46
def dCredit (d : List U64) : Nat := field (dWord d 6) 54 47
def dCmode (d : List U64) : Nat := field (dWord d 6) 56 55
def dKsrc (d : List U64) : Nat := field (dWord d 6) 58 57
def dKsel (d : List U64) : Bool := bit (dWord d 6) 59
def dEvent (d : List U64) : Bool := bit (dWord d 6) 23
def dTiles (d : List U64) : Nat := dC d 2 * dC d 3 * dC d 4
def dBytes (d : List U64) : Nat := dC0 d * dC d 1

/-- A field [hi:lo] of a word replaced. -/
def putField (w hi lo v : Nat) : Nat := w / 2 ^ (hi + 1) * 2 ^ (hi + 1) + v % 2 ^ (hi + 1 - lo) * 2 ^ lo + w % 2 ^ lo

def dSet (d : List U64) (i hi lo v : Nat) : List U64 := tabSet 0 d i (BitVec.ofNat 64 (putField (dWord d i) hi lo v))

/-- The clamps of R219, in their order. -/
def clampDesc (d : List U64) : List U64 :=
  let d := if dSlotb d < dC0 d then dSet d 6 15 0 (dSlotb d - 1) else d
  let d := if dSlotb d < dBytes d then dSet d 2 63 48 (dSlotb d / dC0 d - 1) else d
  let d := if dCmode d ≠ 0 then dSet d 2 63 48 0 else d
  let d := if !dRkind d && decide (pocketBytes < dNslot d * dSlotb d) then dSet d 6 39 34 (pocketBytes / dSlotb d - 1) else d
  if dNslot d < dCredit d then dSet d 6 54 47 (dNslot d) else d

/-- The conditions of BADDESC when the START takes effect (R219). -/
def badDesc (d : List U64) : Bool :=
  let m := dCmode d
  decide (m = 3) || (decide (m ≠ 0) && decide (dKsrc d = 3)) || (decide (m = 1) && !dDir d) || (decide (m = 2) && dDir d)
    || (decide (m ≠ 0) && decide (2 ^ 32 < dTiles d))

/-- A tile that gathers one GCM message (R228): KSRC 0b00 or 0b10. -/
def dGathers (d : List U64) : Bool := decide (dCmode d ≠ 0) && decide (dKsrc d ≠ 1)

/-- The walk address of byte `o` of tile `k`, counted over its rows; the tag of an encrypted tile follows its bytes. -/
def dWalk (d : List U64) (k o : Nat) : Nat :=
  let r := if dGathers d then 0 else o / dC0 d
  let b := if dGathers d then o else o % dC0 d
  let i2 := k % dC d 2
  let i3 := k / dC d 2 % dC d 3
  let i4 := k / (dC d 2 * dC d 3)
  (((dWbase d + b : Nat) : Int) + r * dStr d 1 + i2 * dStr d 2 + i3 * dStr d 3 + i4 * dStr d 4).emod (2 ^ 57) |>.toNat

/-- The ring position of byte `o` of tile `k`: a Pocket offset, or a virtual address. -/
def dRing (d : List U64) (k o : Nat) : Nat :=
  if dRkind d then dRbase d + k * dSlotb d + o
  else (field (dRbase d) 20 8 * 256 + k % dNslot d * dSlotb d + o) % pocketBytes

/-! ### Streams -/

def State.stream (s : State) (t i : Nat) : GStream := tabGet ({} : GStream) (s.tile t).glide.streams i

def State.setStream (s : State) (t i : Nat) (x : GStream) : State :=
  s.onGlide t (fun g => { g with streams := tabSet ({} : GStream) g.streams i x })

def GState.code : GState → Nat
  | .idle => 0
  | .running => 1
  | .halted => 2
  | .faulted => 3
  | .done => 4
  | .stopped => 5

/-- GSTATUS (Table 9.6). -/
def GStream.status (x : GStream) : Nat :=
  x.state.code * 2 ^ 61 + flag x.refused * 2 ^ 60 + (if x.state = .faulted then x.cause else 0) * 2 ^ 48 + x.cursor.toNat

/-- The causes of Table 9.7. -/
def gPage : Nat := 1
def gOwner : Nat := 2
def gUncorr : Nat := 3
def gTag : Nat := 4
def gVersion : Nat := 5
def gKeyrec : Nat := 6
def gNokey : Nat := 7
def gBaddesc : Nat := 8
def gRemote : Nat := 9
def gAborted : Nat := 10

/-- The most credit that a stream can hold (R220). -/
def GStream.slots (x : GStream) : Nat := if x.state = .idle then 64 else dNslot x.desc

/-- A grant of credit (R220). -/
def GStream.grant (x : GStream) (n : Nat) : GStream :=
  if x.state ≠ .idle ∧ dRkind x.desc then x else { x with credit := BitVec.ofNat 8 (Nat.min (x.credit.toNat + n) x.slots) }

/-- A command that has no effect but REFUSED (R221). -/
def GStream.refuse (x : GStream) : GStream := { x with refused := true }

/-- A TAG or VERSION fault on Cloak data is also an uncorrectable error (Table 2.7, R303): it counts as one for bit [3] of the alerts
(R448), and its report keeps the class of Table 20.6. -/
def State.countTag (s : State) (t : Nat) : State := if s.tag t = 0 then s else s.countUncorr 2

/-- The error report of a stream's fault (R226, R231, R452): an uncorrectable error in memory has been reported where it was
found. -/
def State.glideReport (s : State) (t cause : Nat) : State :=
  if cause = gTag ∨ cause = gVersion then
    (s.countTag t).error { cls := 5, src := 0x15, cloak := BitVec.ofNat 8 (s.tag t), flags := 1, tile := BitVec.ofNat 16 t, cause := BitVec.ofNat 8 cause }
  else s

/-- A stream becomes FAULTED (R226): tiles in flight give back their credit and are not counted, and the Glide event is
raised. Their requests stay outstanding until they are answered (R222). -/
def State.gFault (s : State) (t i cause : Nat) (va : U64) : State :=
  let x := s.stream t i
  let back := if dRkind x.desc then x.credit.toNat else Nat.min (x.credit.toNat + x.flight.length) (dNslot x.desc)
  let s := s.setStream t i { x with
    state := .faulted, cause := cause, credit := BitVec.ofNat 8 back, flight := [], halting := false, stopping := false
    aborting := false, nextTile := x.cursor.toNat, faddr := if cause = gPage ∨ cause = gOwner then va else x.faddr
    base := (s.tile t).glide.nextReq }
  let s := s.onGlide t (fun g => if cause = gTag then (g.count 2 1).count 3 1 else g.count 2 1)
  (s.glideReport t cause).coreEvent t (.glide i)

/-- A stream without tiles in flight that a HALT or a Cloak STOP waits for comes to rest (R221, R227). -/
def GStream.rest (x : GStream) : GStream :=
  if x.state = .running ∧ x.flight.isEmpty then
    if x.stopping then { x with state := .stopped, stopping := false, halting := false, nextTile := x.cursor.toNat }
    else if x.halting then { x with state := .halted, halting := false, nextTile := x.cursor.toNat }
    else x
  else x

/-! ### The ledger (15 R357) -/

def State.ledgerAt (s : State) (i : Nat) : LedgerEntry := kvGet {} s.hedom.ledger i

def State.setLedgerAt (s : State) (i : Nat) (e : LedgerEntry) : State := { s with hedom := { s.hedom with ledger := kvSet {} s.hedom.ledger i e } }

/-- The ledger's part in a START with KSRC 0b00: the version that the stream keeps, or none where a check fails. -/
def State.ledgerStart (s : State) (t : Nat) (d : List U64) : Option (U32 × State) :=
  let i := field (dWord d 7) 31 0
  let e := s.ledgerAt i
  if 262144 ≤ i ∨ e.owner.toNat ≠ s.tag t then none
  else if dCmode d = 1 then
    if e.st = .free ∨ 2 ^ 32 - 1 ≤ e.version.toNat then none
    else some (e.version + 1, s.setLedgerAt i { e with version := e.version + 1, st := .sealing })
  else if e.st = .sealed ∧ e.ntiles.toNat = dTiles d then some (e.version, s)
  else none

/-- A seal is DONE (R357): its entry holds the number of tiles. An entry that has been freed, or is another Cloak's by now, stays as it is
(R360: an entry that is not FREE is some Cloak's). -/
def State.sealDone (s : State) (t i n : Nat) : State :=
  let e := s.ledgerAt i
  if e.st = .free ∨ e.owner.toNat ≠ s.tag t then s else s.setLedgerAt i { e with st := .sealed, ntiles := BitVec.ofNat 32 n }

/-- The ledger's check at each tile. -/
def State.ledgerTile (s : State) (t : Nat) (x : GStream) : Bool :=
  let e := s.ledgerAt (field (dWord x.desc 7) 31 0)
  if dCmode x.desc = 1 then decide (e.owner.toNat = s.tag t) && decide (e.version = x.version)
  else decide (e.st = .sealed) && decide (e.version = x.version)

/-! ### START (R221, R229, R230) -/

/-- The mark of a request that reads a session record. -/
def keyMark : Nat := 2 ^ 48

/-- The key and the nonce that a stream takes from a session record (Table 9.9), or none where the record is not valid. -/
def recordKey (b : Bytes) (resp : Bool) : Option (BitVec 256 × BitVec 96) :=
  if b.getD 0 0 = 0 then
    let o := if resp then 64 else 16
    some (BitVec.ofNat 256 (leNat ((b.drop o).take 32).reverse), BitVec.ofNat 96 (leNat ((b.drop (o + 32)).take 12).reverse))
  else none

/-- The bytes of a session record have come, or could not be read. A stream that has been aborted meanwhile takes no key (R230). -/
def State.keyArrive (s : State) (t i : Nat) (b : Option Bytes) : State :=
  let x := s.stream t i
  if x.state ≠ .running ∧ x.state ≠ .halted ∧ x.state ≠ .stopped then s
  else match b.bind (fun b => recordKey b (dKsel x.desc)) with
  | some k => s.setStream t i { x with key := some k }
  | none => s.gFault t i gKeyrec 0

/-- The read of a session record (R230): a request like any other, which counts among the 512 (R222). -/
def State.keyRead (s : State) (t i : Nat) : Try :=
  let x := { s.stream t i with keyDue := false }
  let va := dXaddr x.desc / 128 * 128
  let s := (s.setStream t i x).translated t .glide x.tctx x.kernel .read (BitVec.ofNat 64 va)
  let r : GReq := ⟨some (Fin.ofNat 16 i), keyMark, 0, 128, va, false, (s.tile t).glide.nextReq⟩
  let ask := s.onGlide t (fun g => { g with reqs := g.reqs ++ [r], nextReq := g.nextReq + 1 })
  if 512 ≤ (s.tile t).glide.reqs.length then .wait s
  else match s.xlate t .glide x.tctx x.kernel .read (BitVec.ofNat 64 va) with
  | .pocket o => .done (s.keyArrive t i (some (ringRead pocketBytes (s.tile t).pocket o 128)))
  | .ok pa shr =>
    if pkgOf pa ≠ s.pkg then
      match ask.remote t (.glide t r) 1 pa 128 [] shr false with
      | .sent s => .done s
      | .fault => .done (s.keyArrive t i none)
    else if s.hostIn (localOf pa) then .done (ask.hostTxn (.glide t r) 4 (s.hostPa (localOf pa)) 128 [])
    else if !s.reachesAll (s.tag t) (localOf pa) 128 then .done (s.keyArrive t i none)
    else match s.cohRead t (localOf pa) 128 with
      | (.wait, s) => .wait s
      | (.bad, s) => .done (s.keyArrive t i none)
      | (.got b, s) => .done (s.keyArrive t i (some b))
  | .wait a => .wait (s.askEntry t a)
  | _ => .done ((s.xlFault t .glide x.tctx x.kernel .read (BitVec.ofNat 64 va)).keyArrive t i none)

/-- The session record is asked for; where the request has to wait, it goes with the stream's requests (R222). -/
def State.keyAsk (s : State) (t i : Nat) : State :=
  match s.keyRead t i with
  | .done u => u
  | .wait u => (s.asks u).setStream t i { s.stream t i with keyDue := true }

/-- An accepted START: the descriptor is read, clamped and written back, and the key source is consulted. -/
def State.gStart (s : State) (t i off : Nat) (ctx : U64) (kernel : Bool) : State :=
  let a := off % pocketBytes / 64 * 64
  let d := clampDesc ((List.range 8).map (fun w => BitVec.ofNat 64 (leNat (ringRead pocketBytes (s.tile t).pocket (a + 8 * w) 8))))
  let x : GStream := { state := .running, desc := d, tctx := ctx, kernel := kernel, credit := BitVec.ofNat 8 (dCredit d) }
  let s := s.setStream t i { x with faddr := (s.stream t i).faddr, base := (s.tile t).glide.nextReq }
  if badDesc d then s.gFault t i gBaddesc 0
  else
    let s := (s.pocketWrite t (a + 16) (natLe 8 (dWord d 2))).pocketWrite t (a + 48) (natLe 8 (dWord d 6))
    if dCmode d = 0 then s
    else if dKsrc d ≠ 2 ∧ s.tag t = 0 then s.gFault t i gNokey 0
    else if dKsrc d = 1 then (if (s.tile t).glide.grpKey.isNone then s.gFault t i gNokey 0 else s)
    else if dKsrc d = 0 then
      match s.ledgerStart t d with
      | none => s.gFault t i gVersion 0
      | some (v, s) => s.setStream t i { s.stream t i with version := v }
    else s.keyAsk t i

/-- START by state (Table 9.5). -/
def State.gStartCmd (s : State) (t i off : Nat) (ctx : U64) (kernel : Bool) : State :=
  let x := s.stream t i
  match x.state with
  | .running => s.setStream t i x.refuse
  | .stopped => s.setStream t i x.refuse
  | _ => s.gStart t i off ctx kernel

def State.gCreditCmd (s : State) (t i n : Nat) : State := s.setStream t i ((s.stream t i).grant n)

def State.gHaltCmd (s : State) (t i : Nat) : State :=
  let x := s.stream t i
  if x.state = .running then s.setStream t i (GStream.rest { x with halting := true }) else s

def State.gResumeCmd (s : State) (t i : Nat) : State :=
  let x := s.stream t i
  let go := { x with state := .running, cause := 0, nextTile := x.cursor.toNat, aborting := false, flight := ([] : List TileJob) }
  match x.state with
  | .halted => s.setStream t i go
  | .faulted => if [gKeyrec, gNokey, gBaddesc, gAborted].contains x.cause then s.setStream t i x.refuse else s.setStream t i go
  | _ => s.setStream t i x.refuse

/-- An aborted stream without tiles in flight holds no key (R230): its tiles in flight complete under the one that they have
(DEDUCED, assumption 80). -/
def GStream.dropKey (x : GStream) : GStream := { x with keyDue := false, key := if x.flight.isEmpty then none else x.key }

/-- ABORT (R221, R227). Its tiles in flight complete without being counted. -/
def State.gAbortCmd (s : State) (t i : Nat) : State :=
  let x := s.stream t i
  let abort := { x.dropKey with state := .faulted, cause := gAborted, halting := false, aborting := true }
  let f := (s.setStream t i abort).onGlide t (fun g => g.count 2 1)
  match x.state with
  | .running => f.coreEvent t (.glide i)
  | .halted => f.coreEvent t (.glide i)
  | .faulted => s.setStream t i { x.dropKey with cause := gAborted }
  | .stopped => s.setStream t i x.refuse
  | _ => s

/-- GCMD (Table 9.12). -/
def State.gcmd (s : State) (t i : Nat) (v : Nat) : State :=
  let x := (s.tile t).xlat.etctx
  match field v 63 60 with
  | 1 => s.gStartCmd t i (field v 52 32) x (x.getLsbD 62)
  | 2 => s.gCreditCmd t i (field v 19 0)
  | 3 => s.gHaltCmd t i
  | 4 => s.gResumeCmd t i
  | 5 => s.gAbortCmd t i
  | _ => s

/-! ### Tiles (R220, R222, R223) -/

/-- A stream can start its next tile. -/
def GStream.canStart (x : GStream) : Bool :=
  decide (x.state = .running) && !x.halting && !x.stopping && decide (x.nextTile < dTiles x.desc) && decide (x.flight.length < 4)
    && x.flight.all (fun j => j.fault.isNone) && (dRkind x.desc || decide (0 < x.credit.toNat))
    && (decide (dCmode x.desc = 0) || decide (dKsrc x.desc ≠ 2) || x.key.isSome)

/-- The 4 KiB pages that `n` bytes from an address touch. -/
def pagesOf (a n : Nat) : List Nat := (rangeFrom (a / 4096) ((a + n - 1) / 4096 + 1 - a / 4096)).map (fun p => p * 4096)

/-- The pages that a tile touches on the walk side, and on a memory ring. -/
def tilePages (d : List U64) (k : Nat) : List Nat :=
  ((List.range (dC d 1)).map (fun r => pagesOf (dWalk d k (r * dC0 d)) (dC0 d + (if dGathers d then 16 else 0)))).flatten
    ++ (if dRkind d then pagesOf (dRing d k 0) (dBytes d) else [])

/-- Translations requested ahead by stream `i` (R223): each page that the Cuff does not cover goes to the Collar, in the stream's prefetch
row of Table 11.6. -/
def State.prefetch (s : State) (t : Nat) (i : Fin 16) (x : GStream) : List Nat → State
  | [] => s
  | p :: ps =>
    let va : U64 := BitVec.ofNat 64 p
    let u := (s.tile t).xlat
    if pocketWindow (vaOf va) || !ctxEn x.tctx || u.glide.entries.any (fun e => e.hits (ctxAsid x.tctx) (vaOf va))
        || u.misses.any (fun m => (decide (m.row = .prefetch i) || decide (m.row = .stream i)) && decide (m.va = va) && decide (m.tctx = x.tctx)) then s.prefetch t i x ps
    else
      let m : Miss := { row := .prefetch i, va := va, tctx := x.tctx, kernel := x.kernel, kind := .read, walking := false }
      (s.onTile t (fun y => Tile.countXl { y with xlat := { y.xlat with misses := y.xlat.misses ++ [m] } } 0)).prefetch t i x ps

/-- A tile starts: it takes its credit, and the pages of the four tiles after it are asked for. -/
def State.startTile (s : State) (t i : Nat) : State :=
  let x := s.stream t i
  let k := x.nextTile
  let ahead := ((rangeFrom (k + 1) 4).filter (fun j => decide (j < dTiles x.desc))).map (fun j => tilePages x.desc j)
  let s := s.setStream t i { x with flight := x.flight ++ [{ k := k }], nextTile := k + 1, credit := if dRkind x.desc then x.credit else x.credit - 1 }
  s.prefetch t (Fin.ofNat 16 i) x ahead.flatten

end Sys2Proof.Machine
end

