-- ==== Sys2Proof/Machine/Access.lean ====
section
/-!
DEFINITION. Machine/Access.lean: where an access of an engine goes once it is translated and checked (02 R40; 10 R239, R240;
11 R261, R263), and the requests of Glide's streams and group copies (09 R217 to R231; 08 R210, R211).
-/
namespace Sys2Proof.Machine
open Sys2Proof

/-- Where an access goes, or the fault that it meets, or the table entry for which its walk waits. Addresses of `mem`, `window` and `host` are local ones. -/
inductive Side where
  | pocket (off : Nat)
  | mem (a : Nat) (shr : Bool)
  | host (a : Nat)
  | window (a : Nat)
  | remote (pa : Nat) (shr : Bool)
  | page
  | owner
  | uncorr
  | walk (a : Nat)
  deriving DecidableEq, Repr

/-- An access of `n` bytes that lies in one line, translated, with the home agent's check of R40. -/
def State.resolve (s : State) (t : Nat) (c : CuffId) (ctx : U64) (kernel : Bool) (k : XKind) (va : U64) (n : Nat) (held : List XEntry := []) : Side :=
  match s.xlate t c ctx kernel k va held with
  | .pocket o => .pocket o
  | .page => .page
  | .owner => .owner
  | .uncorr => .uncorr
  | .wait a => .walk a
  | .ok pa shr =>
    if pkgOf pa ≠ s.pkg then .remote pa shr
    else
      let a := localOf pa
      match place a with
      | .host => if s.hostIn a then .host a else .owner
      | .window => .window a
      | .reserved => .owner
      | _ => if s.reachesAll (s.tag t) a n then .mem a shr else .owner

/-- The charge of a request of `n` bytes (Table 19.4). -/
def Side.charge (own : Nat) (x : Side) (n : Nat) : Nat :=
  match x with
  | .mem a _ => lineCharge own own a * linesOf a n
  | .host a => 3 * linesOf a n
  | .remote pa _ => 4 * linesOf pa n
  | _ => 0

/-! ### Tiles of Glide's streams -/

/-- The bytes of the phase of a tile that is under way: a tile that gathers reads its message, then writes the result. -/
def jobTotal (d : List U64) (j : TileJob) : Nat :=
  if dGathers d then (if dDir d = j.second then dC0 d + 16 else dC0 d) else dBytes d

/-- The tile reads the walk side, or the ring side, in the phase under way; a plain tile reads one and writes the other. -/
def jobReadsWalk (d : List U64) : Bool := !dDir d

/-- The length of the next request at offset `o` (R222): to the end of the row and to the next 256-byte boundary of either
side. -/
def requestLen (d : List U64) (j : TileJob) (o : Nat) : Nat :=
  let row := if dGathers d then jobTotal d j - o else dC0 d - o % dC0 d
  let w := 256 - dWalk d j.k o % 256
  let r := if dRkind d then 256 - dRing d j.k o % 256 else 256
  Nat.min row (Nat.min w r)

/-- The translations that a tile in flight has used already (R277). -/
def GStream.heldBy (x : GStream) (tile : Nat) : List XEntry := match x.flight.find? (fun j => decide (j.k = tile)) with | some j => j.xl | none => []

/-- One side of a tile at an offset. With the group key the walk side lies on another package: BADDESC elsewhere (R228, Table 9.7). -/
def State.glideSide (s : State) (t : Nat) (x : GStream) (walk : Bool) (k : XKind) (tile o n : Nat) : Side × Nat :=
  let a := if walk then dWalk x.desc tile o else dRing x.desc tile o
  let r : Side := if !walk && !dRkind x.desc then .pocket a else s.resolve t .glide x.tctx x.kernel k (BitVec.ofNat 64 a) n (x.heldBy tile)
  let grp := walk && decide (dCmode x.desc ≠ 0) && decide (dKsrc x.desc = 1)
  (match r with
   | .window _ => if grp then .window 0 else .owner
   | .pocket o => if grp then .window 0 else .pocket o
   | .mem m shr => if grp then .window 0 else .mem m shr
   | .host m => if grp then .window 0 else .host m
   | y => y, a)

/-- The translation of a request of a tile in flight, which the tile keeps (R271, R277). -/
def State.jobTranslated (s : State) (t i tile : Nat) (k : XKind) (va : U64) : State :=
  let x := s.stream t i
  if (x.heldBy tile).any (fun e => e.hits (ctxAsid x.tctx) (vaOf va)) then s
  else
    let s := s.translated t .glide x.tctx x.kernel k va
    if pocketWindow (vaOf va) || !ctxEn x.tctx then s
    else match (s.cuff t .glide).entries.find? (fun e => e.hits (ctxAsid x.tctx) (vaOf va)) with
      | none => s
      | some e => s.setStream t i { x with flight := x.flight.map (fun (j : TileJob) => if j.k = tile then { j with xl := j.xl ++ [e] } else j) }

/-- The translation on a side of a tile at an offset. -/
def State.sideTranslated (s : State) (t i : Nat) (walk : Bool) (k : XKind) (tile o : Nat) : State :=
  let d := (s.stream t i).desc
  if !walk && !dRkind d then s else s.jobTranslated t i tile k (BitVec.ofNat 64 (if walk then dWalk d tile o else dRing d tile o))

/-- A request of Glide is outstanding. -/
def State.pushReq (s : State) (t : Nat) (r : GReq) : State :=
  s.onGlide t (fun g => { g with reqs := g.reqs ++ [r], nextReq := g.nextReq + 1 })

def State.onJob (s : State) (t i k : Nat) (f : TileJob → TileJob) : State :=
  let x := s.stream t i
  s.setStream t i { x with flight := x.flight.map (fun (j : TileJob) => if j.k = k then f j else j) }

/-- A tile meets a fault (R226). -/
def State.jobFault (s : State) (t i k cause : Nat) (va : U64) : State :=
  s.onJob t i k (fun j => if j.fault.isSome then j else { j with fault := some (cause, va) })

/-- The nonce and the associated data of a gathered tile (Table 9.8), with its key. -/
def State.tileKey (s : State) (t : Nat) (x : GStream) (k : Nat) : Nat × Nat × Bytes :=
  if dKsrc x.desc = 0 then
    let i := field (dWord x.desc 7) 31 0
    ((match (s.tile t).glide.offKey with | some k => k.toNat | none => 0),
     i * 2 ^ 64 + x.version.toNat * 2 ^ 32 + k % 2 ^ 32,
     [BitVec.ofNat 8 (s.tag t), 0, 0, 0] ++ natBeBytes 4 i ++ natBeBytes 4 x.version.toNat ++ natBeBytes 4 k)
  else match x.key with
    | some (key, n) => (key.toNat, n.toNat ^^^ (k % 2 ^ 32), [])
    | none => (0, 0, [])

/-- A gathered message is complete: it is sealed, or opened with its tag checked (R228, R231). -/
def State.jobTransform (s : State) (t i k : Nat) : State :=
  let x := s.stream t i
  let y := s.tileKey t x k
  s.onJob t i k (fun j =>
    if dDir x.desc then
      { j with second := true, next := 0, got := 0
               buf := Crypto.gcmSeal y.1 y.2.1 y.2.2 j.plain ++ natBeBytes 16 (Crypto.gcmTag y.1 y.2.1 y.2.2 j.plain).toNat }
    else
      let pt := Crypto.gcmOpen y.1 y.2.1 y.2.2 (j.buf.take (dC0 x.desc))
      let ok := decide (natBeBytes 16 (Crypto.gcmTag y.1 y.2.1 y.2.2 pt).toNat = (j.buf.drop (dC0 x.desc)).take 16)
      { j with second := true, next := 0, got := 0, tagBad := !ok, plain := if ok then pt else List.replicate (dC0 x.desc) 0 })

/-- Bytes of a tile have landed on the destination side (R237); a tile whose tag failed faults once its zeros have landed. -/
def State.jobLanded (s : State) (t i k n : Nat) : State :=
  let d := (s.stream t i).desc
  let s := s.onGlide t (fun g => g.count 0 n)
  let s := s.onJob t i k (fun j => { j with got := j.got + n })
  s.onJob t i k (fun j => if j.tagBad && decide (j.got = jobTotal d j) && j.fault.isNone then { j with fault := some (gTag, 0) } else j)

/-- Bytes of a gathered message have arrived. -/
def State.jobGathered (s : State) (t i k o : Nat) (b : Bytes) : State :=
  let d := (s.stream t i).desc
  let s := s.onJob t i k (fun j => if dDir d then { j with plain := bytesPut j.plain o b, got := j.got + b.length }
    else { j with buf := bytesPut j.buf o b, got := j.got + b.length })
  match (s.stream t i).flight.find? (fun j => decide (j.k = k)) with
  | some j => if j.got = jobTotal d j then s.jobTransform t i k else s
  | none => s

/-- Bytes to be put on the destination side of a tile: done, put under way, or made to wait. -/
def State.jobWrite (s : State) (t i k o : Nat) (b : Bytes) : Try :=
  let s := s.sideTranslated t i (dDir (s.stream t i).desc) .write k o
  let x := s.stream t i
  let w := s.glideSide t x (dDir x.desc) .write k o b.length
  let va : U64 := BitVec.ofNat 64 w.2
  let r : GReq := ⟨some (Fin.ofNat 16 i), k, o, b.length, w.2, true, (s.tile t).glide.nextReq⟩
  match w.1 with
  | .pocket p => .done ((s.pocketWrite t p b).jobLanded t i k b.length)
  | .mem a shr =>
    match s.ownRed t a shr with
    | some e => .done ((s.pushReq t r).redTake e (.glide t r) 2 a b s.pkg)
    | none =>
      match s.cohWrite t a false b with
      | (.wait, s) => .wait s
      | (.bad, s) => .done (s.jobFault t i k gUncorr va)
      | (.got _, s) => .done (s.jobLanded t i k b.length)
  | .host a => .done ((s.pushReq t r).hostTxn (.glide t r) 5 (s.hostPa a) b.length b)
  | .remote pa shr =>
    match (s.pushReq t r).remote t (.glide t r) 2 pa b.length b shr
        (decide (dCmode x.desc ≠ 0) && decide (dKsrc x.desc = 1)) with
    | .sent s => .done s
    | .fault => .done (s.jobFault t i k gRemote va)
  | .walk a => .wait (s.askEntry t a)
  | .page => .done ((s.xlFault t .glide x.tctx x.kernel .write va).jobFault t i k gPage va)
  | .uncorr => .done (s.jobFault t i k gUncorr va)
  | .window _ => .done (s.jobFault t i k gBaddesc va)
  | .owner => .done ((s.xlFault t .glide x.tctx x.kernel .write va).jobFault t i k gOwner va)

/-- Bytes that a tile has read. -/
def State.jobData (s : State) (t i k o : Nat) (b : Bytes) : Try :=
  let x := s.stream t i
  if dGathers x.desc then .done (s.jobGathered t i k o b)
  else (s.onJob t i k (fun j => { j with plain := bytesPut j.plain o b })).jobWrite t i k o b

/-- The next request of a tile. `bad` says that the Pocket bytes that it reads have an uncorrectable error (R451). -/
def State.jobRequest (s : State) (t i : Nat) (j : TileJob) (bad : Bool) : Try :=
  let d := (s.stream t i).desc
  let o := j.next
  let n := requestLen d j o
  let s' := s.onJob t i j.k (fun j => { j with next := o + n })
  if j.second then s'.jobWrite t i j.k o (((if dDir d then j.buf else j.plain).drop o).take n)
  else
    let s' := s'.sideTranslated t i (jobReadsWalk d) .read j.k o
    let x := s'.stream t i
    let w := s'.glideSide t x (jobReadsWalk d) .read j.k o n
    let va : U64 := BitVec.ofNat 64 w.2
    let r : GReq := ⟨some (Fin.ofNat 16 i), j.k, o, n, w.2, false, (s.tile t).glide.nextReq⟩
    match w.1 with
    | .pocket p =>
      if bad then .done ((s'.error { cls := 2, src := 0x17, cloak := BitVec.ofNat 8 (s.tag t), flags := 1, tile := BitVec.ofNat 16 t, kind := 2, cause := 3 }).jobFault t i j.k gUncorr va)
      else s'.jobData t i j.k o (ringRead pocketBytes (s.tile t).pocket p n)
    | .mem a _ =>
      match s'.cohRead t a n with
      | (.wait, s) => .wait s
      | (.bad, s) => .done (s.jobFault t i j.k gUncorr va)
      | (.got b, s) => s.jobData t i j.k o b
    | .host a => .done ((s'.pushReq t r).hostTxn (.glide t r) 4 (s.hostPa a) n [])
    | .remote pa shr =>
      match (s'.pushReq t r).remote t (.glide t r) 1 pa n [] shr
          (decide (dCmode d ≠ 0) && decide (dKsrc d = 1)) with
      | .sent s => .done s
      | .fault => .done (s'.jobFault t i j.k gRemote va)
    | .walk a => .wait (s'.askEntry t a)
    | .page => .done ((s'.xlFault t .glide x.tctx x.kernel .read va).jobFault t i j.k gPage va)
    | .uncorr => .done (s'.jobFault t i j.k gUncorr va)
    | .window _ => .done (s'.jobFault t i j.k gBaddesc va)
    | .owner => .done ((s'.xlFault t .glide x.tctx x.kernel .read va).jobFault t i j.k gOwner va)

/-- The charge of a tile's next request: both sides of a plain tile, one of a tile that gathers. -/
def State.jobCharge (s : State) (t i : Nat) (j : TileJob) : Nat :=
  let x := s.stream t i
  let d := x.desc
  let n := requestLen d j j.next
  let rd := (s.glideSide t x (jobReadsWalk d) .read j.k j.next n).1.charge s.pkg n
  let wr := (s.glideSide t x (dDir d) .write j.k j.next n).1.charge s.pkg n
  if dGathers d then (if j.second then wr else rd) else rd + wr

/-- The tile of a stream that has a request to issue. -/
def GStream.nextJob (x : GStream) : Option TileJob :=
  if x.state = .running ∨ x.aborting then x.flight.find? (fun j => decide (j.next < jobTotal x.desc j) && j.fault.isNone) else none

/-! ### Group copies -/

def State.onCopy (s : State) (t i : Nat) (f : GCopyJob → GCopyJob) : State :=
  s.onTile t (fun x => { x with grp := { x.grp with copies := x.grp.copies.map (fun (c : GCopyJob) => if c.id = i then f c else c) } })

def State.copyOf (s : State) (t i : Nat) : Option GCopyJob := (s.tile t).grp.copies.find? (fun c => decide (c.id = i))

/-- The bytes of a copy's next request: to the next 256-byte boundary of its memory side. -/
def copyLen (c : GCopyJob) : Nat := Nat.min (c.len - c.cursor) (256 - (c.va.toNat + c.cursor) % 256)

def State.copyLanded (s : State) (t i n : Nat) : State :=
  (s.onGlide t (fun g => g.count 0 n)).onCopy t i (fun c => { c with cursor := c.cursor + n, busy := false })

def State.copyFault (s : State) (t i cause : Nat) (va : U64) : State :=
  s.onCopy t i (fun c => { c with fault := some (cause, va), busy := false })

/-- The next request of a group copy (R210), translated through the LVU's Cuff (R271). -/
def State.copyRequest (s : State) (t : Nat) (c : GCopyJob) (bad : Bool) : Try :=
  let i := c.id
  let n := copyLen c
  let va : U64 := c.va + BitVec.ofNat 64 c.cursor
  let s := s.translated t .lvu c.tctx c.kernel (if c.store then .write else .read) va
  let r : GReq := ⟨none, i, c.cursor, n, va.toNat, c.store, (s.tile t).glide.nextReq⟩
  let data := ringRead pocketBytes (s.tile t).pocket (c.off + c.cursor) n
  let wait := (s.pushReq t r).onCopy t i (fun c => { c with busy := true })
  let k : XKind := if c.store then .write else .read
  let put := fun (s : State) (b : Bytes) => (s.pocketWrite t (c.off + c.cursor) b).copyLanded t i n
  if bad && c.store then .done (s.copyFault t i 3 va)
  else match s.resolve t .lvu c.tctx c.kernel k va n with
    | .pocket p =>
      if c.store then .done ((s.pocketWrite t p data).copyLanded t i n)
      else .done (put s (ringRead pocketBytes (s.tile t).pocket p n))
    | .mem a shr =>
      if c.store then
        match s.ownRed t a shr with
        | some e => .done (wait.redTake e (.glide t r) 2 a data s.pkg)
        | none =>
          match s.cohWrite t a false data with
          | (.wait, s) => .wait s
          | (.bad, s) => .done (s.copyFault t i 3 va)
          | (.got _, s) => .done (s.copyLanded t i n)
      else
        match s.cohRead t a n with
        | (.wait, s) => .wait s
        | (.bad, s) => .done (s.copyFault t i 3 va)
        | (.got b, s) => .done (put s b)
    | .host a => .done (wait.hostTxn (.glide t r) (if c.store then 5 else 4) (s.hostPa a) n (if c.store then data else []))
    | .remote pa shr =>
      match wait.remote t (.glide t r) (if c.store then 2 else 1) pa n (if c.store then data else []) shr false with
      | .sent s => .done s
      | .fault => .done (s.copyFault t i 2 va)
    | .walk a => .wait (s.askEntry t a)
    | .page => .done ((s.xlFault t .lvu c.tctx c.kernel k va).copyFault t i 1 va)
    | .uncorr => .done (s.copyFault t i 3 va)
    | _ => .done ((s.xlFault t .lvu c.tctx c.kernel k va).copyFault t i 2 va)

def State.copyCharge (s : State) (t : Nat) (c : GCopyJob) : Nat :=
  (s.resolve t .lvu c.tctx c.kernel (if c.store then .write else .read) (c.va + BitVec.ofNat 64 c.cursor) (copyLen c)).charge s.pkg (copyLen c)

/-- A copy that has a request to issue. -/
def nextCopy (l : List GCopyJob) : Option GCopyJob :=
  l.find? (fun c => !c.busy && c.fault.isNone && decide (c.cursor < c.len))

/-! ### Arbitration (R222) -/

/-- The requesters in the order in which they are asked: after the one served last. -/
def rrOrder (last : Nat) : List Nat := (rangeFrom (last + 1) 17).map (fun i => i % 17)

/-- A stream's session record is still to be asked for. -/
def State.keyWaits (s : State) (t i : Nat) : Bool := (s.stream t i).keyDue && decide ((s.stream t i).state = .running)

/-- Whether a requester has a request. -/
def State.wantsGlide (s : State) (t q : Nat) : Bool :=
  if q < 16 then s.keyWaits t q || (s.stream t q).nextJob.isSome else (nextCopy (s.tile t).grp.copies).isSome

/-- One request of Glide is issued, its charge met; one that meets a busy line waits. -/
def State.glideRequest (s : State) (t : Nat) (bad : Bool) : State :=
  if 512 ≤ (s.tile t).glide.reqs.length then s
  else match (rrOrder (s.tile t).glide.rr).find? (fun q => s.wantsGlide t q) with
    | none => s
    | some q =>
      let go := fun (c : Nat) (f : State → Try) =>
        match s.charge t .memory c with
        | (false, s') => s'
        | (true, s') => match f (s'.onGlide t (fun g => { g with rr := q })) with | .done u => u | .wait u => s.asks u
      if q < 16 ∧ s.keyWaits t q then go 0 (fun s => s.keyRead t q)
      else if q < 16 then
        match (s.stream t q).nextJob with
        | some j => go (s.jobCharge t q j) (fun s => s.jobRequest t q j bad)
        | none => s
      else match nextCopy (s.tile t).grp.copies with
        | some c => go (s.copyCharge t c) (fun s => s.copyRequest t c bad)
        | none => s

/-- The answer to a request of Glide: its data, an acknowledgement, or a failure with its cause; which may have to wait. The bytes of
a tile that was discarded count where they landed (R237), and nothing else of it does. -/
def State.glideAnswer (s : State) (t : Nat) (r : GReq) (b : Option Bytes) (cause : Nat) : Try :=
  let s' := s.onGlide t (fun g => { g with reqs := g.reqs.erase r })
  if !(s.tile t).glide.reqs.contains r then .done s
  else match r.stream with
    | some i =>
      if r.n < (s.stream t i.val).base then .done (if r.write && b.isSome then s'.onGlide t (fun g => g.count 0 r.len) else s')
      else if r.k = keyMark then .done (s'.keyArrive t i.val b)
      else match b with
        | none => .done (s'.jobFault t i.val r.k cause (BitVec.ofNat 64 r.addr))
        | some b => if r.write then .done (s'.jobLanded t i.val r.k r.len) else s'.jobData t i.val r.k r.off b
    | none =>
      match b with
      | none => .done (s'.copyFault t r.k (if cause = gRemote then 2 else 3) (BitVec.ofNat 64 r.addr))
      | some b =>
        if r.write then .done (s'.copyLanded t r.k r.len)
        else match s'.copyOf t r.k with
          | some c => .done ((s'.pocketWrite t (c.off + r.off) b).copyLanded t r.k r.len)
          | none => .done s'

/-! ### Counting (R218, R224, R226) -/

/-- A stream's oldest tile is counted: its Stitch units absorb it, its Gate increases, and the cursor advances. A tile of an
aborted run is discarded. -/
def State.countTile (s : State) (t i : Nat) : State :=
  let x := s.stream t i
  match x.flight with
  | [] => s
  | j :: r =>
    if j.got ≠ jobTotal x.desc j ∨ j.fault.isSome ∨ (dGathers x.desc ∧ !j.second) then s
    else if x.aborting then s.setStream t i (GStream.dropKey { x with flight := r, aborting := !r.isEmpty })
    else if x.state ≠ .running then s
    else
      let cur := x.cursor + 1
      let fin := decide (cur.toNat = dTiles x.desc)
      let y := { x with flight := r, cursor := cur }
      let y := if fin then { y with state := .done, key := none, halting := false, stopping := false } else GStream.rest y
      let s := s.setStream t i y
      let s := s.onGlide t (fun g => { g with stitch := absorbAll i j.plain g.stitch }.count 1 1)
      let s := if dNogate x.desc then s else s.gateAdd t (dGate x.desc) 1
      let s := if fin && dGathers x.desc && decide (dKsrc x.desc = 0) && dDir x.desc then
          let n := field (dWord x.desc 7) 31 0
          s.sealDone t n cur.toNat
        else s
      if fin && dEvent x.desc then s.coreEvent t (.glide i) else s

/-- A stream's oldest tile has met a fault: every earlier tile is counted, and the stream faults. An aborted run's tile is
discarded. -/
def State.faultTile (s : State) (t i : Nat) : State :=
  let x := s.stream t i
  match x.flight with
  | [] => s
  | j :: r =>
    match j.fault with
    | none => s
    | some (c, va) =>
      if x.aborting then s.setStream t i (GStream.dropKey { x with flight := r, aborting := !r.isEmpty })
      else s.gFault t i c va

/-- A tile starts, where the ledger does not refuse it (R357). -/
def State.startTileCmd (s : State) (t i : Nat) : State :=
  let x := s.stream t i
  if !x.canStart then s
  else
    let s' := s.startTile t i
    if dGathers x.desc && decide (dKsrc x.desc = 0) && !s.ledgerTile t x then s'.jobFault t i x.nextTile gVersion 0 else s'

end Sys2Proof.Machine
end

