-- ==== Sys2Proof/Machine/Pieces.lean ====
section
/-!
DEFINITION. Machine/Pieces.lean: the accesses of the LVU and of groups, cut at line boundaries (04 R109; 08 R203, R204;
12 R292).
-/
namespace Sys2Proof.Machine
open Sys2Proof

/-- What a part of an access gives: it waits, in the state with what it has asked for, it meets a fault, its answer is due, or it is done. -/
inductive Piece where
  | wait (s : State)
  | fault (x : Side) (s : State)
  | sent (s : State)
  | got (b : Bytes) (s : State)
  deriving DecidableEq, Repr

/-- The bytes of an access of `n` bytes, `n` at most 64, that lie in its first line. -/
def firstPart (va n : Nat) : Nat := Nat.min n (64 - va % 64)

/-- A side that faults. -/
def Side.faults : Side → Bool
  | .page => true
  | .owner => true
  | .uncorr => true
  | .window _ => true
  | _ => false

/-- The table entry for which a side's walk waits. -/
def Side.walking? : Side → Option Nat
  | .walk a => some a
  | _ => none

/-- A side of which an answer comes later: host memory, or another package. -/
def Side.far : Side → Bool
  | .host _ => true
  | .remote _ _ => true
  | _ => false

/-- Two parts of an access that lie side by side in another package, or in a register window, are one access (R297). -/
def Side.joins (a b : Side) (m : Nat) : Bool :=
  match a, b with
  | .remote p _, .remote q _ => decide (q = p + m)
  | .window p, .window q => decide (q = p + m)
  | _, _ => false

/-- The bytes that the first part of an access of `n` bytes takes: those of its first line, or all of them in another package (R297). -/
def State.partLen (s : State) (t : Nat) (c : CuffId) (ctx : U64) (kernel : Bool) (k : XKind) (va : U64) (n : Nat) : Nat :=
  let m := firstPart va.toNat n
  if m < n && (s.resolve t c ctx kernel k va m).joins (s.resolve t c ctx kernel k (va + BitVec.ofNat 64 m) (n - m)) m then n else m

/-- What a part of an access to be cut next is: its offset, its length, and whether the parts go backwards. A write of two lines whose
second part alone is answered later makes that part first, so that a failure of it leaves nothing written (R113, R204). -/
def State.partPlan (s : State) (t : Nat) (c : CuffId) (ctx : U64) (kernel : Bool) (k : XKind) (va : U64) (n part : Nat) (rev : Bool) : Nat × Nat × Bool :=
  let m := firstPart va.toNat n
  if rev then (0, n - part, true)
  else if k = .write ∧ part = 0 ∧ m < n ∧ !(s.resolve t c ctx kernel k va m).far ∧ (s.resolve t c ctx kernel k (va + BitVec.ofNat 64 m) (n - m)).far then (m, n - m, true)
  else (part, s.partLen t c ctx kernel k (va + BitVec.ofNat 64 part) (n - part), false)

/-- The offset of the part of an access of `n` bytes that has been asked for: the parts go forwards from the first, or backwards. -/
def partOffset (n part asked : Nat) (rev : Bool) : Nat := if rev then n - part - asked else part

/-- A write of a part of a line at a side would fail (R250): the line has an uncorrectable error and no L2 or host holds newer data for
it, or its write fails for good; the state with the error reported. -/
def State.writeBad (s : State) (t : Nat) (x : Side) : Option State :=
  match x with
  | .mem a shr =>
    let line := lineOf a
    if (s.ownRed t a shr).isSome then none
    else if s.writeFails line then some (s.putLine line [])
    else if (s.dirtyTile line).isNone && decide ((s.filterOf line).owner ≠ some 192)
        && (match lineErr s.mem line with | some .uncorrectable => true | some .mac => true | _ => false) then some (s.memLine line t).2
    else none
  | _ => none

/-- A part of a write of two lines would fail: at its memory, or as an access to another package that cannot be made (R51). -/
def State.partFails (s : State) (t : Nat) (x : Side) : Option (Side × State) :=
  match x with
  | .remote pa shr => if s.remoteFails t 2 pa shr then some (.owner, s) else none
  | x => (s.writeBad t x).map (fun s => (.uncorr, s))

/-- The side on which an access of `n` bytes first faults, with the address and the state in which the fault has been counted, or the
error reported; a write of two lines writes neither where one would fail (R113, R204). A walk for which the second part waits is found
as such. -/
def State.accessFault (s : State) (t : Nat) (c : CuffId) (ctx : U64) (kernel : Bool) (k : XKind) (va : U64) (n : Nat) : Option (Side × U64 × State) :=
  let m := firstPart va.toNat n
  let a := s.resolve t c ctx kernel k va m
  if a.faults then some (a, va, s.translatedFault t c ctx kernel k va)
  else if n ≤ m ∨ a.walking?.isSome then none
  else
    let va2 := va + BitVec.ofNat 64 m
    let b := s.resolve t c ctx kernel k va2 (n - m)
    if b.faults then some (b, va2, s.translatedFault t c ctx kernel k va2)
    else if b.walking?.isSome then some (b, va2, s)
    else if k ≠ .write then none
    else match s.partFails t a, s.partFails t b with
      | some f, _ => some (f.1, va, f.2)
      | none, some f => some (f.1, va2, f.2)
      | none, none => none

/-- A part of an access that lies in one line, or in another package: a write of `data`, or a read of `n` bytes. A load takes a line that
the tile's L2 holds, a store one that it holds in E or M, where the LVU makes it (R109, R292). -/
def State.piece (s : State) (t : Nat) (user : TxUser) (c : CuffId) (ctx : U64) (kernel : Bool) (write : Bool) (va : U64) (n : Nat) (data : Bytes) : Piece :=
  let s := s.translated t c ctx kernel (if write then .write else .read) va
  match s.resolve t c ctx kernel (if write then .write else .read) va n with
  | .pocket o =>
    if write then .got [] (s.pocketWrite t o data)
    else .got (ringRead pocketBytes (s.tile t).pocket o n) s
  | .mem a shr =>
    if write then
      match s.ownRed t a shr with
      | some e => .sent (s.redTake e user 2 a data s.pkg)
      | none =>
        match s.cohWrite t a (decide (user = .lvu t)) data with
        | (.wait, s) => .wait s
        | (.bad, s) => .fault .uncorr s
        | (.got _, s) => .got [] s
    else if user = .lvu t ∧ (s.l2 t (lineOf a)).st ≠ .i then .got (((s.l2 t (lineOf a)).data.drop (a % 64)).take n) s
    else
      match s.cohRead t a n with
      | (.wait, s) => .wait s
      | (.bad, s) => .fault .uncorr s
      | (.got b, s) => .got b s
  | .host a =>
    let l := s.l2 t (lineOf a)
    let own := decide (user = .lvu t)
    if (s.wbOf t (lineOf a)).isSome then .wait s
    else if own && !write && decide (l.st ≠ .i) then .got ((l.data.drop (a % 64)).take n) s
    else if own && write && (decide (l.st = .e) || decide (l.st = .m)) then .got [] (s.l2Write t a data)
    else .sent (s.hostTxn user (if write then 5 else 4) (s.hostPa a) n data)
  | .remote pa shr =>
    match s.remote t user (if write then 2 else 1) pa n data shr false with
    | .sent s => .sent s
    | .fault => .fault .owner s
  | .walk a => .wait (s.askEntry t a)
  | x => .fault x (s.xlFault t c ctx kernel (if write then .write else .read) va)

/-- The lines that accesses of `n` bytes at the given addresses touch, each once; an address has 57 bits (R261). -/
def linesTouched (n : Nat) (l : List Nat) : List Nat :=
  (l.flatMap (fun a => [a % 2 ^ 57 / 64, (a % 2 ^ 57 + n - 1) % 2 ^ 57 / 64])).eraseDups

/-- The charge of the memory requests for some lines of virtual addresses. -/
def State.linesCharge (s : State) (t : Nat) (c : CuffId) (ctx : U64) (kernel : Bool) (k : XKind) (l : List Nat) : Nat :=
  sumNat (l.map (fun v => (s.resolve t c ctx kernel k (BitVec.ofNat 64 (64 * v)) 1).charge s.pkg 1))

end Sys2Proof.Machine
end

