-- ==== Sys2Proof/Machine/Atomics.lean ====
section
/-!
DEFINITION. Machine/Atomics.lean: atomics as data of a packet, and where they execute (12 R293 to R297; 14 Table 14.5;
15 R344).
-/
namespace Sys2Proof.Machine
open Sys2Proof

/-- FUNC[10:6] of an operation (Tables 12.7, 12.8), and its major opcode. -/
def atomCode : AtomOp → Nat
  | .swap => 0
  | .add => 1
  | .and => 2
  | .or => 3
  | .xor => 4
  | .smax => 5
  | .smin => 6
  | .umax => 7
  | .umin => 8
  | .cas => 0
  | .fadd => 0
  | .fmax => 1
  | .fmin => 2

def atomMajor (op : AtomOp) (size : Nat) : Nat :=
  match op with
  | .cas => if size = 16 then 0x22 else 0x21
  | .fadd => 0x23
  | .fmax => 0x23
  | .fmin => 0x23
  | _ => 0x20

/-- SIZE, FUNC[5:4]. -/
def atomSize (size : Nat) : Nat := if size = 4 then 2 else if size = 8 then 3 else 0

/-- OP and FUNC at their places in the register format of R66. -/
def atomWord (op : AtomOp) (size : Nat) : Nat := atomMajor op size * 2 ^ 26 + atomCode op * 64 + atomSize size * 16

/-- The integer operation of a code. -/
def intAtom : Nat → Option AtomOp
  | 0 => some .swap
  | 1 => some .add
  | 2 => some .and
  | 3 => some .or
  | 4 => some .xor
  | 5 => some .smax
  | 6 => some .smin
  | 7 => some .umax
  | 8 => some .umin
  | _ => none

/-- The operation and size of OP and FUNC; none where no row of Table 12.7 lists them. -/
def atomOf (w : Nat) : Option (AtomOp × Nat) :=
  let code := field w 10 6
  let sz := field w 5 4
  let size := if sz = 2 then 4 else 8
  match field w 31 26 with
  | 0x20 => if sz < 2 then none else (intAtom code).map (fun o => (o, size))
  | 0x21 => if sz < 2 ∨ code ≠ 0 then none else some (.cas, size)
  | 0x22 => if sz ≠ 0 ∨ code ≠ 0 then none else some (.cas, 16)
  | 0x23 =>
    if sz < 2 then none
    else match code with
      | 0 => some (.fadd, size)
      | 1 => some (.fmax, size)
      | 2 => some (.fmin, size)
      | _ => none
  | _ => none

/-- The data of an ATOM: OP and FUNC, then the operand and the compare value. -/
def atomData (op : AtomOp) (size v cmp : Nat) : Bytes :=
  let w := if size = 16 then 16 else 8
  natLe 8 (atomWord op size) ++ natLe w v ++ natLe w cmp

/-- An ATOM's data read back: operation, size, operand, compare value. -/
def atomRead (d : Bytes) : Option (AtomOp × Nat × Nat × Nat) :=
  match atomOf (leNat (d.take 4)) with
  | none => none
  | some (op, size) =>
    let w := if size = 16 then 16 else 8
    some (op, size, leNat ((d.drop 8).take size), leNat ((d.drop (8 + w)).take size))

/-- An atomic at the home of a line of this package: no copy of the line is left (R293, Table 12.6). -/
def State.cohAtomic (s : State) (tile a size : Nat) (op : AtomOp) (v cmp : Nat) : Got × State :=
  let line := lineOf a
  if !s.free tile a 1 true false then (.wait, s.callIn tile a 1 true false)
  else if s.heldByCap [(line, 128)] then (.wait, s)
  else
    match ((s.order line (readerNode tile)).lend line 0 none).memLine line tile with
    | (none, s) => (.bad, s)
    | (some b, s) =>
      let o := a % 64
      let old := leNat ((b.drop o).take size)
      let b' := b.take o ++ natLe size (atomNew op size old v cmp) ++ b.drop (o + size)
      (if s.writeFails line then (.bad, s.putLine line b') else (.got (natLe size old), (s.putLine line b').bumpShared 0x1B01 (memDie a + 1) 1))

/-- An atomic issued by a tile (object 0x1B10). -/
def State.countAtomic (s : State) (t : Nat) : State :=
  s.onTile t (fun x => { x with xlat := { x.xlat with cnt := tabSet 0 x.xlat.cnt 3 (Nat.min (tabGet 0 x.xlat.cnt 3 + 1) (2 ^ 64 - 1)) } })

/-- An atomic of a tile's unit on a naturally aligned location. -/
def State.atomPiece (s : State) (t : Nat) (user : TxUser) (c : CuffId) (ctx : U64) (kernel : Bool) (va : U64) (size : Nat) (op : AtomOp) (v cmp : Nat) : Piece :=
  let s := s.translated t c ctx kernel .atomic va
  match s.resolve t c ctx kernel .atomic va size with
  | .pocket o =>
    let old := leNat (ringRead pocketBytes (s.tile t).pocket o size)
    .got (natLe size old) ((s.pocketWrite t o (natLe size (atomNew op size old v cmp))).countAtomic t)
  | .mem a _ =>
    match s.cohAtomic t a size op v cmp with
    | (.wait, s) => .wait s
    | (.bad, s) => .fault .uncorr s
    | (.got b, s) => .got b (s.countAtomic t)
  | .host a => .sent ((s.hostTxn user 6 (s.hostPa a) (atomData op size v cmp).length (atomData op size v cmp)).countAtomic t)
  | .remote pa shr =>
    match s.remote t user 3 pa (atomData op size v cmp).length (atomData op size v cmp) shr false with
    | .sent s => .sent (s.countAtomic t)
    | .fault => .fault .owner s
  | .walk a => .wait (s.askEntry t a)
  | x => .fault x (s.xlFault t c ctx kernel .atomic va)

end Sys2Proof.Machine
end

