-- ==== Sys2Proof/Machine/Operands.lean ====
section
/-!
DEFINITION. Machine/Operands.lean: operand forms: number formats of conversions, elements of vector and predicate registers,
and what an instruction writes of its destination (04 R93, R98, R99; 06 Table 6.1).
-/
namespace Sys2Proof.Machine
open Sys2Proof

def VFmt.fmt : VFmt → Fmt
  | .f64 => Machine.f64
  | .f32 => Machine.f32
  | .f16 => Machine.f16
  | .bf16 => Machine.bf16
  | .e4m3 => Machine.e4m3
  | .e5m2 => Machine.e5m2
  | .sint w => .int w.val true
  | .uint w => .int w.val false

def VFmt.width (f : VFmt) : Nat := (VFmt.fmt f).width

/-- The bits of a SEW code (Table 4.1). -/
def sewBits (c : Nat) : Nat := 8 * 2 ^ (c % 4)

/-- VLMAX of a SEW (R93). -/
def vlmax (sew : Nat) : Nat := 8192 / sew

/-- Element `i` of width `w` of a register. -/
def elemOf (v w i : Nat) : Nat := v / 2 ^ (w * i) % 2 ^ w

/-- The register with the elements of a list, element 0 lowest. -/
def packElems (w : Nat) : List Nat → Nat
  | [] => 0
  | x :: xs => x % 2 ^ w + 2 ^ w * packElems w xs

/-- Element `i` replaced. -/
def elemSet (v w i x : Nat) : Nat := v / 2 ^ (w * (i + 1)) * 2 ^ (w * (i + 1)) + x % 2 ^ w * 2 ^ (w * i) + v % 2 ^ (w * i)

/-- What an instruction leaves in its destination (R99): active elements are written, masked ones keep their value or are
zeroed, tail elements keep their value. -/
def writeElems (old w n vl pred : Nat) (z : Bool) (f : Nat → Nat) : Nat :=
  packElems w ((List.range n).map (fun i =>
    if i < vl then (if pred.testBit i then f i else if z then 0 else elemOf old w i) else elemOf old w i))

/-- The same for the bits of a predicate. -/
def writePred (old vl pred : Nat) (z : Bool) (f : Nat → Bool) : Nat :=
  writeElems old 1 1024 vl pred z (fun i => flag (f i))

/-- The function of an integer operation on two elements of width `w` (R99, Table 4.7). -/
def intOp (op : VIntOp) (w a b : Nat) : Nat :=
  match op with
  | .add => (a + b) % 2 ^ w
  | .sub => (a + 2 ^ w - b % 2 ^ w) % 2 ^ w
  | .mul => a * b % 2 ^ w
  | .and => a &&& b
  | .or => a ||| b
  | .xor => a ^^^ b
  | .shl => a * 2 ^ (b % w) % 2 ^ w
  | .shr => a / 2 ^ (b % w)
  | .sra => ofSigned w (toSigned w a / 2 ^ (b % w))
  | .min => if toSigned w b < toSigned w a then b else a
  | .minu => if b < a then b else a
  | .max => if toSigned w a < toSigned w b then b else a
  | .maxu => if a < b then b else a
  | .move => a
  | .splat => b
  | .other fn => otherOp 0x2D fn.val a b w % 2 ^ w
  | _ => 0

/-- A comparison of two elements. -/
def intCmp (op : VIntOp) (w a b : Nat) : Option Bool :=
  match op with
  | .cmpEq => some (decide (a = b))
  | .cmpNe => some (decide (a ≠ b))
  | .cmpLt => some (decide (toSigned w a < toSigned w b))
  | .cmpLtu => some (decide (a < b))
  | .cmpLe => some (decide (toSigned w a ≤ toSigned w b))
  | .cmpLeu => some (decide (a ≤ b))
  | _ => none

/-- The increment of a fixed-point division (R106): `q` the whole part, `r` the remainder, `h` half a unit. -/
def fxInc (mode : Nat) (v q r h : Int) : Bool :=
  match mode % 4 with
  | 0 => decide (h < r) || (decide (r = h) && decide (q % 2 ≠ 0))
  | 1 => decide (v < 0) && decide (r ≠ 0)
  | 2 => decide (h ≤ r)
  | _ => decide (r ≠ 0) && decide (q % 2 = 0)

/-- Division by a power of two, rounded by FXRND (R106). -/
def fxRound (mode : Nat) (v : Int) (d : Nat) : Int :=
  if d = 0 then v
  else
    let u : Int := (2 : Int) ^ d
    let q := v / u
    if fxInc mode v q (v - q * u) ((2 : Int) ^ (d - 1)) then q + 1 else q

/-- A value clamped to a signed or unsigned width, and whether it was clamped (FXSAT, R106). -/
def fxSat (w : Nat) (signed : Bool) (v : Int) : Nat × Bool :=
  let lo : Int := if signed then - (2 ^ (w - 1) : Nat) else 0
  let hi : Int := if signed then ((2 ^ (w - 1) : Nat) : Int) - 1 else ((2 ^ w : Nat) : Int) - 1
  if v < lo then (ofSigned w lo, true) else if hi < v then (ofSigned w hi, true) else (ofSigned w v, false)

/-- The value of an element, signed or not. -/
def elemInt (w : Nat) (signed : Bool) (v : Nat) : Int := if signed then toSigned w v else ((v % 2 ^ w : Nat) : Int)

/-- The fixed-point instructions of Table 4.6 but for the narrowing ones: the result element and whether it clamped. -/
def fxOp (fn mode w a b d : Nat) : Nat × Bool :=
  let x := elemInt w (decide (fn % 2 = 0)) a
  let y := elemInt w (decide (fn % 2 = 0)) b
  let wrap := fun (v : Int) => (ofSigned w v, false)
  match fn with
  | 0x00 => fxSat w true (x + y)
  | 0x01 => fxSat w false (x + y)
  | 0x02 => fxSat w true (x - y)
  | 0x03 => fxSat w false (x - y)
  | 0x04 => wrap (fxRound mode (x + y) 1)
  | 0x05 => wrap (fxRound mode (x + y) 1)
  | 0x06 => wrap (fxRound mode (x - y) 1)
  | 0x07 => wrap (fxRound mode (x - y) 1)
  | 0x08 => wrap (fxRound mode x (b % w))
  | 0x09 => wrap (fxRound mode x (b % w))
  | 0x0A => fxSat w true (x * (2 ^ (b % w) : Nat))
  | 0x0B => fxSat w false (x * (2 ^ (b % w) : Nat))
  | 0x0E => fxSat w true (fxRound mode (toSigned w a * toSigned w b) (w - 1))
  | 0x0F => fxSat w true (toSigned w d + fxRound mode (toSigned w a * toSigned w b) (w - 1))
  | _ => (0, false)

/-- FXNARROW and FXNARROWU: the element `i` of the pair is `2 w` bits wide. -/
def fxNarrow (signed : Bool) (mode w a b : Nat) : Nat × Bool :=
  fxSat w signed (fxRound mode (elemInt (2 * w) signed a) (b % (2 * w)))

end Sys2Proof.Machine
end

