-- ==== Sys2Proof/Machine/Flags.lean ====
section
/-!
DEFINITION. Machine/Flags.lean: floating-point operations with the flags that they raise, for scalar code, the LVU and groups
(04 R103 to R105; 06 R147 to R152, R167), and the fields of vcsr and fcsr that hold them (Tables 4.2, 6.5).
-/
namespace Sys2Proof.Machine
open Sys2Proof

/-- What a floating-point operation gives: its bits, its flags, whether a fast-mode conversion saturated (SATCNV), and
whether the result is a truth value. -/
structure FpOut where
  bits : Nat
  fl : Flags := 0
  sat : Bool := false
  truth : Bool := false
  deriving DecidableEq, Repr

/-- A result rounded once to a format; BF16 arithmetic is carried out as FP32 and rounded to BF16 (R103). -/
def fpRound (f : Fmt) (rm : Rm) (x : VF) : FpOut :=
  if f = bf16 then
    let a := ieeeRound f32 rm x
    let b := ieeeRound bf16 rm ⟨decodeVal f32 a.1, 0⟩
    { bits := b.1, fl := a.2 ||| b.2 }
  else
    let r := ieeeRound f rm x
    { bits := r.1, fl := r.2 }

/-- A comparison under IEEE 754-2019: equality is quiet, the orderings signal on any NaN. -/
def fpCmp (quiet : Bool) (p : Val → Val → Bool) (a b : Val) : FpOut :=
  if a.isNan || b.isNan then { bits := 0, fl := if quiet then sigFlag a ||| sigFlag b else fNV, truth := true }
  else { bits := flag (p a b), truth := true }

/-- A conversion between formats (R103, R152, R167): in fast mode a source beyond the target's range saturates, and none of the events
that Table 6.9 gives a flag in strict mode raises one; a rounding in range still does (DESIGN CHOICE, assumption 68). -/
def fpCvt (strict : Bool) (rm : Rm) (src dst : VFmt) (a : Nat) : FpOut :=
  let v := decodeVal (VFmt.fmt src) a
  let c := convert strict (VFmt.fmt dst) rm v
  let quiet := !strict && (c.counted || c.under || !v.isFin)
  { bits := c.bits, fl := if quiet then 0 else c.fl ||| sigFlag v, sat := !strict && c.counted }

/-- A floating-point operation on the bits of its operands in a format. `n`, `use` and `i` name the value of an operation
that the separate reference defines. -/
def fpEval (strict : Bool) (f : Fmt) (rm : Rm) (op : FpOp) (a b c : Nat) : FpOut :=
  let x := decodeVal f a
  let y := decodeVal f b
  let z := decodeVal f c
  match op with
  | .add => fpRound f rm (Val.add rm x y)
  | .sub => fpRound f rm (Val.sub rm x y)
  | .mul => fpRound f rm (Val.mul x y)
  | .div => fpRound f rm (Val.div x y)
  | .sqrt => fpRound f rm (Val.sqrt x)
  | .fma => fpRound f rm (Val.fma rm x y z)
  | .fms => fpRound f rm (Val.fma rm x y z.neg)
  | .min => fpRound f rm (Val.min x y)
  | .max => fpRound f rm (Val.max x y)
  | .cmpEq => fpCmp true Val.eqv x y
  | .cmpLt => fpCmp false (Val.lt false) x y
  | .cmpLe => fpCmp false (fun p q => Val.lt false p q || Val.eqv p q) x y
  | .cvt src dst => fpCvt strict rm src dst a
  | .other fn => { bits := otherOp 0x2F fn.val a b c % 2 ^ f.width }

/-- The rounding direction that vcsr or fcsr holds in FRM. -/
def frmOf (v : U64) : Rm := rmOfBits (field v.toNat 14 13)

/-- FFLAGS accumulated (Tables 4.2, 6.5). -/
def addFlags (v : U64) (fl : Flags) : U64 := v ||| (BitVec.ofNat 64 fl.toNat <<< 4)

/-- SATCNV and FXSAT set (Table 4.2). -/
def setSatcnv (v : U64) (b : Bool) : U64 := if b then v ||| 0x200 else v
def setFxsat (v : U64) (b : Bool) : U64 := if b then v ||| 0x400 else v

/-- The bits of vcsr that a write keeps, and those of fcsr. -/
def vcsrMask : U64 := 0xFFF0
def fcsrMask : U64 := 0x61F0

/-- An adjacent pair of a reduction tree combined: an absent element leaves the other as it is. -/
def redPair (f : Nat → Nat → FpOut) (a b : Option Nat) : Option Nat × Flags :=
  match a, b with
  | some x, some y => let r := f x y; (some r.bits, r.fl)
  | some x, none => (some x, 0)
  | none, y => (y, 0)

/-- One level of a balanced tree over element positions (R105). -/
def redLevel (f : Nat → Nat → FpOut) : List (Option Nat) → List (Option Nat) × Flags
  | a :: b :: t =>
    let x := redPair f a b
    let r := redLevel f t
    (x.1 :: r.1, x.2 ||| r.2)
  | l => (l, 0)

/-- The balanced tree, `k` levels. -/
def redTreeGo (f : Nat → Nat → FpOut) : Nat → List (Option Nat) → Flags → Option Nat × Flags
  | 0, l, fl => (l.headD none, fl)
  | k + 1, l, fl =>
    let r := redLevel f l
    redTreeGo f k r.1 (fl ||| r.2)

/-- The ordered sum: active elements added one by one (R105). -/
def redOrdered (f : Nat → Nat → FpOut) : List (Option Nat) → Option Nat → Flags → Option Nat × Flags
  | [], acc, fl => (acc, fl)
  | x :: xs, acc, fl =>
    let r := redPair f acc x
    redOrdered f xs r.1 (fl ||| r.2)

end Sys2Proof.Machine
end

