-- ==== Sys2Proof/Machine/LvuOps.lean ====
section
/-!
DEFINITION. Machine/LvuOps.lean: the vector queue, vector registers, and the work of vector instructions (04 R93 to R115).
-/
namespace Sys2Proof.Machine
open Sys2Proof

/-! ### Registers (R93) -/

def State.onLvu (s : State) (t : Nat) (f : Lvu → Lvu) : State := s.onTile t (fun x => { x with lvu := f x.lvu })

def Lvu.vreg (x : Lvu) (r : Nat) : Nat := (tabGet 0 x.v r).toNat

def Lvu.setV (x : Lvu) (r v : Nat) : Lvu := { x with v := tabSet 0 x.v r (BitVec.ofNat 8192 v) }

/-- p0 reads as all ones and ignores writes. -/
def Lvu.pred (x : Lvu) (r : Nat) : Nat := if r = 0 then 2 ^ 1024 - 1 else (tabGet 0 x.p r).toNat

def Lvu.setP (x : Lvu) (r v : Nat) : Lvu := if r = 0 then x else { x with p := tabSet 0 x.p r (BitVec.ofNat 1024 v) }

def Lvu.sew (x : Lvu) : Nat := sewBits x.vtype.toNat

def Lvu.len (x : Lvu) : Nat := x.vl.toNat

/-- An instruction writes some element of its destination (R98, R99). -/
def Lvu.writes (x : Lvu) (i : VInstr) : Bool := (List.range x.len).any (fun k => i.z || (x.pred i.pg).testBit k)

/-- What VRELEASE declared ends where an instruction has written vector state (R116). -/
def Lvu.alive (x : Lvu) (w : Bool) : Lvu := { x with released := x.released && !w }

/-- FFLAGS and SATCNV accumulated. -/
def Lvu.raise (x : Lvu) (fl : Flags) (sat : Bool) : Lvu :=
  { x with vcsr := setSatcnv (addFlags x.vcsr fl) sat }.alive (decide (fl ≠ 0) || sat)

def Lvu.count (x : Lvu) (i n : Nat) : Lvu := { x with cnt := tabSet 0 x.cnt i (Nat.min (tabGet 0 x.cnt i + n) (2 ^ 64 - 1)) }

/-! ### What the C-core catches before it sends an instruction (R95, R101, R103, R104, R107, R110) -/

/-- The SEW that holds for the next instruction to be sent. -/
def Lvu.sewSent (x : Lvu) : Nat :=
  x.queue.foldl (fun w e => match e.i.kind with | .setvl c => sewBits c.val | _ => w) x.sew

/-- A conversion names formats that exist, and FP8 only from FP16, BF16 and FP32 (R103). -/
def vfmtOk : VFmt → Bool
  | .sint w => decide (w.val = 8 ∨ w.val = 16 ∨ w.val = 32 ∨ w.val = 64)
  | .uint w => decide (w.val = 8 ∨ w.val = 16 ∨ w.val = 32 ∨ w.val = 64)
  | _ => true

def cvtOk (a b : VFmt) : Bool :=
  vfmtOk a && vfmtOk b &&
    (match b with
     | .e4m3 => decide (a = .f16 ∨ a = .bf16 ∨ a = .f32)
     | .e5m2 => decide (a = .f16 ∨ a = .bf16 ∨ a = .f32)
     | _ => true)

/-- The predicate that an instruction writes must exist. -/
def cmpWrites : VIntOp → Bool
  | .cmpEq => true
  | .cmpNe => true
  | .cmpLt => true
  | .cmpLtu => true
  | .cmpLe => true
  | .cmpLeu => true
  | _ => false

/-- An illegal vector instruction under an element width. -/
def vIllegal (sew : Nat) (i : VInstr) : Bool :=
  match i.kind with
  | .int op => (cmpWrites op && decide (16 ≤ i.vd.val)) || (match op with | .other fn => decide (48 ≤ fn.val) | _ => false)
  | .fx fn => decide (16 ≤ fn.val) || (decide (fn.val = 0xC ∨ fn.val = 0xD) && (decide (sew = 64) || decide (i.vsa.val % 2 = 1)))
  | .fp _ op =>
    (match op with
     | .cvt a b => !cvtOk a b
     | .cmpEq => decide (sew = 8) || decide (16 ≤ i.vd.val)
     | .cmpLt => decide (sew = 8) || decide (16 ≤ i.vd.val)
     | .cmpLe => decide (sew = 8) || decide (16 ≤ i.vd.val)
     | .other fn => decide (sew = 8) || decide (60 ≤ fn.val)
     | _ => decide (sew = 8))
  | .red _ _ => decide (sew = 8)
  | .vfop _ _ k =>
    decide (sew < 32) || decide (vlmax sew / 8 ≤ k.val) || decide (i.vd.val % 8 ≠ 0)
      || decide (i.vsa.val / 8 = i.vd.val / 8) || decide (i.vsb.val / 8 = i.vd.val / 8)
  | .pred op =>
    (match op with
     | .count => decide (16 ≤ i.vsa.val)
     | .first => decide (16 ≤ i.vsa.val)
     | .below => decide (16 ≤ i.vd.val)
     | .other fn => decide (16 ≤ fn.val)
     | .not => decide (16 ≤ i.vd.val) || decide (16 ≤ i.vsa.val)
     | _ => decide (16 ≤ i.vd.val) || decide (16 ≤ i.vsa.val) || decide (16 ≤ i.vsb.val))
  | .store m => decide (m = .faultFirst)
  | _ => false

/-- The scalar registers that an instruction reads when it is sent. -/
def vReadsX (i : VInstr) : List Nat :=
  match i.kind with
  | .setvl _ => [i.vsa.val]
  | .vcsrw => [i.vsa.val]
  | .load m => if m = .strided then [i.vsa.val, i.vsb.val] else [i.vsa.val]
  | .store m => if m = .strided then [i.vsa.val, i.vsb.val] else [i.vsa.val]
  | .pred .below => [i.vsb.val]
  | .int _ => if i.scalar then [i.vsb.val] else []
  | .fx _ => if i.scalar then [i.vsb.val] else []
  | _ => []

def vReadsF (i : VInstr) : List Nat := match i.kind with | .fp _ _ => if i.scalar then [i.vsb.val] else [] | _ => []

/-! ### The head of the queue -/

/-- The instruction at the head of a running queue (R95, R113). -/
def State.vhead (s : State) (t : Nat) : Option VEntry :=
  if s.vectorRuns t && !(s.tile t).lvu.faulted then (s.tile t).lvu.queue.head? else none

/-- The head leaves the queue. -/
def Lvu.pop (x : Lvu) : Lvu := { x with queue := x.queue.tail, begun := false, cur := 0, part := 0, buf := [], waiting := false, asked := 0 }

/-- A count of cycles that shrinks with vl (R108). -/
def occAt (x : Lvu) (o : Nat) : Nat := Nat.max 1 ((o * x.len + vlmax x.sew - 1) / vlmax x.sew)

/-- The charge of the arithmetic unit, and of the others (Table 19.4). -/
def arithCharge (x : Lvu) (o : Nat) : Nat := (5 * o * x.len + vlmax x.sew - 1) / vlmax x.sew
def unitCharge (x : Lvu) (o : Nat) : Nat := 2 * occAt x o

/-- The instruction at the head, where `want` names its kind: charged, counted, done, and gone from the queue. -/
def State.vop (s : State) (t : Nat) (want : VKind → Bool) (cost : Lvu → Nat) (f : State → VEntry → State) : State :=
  match s.vhead t with
  | none => s
  | some e =>
    if want e.i.kind then
      s.paid t .vector (cost (s.tile t).lvu) (fun s => ((f s e).onLvu t (fun x => x.pop.count 0 1)).tick1)
    else s

/-! ### Elements -/

/-- The results of the active elements among `n`. -/
def vmap (n vl pred : Nat) (f : Nat → FpOut) : List (Option FpOut) :=
  (List.range n).map (fun i => if i < vl && pred.testBit i then some (f i) else none)

/-- What the results leave in a destination (R99). -/
def vput (old w vl : Nat) (z : Bool) (outs : List (Option FpOut)) : Nat :=
  packElems w (((List.range outs.length).zip outs).map (fun p =>
    match p.2 with
    | some r => r.bits
    | none => if p.1 < vl && z then 0 else elemOf old w p.1))

def vflags (outs : List (Option FpOut)) : Flags := outs.foldl (fun a r => match r with | some r => a ||| r.fl | none => a) 0

def vsat (outs : List (Option FpOut)) : Bool := outs.any (fun r => match r with | some r => r.sat | none => false)

/-- An operand element: of register VSB, or the scalar. -/
def vsbElem (x : Lvu) (e : VEntry) (fp : Bool) (w i : Nat) : Nat :=
  if e.i.scalar then (if fp then e.fb else e.xb).toNat % 2 ^ w else elemOf (x.vreg e.i.vsb) w i

/-- Integer instructions of group 0x2D (R99; Table 4.7). At the edges of permutations the spec states no result: a gather or a slide
down from beyond VLMAX gives zero, and a slide up keeps the elements below its offset (DESIGN CHOICE, assumption 72). -/
def vint (x : Lvu) (e : VEntry) (op : VIntOp) : Lvu :=
  let w := x.sew
  let n := vlmax w
  let i := e.i
  let a := x.vreg i.vsa
  let p := x.pred i.pg
  let b := vsbElem x e false w
  let put := fun (f : Nat → Nat) => (x.setV i.vd (writeElems (x.vreg i.vd) w n x.len p i.z f)).alive (x.writes i)
  match op with
  | .toScalar => x
  | .slideUp => put (fun k => if k < b 0 then elemOf (x.vreg i.vd) w k else elemOf a w (k - b 0))
  | .slideDown => put (fun k => if k + b 0 < n then elemOf a w (k + b 0) else 0)
  | .gather => put (fun k => if b k < n then elemOf a w (b k) else 0)
  | _ =>
    if cmpWrites op then
      (x.setP i.vd (writePred (x.pred i.vd) x.len p i.z (fun k => (intCmp op w (elemOf a w k) (b k)).getD false))).alive
        (x.writes i && decide (i.vd.val ≠ 0))
    else put (fun k => intOp op w (elemOf a w k) (b k))

def vintCharge (op : VIntOp) (x : Lvu) : Nat :=
  match op with
  | .mul => arithCharge x (if x.sew = 64 then 2 else 1)
  | .slideUp => unitCharge x 4
  | .slideDown => unitCharge x 4
  | .gather => unitCharge x 4
  | _ => arithCharge x 1

/-- Fixed-point instructions (R106, R107). -/
def vfx (x : Lvu) (e : VEntry) (fn : Nat) : Lvu :=
  let w := x.sew
  let i := e.i
  let mode := field x.vcsr.toNat 12 11
  let d := x.vreg i.vd
  let el := fun (k : Nat) =>
    if fn = 0xC ∨ fn = 0xD then
      let a := if 2 * w * (k + 1) ≤ 8192 then elemOf (x.vreg i.vsa) (2 * w) k else elemOf (x.vreg (i.vsa + 1)) (2 * w) (k - vlmax (2 * w))
      fxNarrow (decide (fn = 0xC)) mode w a (vsbElem x e false w k)
    else fxOp fn mode w (elemOf (x.vreg i.vsa) w k) (vsbElem x e false w k) (elemOf d w k)
  let outs := vmap (vlmax w) x.len (x.pred i.pg) (fun k => let r := el k; { bits := r.1, sat := r.2 })
  let y := x.setV i.vd (vput d w x.len i.z outs)
  { y with vcsr := setFxsat y.vcsr (vsat outs) }.alive (x.writes i)

def vfxCharge (fn : Nat) (x : Lvu) : Nat := arithCharge x (if (fn = 0xE ∨ fn = 0xF) ∧ x.sew = 64 then 2 else 1)

/-- The floating-point format of a SEW (R103). -/
def vfpFmt (bf : Bool) (sew : Nat) : Fmt := if sew = 64 then f64 else if sew = 32 then f32 else if bf then bf16 else f16

def vstrict (x : Lvu) : Bool := x.vcsr.getLsbD 15

/-- Floating-point arithmetic, comparisons and conversions (R103). Element `k` of a conversion has the width of its format. -/
def vfp (x : Lvu) (e : VEntry) (bf : Bool) (op : FpOp) : Lvu :=
  let i := e.i
  let rm := frmOf x.vcsr
  let p := x.pred i.pg
  let done := fun (y : Lvu) (outs : List (Option FpOut)) (w : Bool) => (y.alive (w && x.writes i)).raise (vflags outs) (vsat outs)
  let pred := decide (i.vd.val ≠ 0)
  match op with
  | .cvt src dst =>
    let ws := VFmt.width src
    let w := VFmt.width dst
    let outs := vmap (8192 / w) x.len p (fun k => fpCvt (vstrict x) rm src dst (elemOf (x.vreg i.vsa) ws k))
    done (x.setV i.vd (vput (x.vreg i.vd) w x.len i.z outs)) outs true
  | _ =>
    let w := x.sew
    let f := vfpFmt bf w
    let el := fun (k : Nat) => fpEval (vstrict x) f rm op (elemOf (x.vreg i.vsa) w k) (vsbElem x e true w k) (elemOf (x.vreg i.vd) w k)
    let outs := vmap (vlmax w) x.len p el
    match op with
    | .cmpEq => done (x.setP i.vd (vput (x.pred i.vd) 1 x.len i.z (outs ++ List.replicate (1024 - vlmax w) none))) outs pred
    | .cmpLt => done (x.setP i.vd (vput (x.pred i.vd) 1 x.len i.z (outs ++ List.replicate (1024 - vlmax w) none))) outs pred
    | .cmpLe => done (x.setP i.vd (vput (x.pred i.vd) 1 x.len i.z (outs ++ List.replicate (1024 - vlmax w) none))) outs pred
    | _ => done (x.setV i.vd (vput (x.vreg i.vd) w x.len i.z outs)) outs true

def vfpCharge (op : FpOp) (x : Lvu) : Nat :=
  arithCharge x (match op with
    | .div => if x.sew = 64 then 16 else 8
    | .sqrt => if x.sew = 64 then 16 else 8
    | .cvt _ _ => 1
    | _ => if x.sew = 16 then 2 else 1)

/-- The outer product of one row (R104). -/
def vfopRow (x : Lvu) (e : VEntry) (zacc neg : Bool) (k r : Nat) : List (Option FpOut) :=
  let w := x.sew
  let a := elemOf (x.vreg e.i.vsa) w (8 * k + r)
  let a := if neg then a ^^^ 2 ^ (w - 1) else a
  vmap (vlmax w) x.len (x.pred e.i.pg) (fun c =>
    fpEval true (vfpFmt false w) (frmOf x.vcsr) .fma a (elemOf (x.vreg e.i.vsb) w c) (if zacc then 0 else elemOf (x.vreg (e.i.vd + r)) w c))

def vfopAll (x : Lvu) (e : VEntry) (zacc neg : Bool) (k : Nat) : Lvu :=
  (List.range 8).foldl (fun (y : Lvu) r =>
    let outs := vfopRow x e zacc neg k r
    (y.setV (e.i.vd + r) (vput (x.vreg (e.i.vd + r)) x.sew x.len false outs)).raise (vflags outs) false)
    (x.alive (x.writes { e.i with z := false }))

/-- The active elements of a reduction, by position. -/
def vactive (x : Lvu) (e : VEntry) : List (Option Nat) :=
  (List.range (vlmax x.sew)).map (fun k => if k < x.len && (x.pred e.i.pg).testBit k then some (elemOf (x.vreg e.i.vsa) x.sew k) else none)

/-- A reduction's result: a NaN that met no operation is canonical too, and signals (R147). -/
def redEnd (f : Fmt) (r : Option Nat × Flags) : Option Nat × Flags :=
  match r.1 with
  | some v => let x := decodeVal f v; if x.isNan then (some (canonNan f), r.2 ||| sigFlag x) else r
  | none => r

/-- A reduction (R105): its value, where some element is active, and its flags. The tree pairs the active elements in order of their
positions, so that `v` of them meet at most `log2 v` roundings, rounded up (R166; DEDUCED, assumption 69). -/
def vred (x : Lvu) (e : VEntry) (bf : Bool) (op : RedOp) : Option Nat × Flags :=
  let f := vfpFmt bf x.sew
  let rm := frmOf x.vcsr
  let two := fun (o : FpOp) (a b : Nat) => fpEval (vstrict x) f rm o a b 0
  let l := (vactive x e).filter Option.isSome
  redEnd f (match op with
    | .sum => redTreeGo (two .add) 10 l 0
    | .max => redTreeGo (two .max) 10 l 0
    | .min => redTreeGo (two .min) 10 l 0
    | .osum => redOrdered (two .add) l none 0)

/-- The value of a reduction in the f register that VD names; with no active element the spec states none (assumption 1). -/
def State.vredPut (s : State) (t : Nat) (e : VEntry) (bf : Bool) (op : RedOp) : State :=
  let x := (s.tile t).lvu
  let r := vred x e bf op
  let v := match r.1 with | some v => v | none => freeValue s.freeCtr 14 0 % 2 ^ x.sew
  let hi := if x.sew = 64 then 0 else 2 ^ x.sew * freeValue s.freeCtr 6 x.sew
  (s.setF t e.i.vd (BitVec.ofNat 64 (v + hi))).onLvu t (fun x => x.raise r.2 false)

/-- Predicate operations (R100) that write a predicate. -/
def vpredPut (x : Lvu) (e : VEntry) (op : PredOp) : Lvu :=
  let i := e.i
  let a := x.pred i.vsa
  let b := x.pred i.vsb
  let put := fun (f : Nat → Bool) =>
    (x.setP i.vd (writePred (x.pred i.vd) x.len (x.pred i.pg) i.z f)).alive (x.writes i && decide (i.vd.val ≠ 0))
  match op with
  | .and => put (fun k => a.testBit k && b.testBit k)
  | .or => put (fun k => a.testBit k || b.testBit k)
  | .xor => put (fun k => a.testBit k != b.testBit k)
  | .andn => put (fun k => a.testBit k && !b.testBit k)
  | .not => put (fun k => !a.testBit k)
  | .below => put (fun k => decide (k < e.xb.toNat))
  | .other fn => put (fun k => decide (otherOp 0x31 fn.val a b k % 2 = 1))
  | _ => x

/-- The active set bits of a predicate. -/
def vpredBits (x : Lvu) (e : VEntry) : List Nat :=
  (List.range x.len).filter (fun k => (x.pred e.i.pg).testBit k && (x.pred e.i.vsa).testBit k)

/-- A predicate operation; the count and the first set bit go to an x register. Where no bit is set the spec states no index
(assumption 1). -/
def State.vpred (s : State) (t : Nat) (e : VEntry) (op : PredOp) : State :=
  let x := (s.tile t).lvu
  match op with
  | .count => s.setX t e.i.vd (BitVec.ofNat 64 (vpredBits x e).length)
  | .first => s.setX t e.i.vd (BitVec.ofNat 64 ((vpredBits x e).headD (freeValue s.freeCtr 14 1)))
  | _ => s.onLvu t (fun x => vpredPut x e op)

/-! ### Memory instructions (R109 to R114) -/

/-- The address of element `k`. -/
def elemVa (x : Lvu) (e : VEntry) (m : VMode) (k : Nat) : U64 :=
  e.xa + (match m with
    | .strided => BitVec.ofNat 64 (k * e.xb.toNat)
    | .indexed => BitVec.ofNat 64 (elemOf (x.vreg e.i.vsb) x.sew k)
    | _ => BitVec.ofNat 64 (k * (x.sew / 8)))

/-- The occupancy of a memory instruction from element `cur` on (Table 4.8) and the charge of its line requests. Elements that
meet on a bank of the Pocket add cycles; which ones meet the spec does not state (assumption 1). -/
def State.vmemCost (s : State) (t : Nat) (e : VEntry) (m : VMode) (write : Bool) (cur : Nat) : Nat × Nat :=
  let x := (s.tile t).lvu
  let n := x.sew / 8
  let act := (List.range x.len).filter (fun k => decide (cur ≤ k) && (x.pred e.i.pg).testBit k)
  let pk := act.filter (fun k => pocketWindow (vaOf (elemVa x e m k)))
  let far := act.filter (fun k => !pocketWindow (vaOf (elemVa x e m k)))
  let unit_ := decide (m = .unit) || decide (m = .faultFirst)
  let groups := (List.range 32).map (fun g => far.filter (fun k => unit_ || decide (k / 32 = g)))
  let groups := if unit_ then groups.take 1 else groups
  let lines := groups.flatMap (fun l => linesTouched n (l.map (fun k => (elemVa x e m k).toNat)))
  let rows := ((List.range 32).filter (fun g => pk.any (fun k => decide (k / 32 = g)))).length
  let occ := if unit_ then (pk.length * n + 1023) / 1024 + (far.length * n + 255) / 256
    else rows + freePick s.freeCtr 15 0 (pk.length - rows + 1) + (lines.length + 3) / 4
  (Nat.max 1 occ, s.linesCharge t .lvu e.tctx e.kernel (if write then .write else .read) lines)

/-- VCAUSE of a fault (R113, R297). -/
def vcauseOf : Side → Nat
  | .page => 1
  | .uncorr => 3
  | .window _ => 4
  | _ => 2

/-- A fault on the element under way (R113, R114). -/
def State.vfault (s : State) (t : Nat) (e : VEntry) (cause : Nat) (va : U64) : State :=
  let x := (s.tile t).lvu
  if e.i.kind = .load .faultFirst ∧ 0 < x.cur then s.onLvu t (fun x => { x.pop with vl := BitVec.ofNat 16 x.cur, released := false })
  else
    (s.onLvu t (fun x => { x with
      vepc := e.pc, vstart := BitVec.ofNat 16 x.cur, vcause := BitVec.ofNat 8 cause, vaddr := va, faulted := true, begun := false, part := 0, buf := [], waiting := false, asked := 0, rev := false })).coreEvent t .vectorFault

/-- An element's bytes have all been moved. -/
def Lvu.endElem (x : Lvu) (e : VEntry) : Lvu :=
  let w := x.sew
  let y := match e.i.kind with
    | .load _ => (x.setV e.i.vd (elemSet (x.vreg e.i.vd) w x.cur (leNat x.buf))).alive true
    | _ => x
  { y with cur := x.cur + 1, part := 0, buf := [], rev := false }

/-- `n` bytes of the element under way have been moved. -/
def Lvu.moved (x : Lvu) (e : VEntry) (n : Nat) (b : Bytes) : Lvu :=
  let y := { x with part := x.part + n, buf := x.buf ++ b, waiting := false, asked := 0 }
  if x.sew / 8 ≤ y.part then y.endElem e else y

/-- The elements of a memory instruction in order, until it ends, faults, or waits for an answer (`fuel` bounds the steps). -/
def State.vmemGo (s : State) (t : Nat) (e : VEntry) (m : VMode) (write : Bool) : Nat → State
  | 0 => s
  | fuel + 1 =>
    let x := (s.tile t).lvu
    let k := x.cur
    let w := x.sew
    if x.len ≤ k then s.onLvu t Lvu.pop
    else if !(x.pred e.i.pg).testBit k then
      let s := s.onLvu t (fun x => { (if e.i.z && !write then (x.setV e.i.vd (elemSet (x.vreg e.i.vd) w k 0)).alive true else x) with cur := k + 1 })
      s.vmemGo t e m write fuel
    else
      let va := elemVa x e m k
      let kind : XKind := if write then .write else .read
      match (if x.part = 0 then s.accessFault t .lvu e.tctx e.kernel kind va (w / 8) else none) with
      | some (.walk a, _, _) => s.askEntry t a
      | some (f, a, s) => s.vfault t e (vcauseOf f) a
      | none =>
        let p := s.partPlan t .lvu e.tctx e.kernel kind va (w / 8) x.part x.rev
        let n := p.2.1
        let at_ := va + BitVec.ofNat 64 p.1
        let data := (natLe (w / 8) (elemOf (x.vreg e.i.vd) w k)).drop p.1
        match s.piece t (.lvu t) .lvu e.tctx e.kernel write at_ n (data.take n) with
        | .wait u => s.asks u
        | .fault f s => s.vfault t e (vcauseOf f) at_
        | .sent s => s.onLvu t (fun x => { x with waiting := true, asked := n, rev := p.2.2 })
        | .got b s => (s.onLvu t (fun x => { x with rev := p.2.2 }.moved e n b)).vmemGo t e m write fuel

def vmemFuel : Nat := 3000

/-- A vector load or store at the head: charged and counted when it begins, and again when VRESUME has begun it again (DESIGN CHOICE,
assumption 72); it goes on with each command until it is done.
It begins after every older scalar store has been performed (R112). -/
def State.vmem (s : State) (t : Nat) (write : Bool) (m : VMode) : State :=
  match s.vhead t with
  | none => s
  | some e =>
    if e.i.kind ≠ (if write then .store m else .load m) then s
    else
      let x := (s.tile t).lvu
      if x.waiting ∨ (s.tile t).core.storeQ ≠ [] then s
      else if x.begun then (s.vmemGo t e m write vmemFuel).tick1
      else
        let c := s.vmemCost t e m write x.cur
        match s.charge t .vector (2 * c.1) with
        | (false, s') => s'.tick1
        | (true, s') =>
          match s'.charge t .memory c.2 with
          | (false, _) => s.tick1
          | (true, s') => ((s'.onLvu t (fun x => { x.count 0 1 with begun := true })).vmemGo t e m write vmemFuel).tick1

/-- The answer to an element's access (R297, R350): its data or acknowledgement, or a failure with its VCAUSE. -/
def State.vAnswer (s : State) (t : Nat) (b : Option Bytes) (cause : Nat) : State :=
  match (s.tile t).lvu.queue with
  | [] => s
  | e :: _ =>
    let x := (s.tile t).lvu
    if !x.waiting then s
    else
      let go := fun (m : VMode) (write : Bool) =>
        let at_ := elemVa x e m x.cur + BitVec.ofNat 64 (partOffset (x.sew / 8) x.part x.asked x.rev)
        match b with
        | none => s.vfault t e cause at_
        | some b =>
          let s := s.onLvu t (fun x => x.moved e x.asked b)
          if (s.vhead t).isSome then s.vmemGo t e m write vmemFuel else s
      match e.i.kind with
      | .load m => go m false
      | .store m => go m true
      | _ => s

/-! ### Staging buffers (R115) -/

def stagingIdx (pair sb : Nat) : Nat := 2 * pair + sb

def State.stagingFull (s : State) (t b : Nat) : Bool := (tabGet ({} : Staging) (s.tile t).eng.staging b).full

/-- A register sent to a free staging buffer, which is FULL from then on; its Gate is counted. The data and the count reach the
array island together (R79). -/
def State.fillStaging (s : State) (t b gate : Nat) (v : BitVec 8192) : State :=
  (s.onTile t (fun x => { x with eng := { x.eng with
    staging := tabSet ({} : Staging) x.eng.staging b { tabGet ({} : Staging) x.eng.staging b with full := true } } })).stage t b gate (natLe 1024 v.toNat)

/-! ### Power (R116) -/

/-- The LVU is idle. -/
def State.lvuIdle (s : State) (t : Nat) : Bool :=
  s.vectorIdle t && (s.tile t).grp.resident.isEmpty && (s.tile t).grp.queue.isEmpty

/-- Something needs the vector island. -/
def State.lvuWanted (s : State) (t : Nat) : Bool :=
  !(s.tile t).lvu.queue.isEmpty || (s.tile t).lvu.sending.isSome || !(s.tile t).grp.queue.isEmpty || !(s.tile t).grp.resident.isEmpty

/-- The register files of a cold island read as zero afterwards; nothing of the fault record can be observed. -/
def Lvu.cold (x : Lvu) (n : Nat) : Lvu :=
  { x with v := [], p := [], vl := 0, vtype := 0, vcsr := 0, power := .cold
           vepc := BitVec.ofNat 64 (freeValue n 16 0), vstart := BitVec.ofNat 16 (freeValue n 16 1)
           vcause := BitVec.ofNat 8 (freeValue n 16 2), vaddr := BitVec.ofNat 64 (freeValue n 16 3) }

end Sys2Proof.Machine
end

