-- ==== Sys2Proof/Machine/Words.lean ====
section
/-!
DEFINITION. Machine/Words.lean: the encodings that the spec gives for the C-core's 32-bit words (R66 to R68, R101, R102, R104, R110,
R196, R275, R294) and for the 64-bit words of group programs (R202). The table's commands name the instruction that a core or a
group has fetched (assumption 9); these functions say what that word is, and what an unassigned word does at commit.
-/
namespace Sys2Proof.Machine
open Sys2Proof

/-! ### Core words -/

/-- What a 32-bit word is. `reference` is a word of a group whose encodings stand in the separate reference (Tables 3.3, 4.3). -/
inductive CoreWord where
  | illegal
  | reference (op : Nat)
  | elaunch (rd ra rb : Fin 32) | estat (rd ra : Fin 32) | ewait (rd ra : Fin 32) | estop (ra : Fin 32)
  | iflush | bflush | fence (pred succ : Fin 16)
  | vsync | vresume
  | vector (i : VInstr)
  | glaunch (rd ra : Fin 32) | gstat (rd ra : Fin 32) | gjoin (rd ra : Fin 32) | gkill (ra : Fin 32)
  | greplay (ra rb : Fin 32) | gparkrd (rd ra rb : Fin 32) | garea (rd ra : Fin 32)
  | tinva (ra rb : Fin 32) | tinvs (rb : Fin 32) | tinvd | tsync
  | atomic (op : AtomOp) (size : Nat) (acquire release : Bool) (rd ra rb : Fin 32)
  deriving DecidableEq, Repr

def fin5 (n : Nat) : Fin 32 := Fin.ofNat 32 n

/-- The fields of the register format (R66). -/
def wordOp (w : Nat) : Nat := field w 31 26
def wordD (w : Nat) : Fin 32 := fin5 (field w 25 21)
def wordA (w : Nat) : Fin 32 := fin5 (field w 20 16)
def wordB (w : Nat) : Fin 32 := fin5 (field w 15 11)
def wordF (w : Nat) : Nat := field w 10 0

/-- Table 3.4, OP 0x3E. -/
def engineWord (w : Nat) : CoreWord :=
  match wordF w with
  | 0x001 => .elaunch (wordD w) (wordA w) (wordB w)
  | 0x002 => .estat (wordD w) (wordA w)
  | 0x003 => .ewait (wordD w) (wordA w)
  | 0x004 => .estop (wordA w)
  | 0x010 => .iflush
  | 0x011 => .bflush
  | f => if f / 256 = 4 then .fence (Fin.ofNat 16 (field f 7 4)) (Fin.ofNat 16 (field f 3 0)) else .illegal

/-- A vector instruction of the register format of R66, with no predicate. -/
def plainVector (k : VKind) (d a : Fin 32) : CoreWord := .vector ⟨k, d, a, 0, 0, false, false⟩

/-- Table 4.4, OP 0x2C. A VSEND whose bits [25:24] are not the zeros of the table is an encoding that is not assigned (DEDUCED,
assumption 9). -/
def configWord (w : Nat) : CoreWord :=
  let f := wordF w
  if f < 4 then plainVector (.setvl (Fin.ofNat 4 f)) (wordD w) (wordA w)
  else if f = 0x010 then .vsync
  else if f = 0x011 then .vresume
  else if f = 0x012 then plainVector .vrelease 0 0
  else if f = 0x020 then plainVector .vcsrr (wordD w) 0
  else if f = 0x021 then plainVector .vcsrw 0 (wordA w)
  else if f / 64 = 1 ∧ field w 25 24 = 0 then
    plainVector (.vsend (Fin.ofNat 2 (field w 23 23)) (Fin.ofNat 4 (field w 22 21)) (Fin.ofNat 64 f)) 0 (wordA w)
  else .illegal

/-- R101's layout: the instruction of a kind. Bits that R110 reserves, [3:0] of a load or a store and Z of a store, are ignored, as reserved
bits of registers and memory structures are by R11 (DESIGN CHOICE, assumption 86). -/
def vectorWord (k : VKind) (w : Nat) : CoreWord :=
  .vector ⟨k, wordD w, wordA w, wordB w, Fin.ofNat 16 (field w 10 7), bit w 6, false⟩

/-- MODE (R110). -/
def vmodeOf : Nat → VMode
  | 0 => .unit
  | 1 => .strided
  | 2 => .indexed
  | _ => .faultFirst

/-- Table 8.2, OP 0x34. -/
def groupCtlWord (w : Nat) : CoreWord :=
  match wordF w with
  | 0x001 => .glaunch (wordD w) (wordA w)
  | 0x002 => .gstat (wordD w) (wordA w)
  | 0x003 => .gjoin (wordD w) (wordA w)
  | 0x004 => .gkill (wordA w)
  | 0x005 => .greplay (wordA w) (wordB w)
  | 0x006 => .gparkrd (wordD w) (wordA w) (wordB w)
  | 0x010 => .garea (wordD w) (wordA w)
  | _ => .illegal

/-- Table 11.8, OP 0x38; the other FUNCs of the system group stand in the separate reference. -/
def systemWord (w : Nat) : CoreWord :=
  match wordF w with
  | 0x100 => .tinva (wordA w) (wordB w)
  | 0x101 => .tinvs (wordB w)
  | 0x102 => .tinvd
  | 0x103 => .tsync
  | _ => .reference 0x38

/-- Table 12.7: FUNC[3] is release and FUNC[2] acquire; CAS128 needs even pairs. -/
def atomicWord (w : Nat) : CoreWord :=
  match atomOf w with
  | none => .illegal
  | some (o, n) =>
    if n = 16 ∧ ((wordD w).val % 2 = 1 ∨ (wordB w).val % 2 = 1) then .illegal
    else .atomic o n (bit w 2) (bit w 3) (wordD w) (wordA w) (wordB w)

/-- What a word is by its major opcode (Table 3.3, Table 4.3, R196). -/
def coreWord (w : Nat) : CoreWord :=
  let op := wordOp w
  if op < 0x20 then .reference op
  else if op < 0x24 then atomicWord w
  else if op < 0x2C then .reference op
  else match op with
    | 0x2C => configWord w
    | 0x2D => if field w 5 0 < 0x30 then .reference op else .illegal
    | 0x2E => if field w 5 0 < 0x10 then vectorWord (.fx (Fin.ofNat 64 (field w 5 0))) w else .illegal
    | 0x2F => if field w 5 0 < 0x3C then .reference op else .illegal
    | 0x30 => .vector ⟨.vfop (bit w 6) (bit w 5) (Fin.ofNat 32 (field w 4 0)), wordD w, wordA w, wordB w, Fin.ofNat 16 (field w 10 7), false, false⟩
    | 0x31 => if field w 5 0 < 0x10 then .reference op else .illegal
    | 0x32 => vectorWord (.load (vmodeOf (field w 5 4))) w
    | 0x33 => if field w 5 4 = 3 then .illegal else vectorWord (.store (vmodeOf (field w 5 4))) w
    | 0x34 => groupCtlWord w
    | 0x38 => systemWord w
    | 0x3E => engineWord w
    | _ => if 0x39 ≤ op ∧ op ≤ 0x3D then .reference op else .illegal

/-- A word reaches commit: one that is not assigned raises illegal-instruction (R66); what an assigned one does is its command's
effect. -/
def State.commitWord (s : State) (t : Nat) (w : BitVec 32) : State :=
  if coreWord w.toNat = .illegal then s.trap t .illegal else s

/-- A word of the register format. -/
def regWord (op : Nat) (d a b : Fin 32) (f : Nat) : Nat := op * 2 ^ 26 + d.val * 2 ^ 21 + a.val * 2 ^ 16 + b.val * 2 ^ 11 + f

/-- The word of an instruction, with every field that it does not use zero; none where its encoding stands in the separate
reference. -/
def CoreWord.word : CoreWord → Option Nat
  | .illegal => none
  | .reference _ => none
  | .elaunch d a b => some (regWord 0x3E d a b 1)
  | .estat d a => some (regWord 0x3E d a 0 2)
  | .ewait d a => some (regWord 0x3E d a 0 3)
  | .estop a => some (regWord 0x3E 0 a 0 4)
  | .iflush => some (regWord 0x3E 0 0 0 0x10)
  | .bflush => some (regWord 0x3E 0 0 0 0x11)
  | .fence p q => some (regWord 0x3E 0 0 0 (0x400 + 16 * p.val + q.val))
  | .vsync => some (regWord 0x2C 0 0 0 0x10)
  | .vresume => some (regWord 0x2C 0 0 0 0x11)
  | .vector i =>
    match i.kind with
    | .setvl sew => some (regWord 0x2C i.vd i.vsa 0 sew.val)
    | .vrelease => some (regWord 0x2C 0 0 0 0x12)
    | .vcsrr => some (regWord 0x2C i.vd 0 0 0x20)
    | .vcsrw => some (regWord 0x2C 0 i.vsa 0 0x21)
    | .vsend sb pair gate => some (regWord 0x2C (fin5 (4 * sb.val + pair.val)) i.vsa 0 (0x40 + gate.val))
    | _ => none
  | .glaunch d a => some (regWord 0x34 d a 0 1)
  | .gstat d a => some (regWord 0x34 d a 0 2)
  | .gjoin d a => some (regWord 0x34 d a 0 3)
  | .gkill a => some (regWord 0x34 0 a 0 4)
  | .greplay a b => some (regWord 0x34 0 a b 5)
  | .gparkrd d a b => some (regWord 0x34 d a b 6)
  | .garea d a => some (regWord 0x34 d a 0 0x10)
  | .tinva a b => some (regWord 0x38 0 a b 0x100)
  | .tinvs b => some (regWord 0x38 0 0 b 0x101)
  | .tinvd => some (regWord 0x38 0 0 0 0x102)
  | .tsync => some (regWord 0x38 0 0 0 0x103)
  | .atomic o n acq rel d a b => some (regWord 0 d a b (4 * flag acq + 8 * flag rel) + atomWord o n)

/-- An instruction that has a word in the spec, with the fields that it does not use zero. -/
def CoreWord.wf : CoreWord → Bool
  | .illegal => false
  | .reference _ => false
  | .vector i =>
    match i.kind with
    | .setvl _ => decide (CoreWord.vector i = plainVector i.kind i.vd i.vsa)
    | .vrelease => decide (CoreWord.vector i = plainVector i.kind 0 0)
    | .vcsrr => decide (CoreWord.vector i = plainVector i.kind i.vd 0)
    | .vcsrw => decide (CoreWord.vector i = plainVector i.kind 0 i.vsa)
    | .vsend _ _ _ => decide (CoreWord.vector i = plainVector i.kind 0 i.vsa)
    | _ => false
  | .atomic o n _ _ d _ b =>
    if o = .cas ∧ n = 16 then decide (d.val % 2 = 0) && decide (b.val % 2 = 0) else decide (n = 4) || decide (n = 8)
  | _ => true

/-! ### Group words -/

/-- What a 64-bit word of a group program is: the classes of R202. `arithmetic` and `memory` are words of classes 0x35 and 0x36,
whose function codes stand in the separate reference. -/
inductive GroupWord where
  | illegal
  | arithmetic (fn : Nat) (rd ra rb rc : GReg) (imm : Nat)
  | memory (fn : Nat) (rd ra rb rc : GReg) (imm : Nat)
  | gbra (imm : Nat) | gbrc (ra : GReg) (imm : Nat) | gmark (imm : Nat) | gsync | spin | gbar | bbar | gexit | gtrap
  | gwaitg (rb : GReg) (imm : Nat) | gwaitgd (rb : GReg) (imm : Nat)
  | gshfl (rd ra rb : GReg) | gvote (rd ra : GReg) | gred (rd ra : GReg) (imm : Nat) | gmma (rd ra rb rc : GReg)
  deriving DecidableEq, Repr

def gword (w hi lo : Nat) : GReg := Fin.ofNat 256 (field w hi lo)

/-- What a word is by its OP and FN (R202, Table 8.5). -/
def groupWord (w : Nat) : GroupWord :=
  let rd := gword w 57 50
  let ra := gword w 49 42
  let rb := gword w 41 34
  let rc := gword w 33 26
  let fn := field w 25 16
  let imm := field w 15 0
  match field w 63 58 with
  | 0x35 => .arithmetic fn rd ra rb rc imm
  | 0x36 => .memory fn rd ra rb rc imm
  | 0x37 =>
    match fn with
    | 0x000 => .gbra imm
    | 0x001 => .gbrc ra imm
    | 0x002 => .gmark imm
    | 0x003 => .gsync
    | 0x004 => .spin
    | 0x005 => .gbar
    | 0x006 => .bbar
    | 0x007 => .gexit
    | 0x008 => .gtrap
    | 0x009 => .gwaitg rb imm
    | 0x00A => .gwaitgd rb imm
    | 0x010 => .gshfl rd ra rb
    | 0x011 => .gvote rd ra
    | 0x012 => .gred rd ra imm
    | 0x020 => .gmma rd ra rb rc
    | _ => .illegal
  | _ => .illegal

end Sys2Proof.Machine
end

