-- ==== Sys2Proof/Decode.lean ====
section
/-!
DEFINITION. Decode.lean: the commands that words spell. No row of spec/opcode_table.json gives bits; the words decoded here are those of
the device's own programs whose encodings the spec gives (assumption 9): a 32-bit word of a C-core (R66 to R68, R101, R102, R110, R196,
R275, R294) and a 64-bit word of a group (R202). A word names no tile, privilege or group slot; it is read for tile 0, at kernel
privilege, in slot 0.
-/
namespace Sys2Proof
open Sys2Proof.Machine

/-- A function code that Table 12.7 does not list: what an unassigned word of a C-core does is what an AMO with it does, an
illegal-instruction exception at commit (R66). -/
def noFunc : BitVec 11 := 0x7FF

/-- FUNC of an atomic. -/
def atomFunc (w : Nat) : BitVec 11 := BitVec.ofNat 11 (wordF w)

/-- The command of an atomic's word, by its major opcode (Table 12.7). -/
def atomCommand (w : Nat) : Instr :=
  match wordOp w with
  | 0x20 => .amoRmw 0 false (atomFunc w) (wordD w) (wordA w) (wordB w)
  | 0x21 => .cas 0 false (atomFunc w) (wordD w) (wordA w) (wordB w)
  | 0x22 => .cas128 0 false (atomFunc w) (wordD w) (wordA w) (wordB w)
  | _ => .amoFp 0 false (atomFunc w) (wordD w) (wordA w) (wordB w)

/-- The command of a 32-bit word: none where its encoding stands in the separate reference. -/
def coreCommand (w : Nat) : Option Instr :=
  match coreWord w with
  | .illegal => some (.amoRmw 0 false noFunc 0 0 0)
  | .reference _ => none
  | .elaunch d a b => some (.elaunch 0 false d a b)
  | .estat d a => some (.estat 0 d a)
  | .ewait d a => some (.ewait 0 d a)
  | .estop a => some (.estop 0 a)
  | .iflush => some (.iflush 0)
  | .bflush => some (.bflush 0)
  | .fence p q => some (.fence 0 (BitVec.ofNat 4 p.val) (BitVec.ofNat 4 q.val))
  | .vsync => some (.vsync 0)
  | .vresume => some (.vresume 0)
  | .vector i => some (.vectorQueueSend 0 false 0 i)
  | .glaunch d a => some (.glaunch 0 false d a)
  | .gstat d a => some (.gstat 0 d a)
  | .gjoin d a => some (.gjoin 0 d a)
  | .gkill a => some (.gkill 0 a)
  | .greplay a b => some (.greplay 0 a b)
  | .gparkrd d a b => some (.gparkrd 0 d a b)
  | .garea d a => some (.garea 0 d a)
  | .tinva a b => some (.tinva 0 false a b)
  | .tinvs b => some (.tinvs 0 false b)
  | .tinvd => some (.tinvd 0 false)
  | .tsync => some (.tsync 0 false)
  | .atomic _ _ _ _ _ _ _ => some (atomCommand w)

/-- The command of a 64-bit word of a group: a reserved word parks the group with ILLEGAL (R202); none where a function code, or the format
of a GMMA, stands in the separate reference. -/
def groupCommand (w : Nat) : Option Instr :=
  match groupWord w with
  | .illegal => some (.groupArith 0 0 (.reserved (Fin.ofNat 64 (field w 63 58)) (Fin.ofNat 1024 (field w 25 16))) 0 0 0 0)
  | .arithmetic _ _ _ _ _ _ => none
  | .memory _ _ _ _ _ _ => none
  | .gbra i => some (.gbra 0 0 (BitVec.ofNat 16 i))
  | .gbrc a i => some (.gbrc 0 0 a (BitVec.ofNat 16 i))
  | .gmark i => some (.gmark 0 0 (BitVec.ofNat 16 i))
  | .gsync => some (.gsync 0 0)
  | .spin => some (.spin 0 0)
  | .gbar => some (.gbar 0 0)
  | .bbar => some (.bbar 0 0)
  | .gexit => some (.gexit 0 0)
  | .gtrap => some (.gtrap 0 0)
  | .gwaitg b i => some (.gwaitg 0 0 b (BitVec.ofNat 16 i))
  | .gwaitgd b i => some (.gwaitgd 0 0 b (BitVec.ofNat 16 i))
  | .gshfl d a b => some (.gshfl 0 0 d a b)
  | .gvote d a => some (.gvote 0 0 d a)
  | .gred d a i => some (.gred 0 0 d a (BitVec.ofNat 16 i))
  | .gmma _ _ _ _ => none

/-- The command that a word of `nbits` bits spells. -/
def decodeTableWord (nbits w : Nat) : Option Instr :=
  match nbits with
  | 32 => coreCommand w
  | 64 => groupCommand w
  | _ => none

end Sys2Proof
end

