-- ==== Sys2Proof/Machine/DictBase.lean ====
section
/-!
DEFINITION. Machine/DictBase.lean: what the dictionary checks before it stores a value (17 R379 to R387, R394): access codes,
tile scope, device conditions, HOLD, and clamping.
-/
namespace Sys2Proof.Machine
open Sys2Proof

/-- The status codes of Table 17.5. -/
def stOk : Nat := 0
def stClamped : Nat := 1
def stIgnored : Nat := 2
def stHeld : Nat := 3
def stDenied : Nat := 4
def stNoObj : Nat := 5
def stShort : Nat := 6
def stBufFault : Nat := 7
def stRefused : Nat := 8
def stUncorr : Nat := 9
def stBadOp : Nat := 10

/-- The access code of a row for a principal: 0 none, 1 r, 2 w, 3 rw (R383, Table 17.7). -/
def ObjRow.code (r : ObjRow) : Principal → Nat
  | .h => field r.acc 1 0
  | .m => field r.acc 3 2
  | .c _ => field r.acc 5 4
  | .s => field r.acc 7 6
  | .f => field r.acc 9 8

def ObjRow.tileScoped (r : ObjRow) : Bool := bit r.flags 0
def ObjRow.held (r : ObjRow) : Bool := bit r.flags 2

/-- The access code that applies now (R380, R383): of a tile-scoped object by the owner of the tile; F has access only after
an unlock has taken effect (R378). -/
def State.code (s : State) (p : Principal) (r : ObjRow) (sub : Nat) : Nat :=
  if p = .f ∧ s.unlock.scope = 0 then 0
  else if r.tileScoped then
    let k := s.tag (sub - 1)
    match p with
    | .c j => if k ≠ 0 ∧ j = k then r.code p else 0
    | .s => r.code p
    | _ => if k = 0 then r.code p else 0
  else r.code p

/-- C reaches only the entries of its own Cloak's group in the reduction and group tables (R340); an unused reduction entry is
open to it. -/
def State.ownEntry (s : State) (p : Principal) (idx sub : Nat) : Bool :=
  match p with
  | .c k =>
    if idx = 0x1C30 then decide (s.obj 0x1C30 sub = 0) || decide ((s.cloak k).group = some (BitVec.ofNat 16 (field (s.obj 0x1C30 sub) 65 50)))
    else if idx = 0x1C40 then decide (sub = k) && (s.cloak k).group.isSome
    else true
  | _ => true

/-- The reduction entries that a principal may write over (R340): H those of GROUP 0, C its group's and free ones; both a badly configured
one, which binds nothing. -/
def State.mayTake (s : State) (p : Principal) (idx sub : Nat) : Bool :=
  let e := s.obj idx sub
  if idx = 0x1C30 ∧ field e 35 33 = 4 then true
  else s.ownEntry p idx sub && (decide (idx ≠ 0x1C30) || (match p with | .h => decide (field e 65 50 = 0) | _ => true))

def mayRead (c : Nat) : Bool := decide (c = 1 ∨ c = 3)
def mayWrite (c : Nat) : Bool := decide (c = 2 ∨ c = 3)

/-- The main rails are up (R385, R439). -/
def State.mainUp (s : State) : Bool := decide (s.boot.rails = 8)

/-- Indices that are served in full with the main rails off (R385). -/
def servedOff (idx : Nat) : Bool :=
  decide (idx ≤ 4) || (decide (0x1F00 ≤ idx) && decide (idx ≤ 0x1F03)) || (decide (0x2000 ≤ idx) && decide (idx ≤ 0x2305))

/-- Indices that are written in Snowplough (R385). -/
def writtenSnow (idx : Nat) : Bool :=
  decide (idx ≤ 4) || (decide (0x1C00 ≤ idx) && decide (idx ≤ 0x1C03)) || (decide (0x1D00 ≤ idx) && decide (idx ≤ 0x1D1F))
    || (decide (0x1F00 ≤ idx) && decide (idx ≤ 0x1F03)) || (decide (0x2000 ≤ idx) && decide (idx ≤ 0x2305))

/-- The device conditions that make a write IGNORED (R385). -/
def State.ignoresWrites (s : State) (r : ObjRow) (idx : Nat) : Bool :=
  (!s.mainUp && !(decide (r.persist = 1) || servedOff idx)) || (decide (s.boot.st = .snowplough) && !writtenSnow idx)

/-- The check of a write before its object's own rules: 0 where it passes, otherwise its status (R379, R383, R385, R394). -/
def State.writeCheck (s : State) (p : Principal) (idx sub : Nat) : Nat :=
  match catRow idx sub with
  | none => if sub = 0 ∧ (catHighest idx).isSome then stDenied else stNoObj
  | some r =>
    if !mayWrite (s.code p r sub) || !s.mayTake p idx sub then stDenied
    else if s.ignoresWrites r idx then stIgnored
    else if r.held && decide (p = .h) && kvGet false s.dict.hold (pairOf idx sub) then stHeld
    else 0

/-- A write by M or F that stores a value sets HOLD on an M-held object (R394). -/
def State.setHold (s : State) (p : Principal) (idx sub : Nat) : State :=
  match catRow idx sub with
  | some r =>
    if r.held && (decide (p = .m) || decide (p = .f)) then { s with dict := { s.dict with hold := kvSet false s.dict.hold (pairOf idx sub) true } }
    else s
  | none => s

/-- A value brought into the range of its row (Table 17.1): any nonzero bool is 1; a number is clamped. -/
def ObjRow.clamp (r : ObjRow) (v : Nat) : Nat :=
  match r.ty with
  | .bool => if v = 0 then 0 else 1
  | _ => clampNat r.lo.toNat r.hi.toNat v

/-! ### Counting operations (R397) -/

/-- An operation of H, M or F counted with its outcome (objects 0x0002). -/
def State.countOp (s : State) (p : Principal) (st : Nat) (write : Bool) : State :=
  let bad := decide (st = stDenied ∨ st = stHeld ∨ st = stNoObj)
  let clamp := fun (s : State) => if write ∧ st = stClamped then s.bump 0x0002 6 1 else s
  match p with
  | .h => clamp (let s := s.bump 0x0002 1 1; if bad then s.bump 0x0002 4 1 else s)
  | .m => clamp (let s := s.bump 0x0002 2 1; if bad then s.bump 0x0002 5 1 else s)
  | .f => s.bump 0x0002 3 1
  | _ => s

/-- An operation of a source was served: every other mailbox slot that waits has seen it (R427). -/
def MSlot.saw (x : MSlot) : MSlot := if x.busy.isSome then { x with seen := Nat.min (x.seen + 1) 8 } else x

/-- Slot `n` is the source's own; 66 is none. -/
def State.otherServed (s : State) (n : Nat) : State :=
  { s with dict := { s.dict with slots := (s.dict.slots.zip (List.range s.dict.slots.length)).map (fun (p : MSlot × Nat) => if p.2 = n then p.1 else p.1.saw) } }

/-- The engine runs (R385, R441). -/
def State.dictRuns (s : State) : Bool := s.boot.aonOk && !s.boot.dead

/-- The engine takes an operation (R392): it serves no other one, whose buffer in host memory it awaits. -/
def State.dictFree (s : State) : Bool := s.dictRuns && s.dict.xfer.isNone

/-- One write of an object that has a command of its own, as an operation of the engine (R386, R392, R397): it is counted with its
status, and every mailbox slot that waits has seen it. `clamped` says that the value stored differs from the one written. -/
def State.operated (s : State) (p : Principal) (idx sub : Nat) (clamped : Bool) (f : State → State) : State :=
  if s.dictFree then
    let st := s.writeCheck p idx sub
    f ((s.countOp p (if st = 0 ∧ clamped then stClamped else st) true).otherServed 66)
  else s

/-- One read of an object as an operation of the engine (R392, R397), counted with its status. -/
def State.countedRead (s : State) (p : Principal) (idx sub : Nat) : State :=
  let ok := match catRow idx sub with | some r => mayRead (s.code p r sub) | none => false
  (s.countOp p (if ok then stOk else stDenied) false).otherServed 66

/-- A write of a numeric object with an effect of its own: done when the write passes its checks. -/
def State.guarded (s : State) (p : Principal) (idx sub : Nat) (f : State → State) : State :=
  if s.writeCheck p idx sub = 0 then (f s).setHold p idx sub else s

end Sys2Proof.Machine
end

