-- ==== Sys2Proof/Machine/Figures.lean ====
section
/-!
DEFINITION. Machine/Figures.lean: measured values, and the figures that principals read while coarsening is active (02 R55 to
R59; 20 R448).
-/
namespace Sys2Proof.Machine
open Sys2Proof

/-! ### Figures while coarsening is active (R56 to R59) -/

def Coarse.add (c : Coarse) (pair : Nat) (v : Int) : Coarse :=
  if !c.active then c
  else
    let o := kvGet ((0 : Int), 0) c.sums pair
    { c with sums := kvSet ((0 : Int), 0) c.sums pair (o.1 + v, o.2 + 1) }

def Coarse.peak (c : Coarse) (pair v : Nat) : Coarse :=
  if !c.active then c else { c with peaks := kvSet 0 c.peaks pair (Nat.max (kvGet 0 c.peaks pair) v) }

def State.onCoarse (s : State) (f : Coarse → Coarse) : State := { s with cloaks := { s.cloaks with coarse := f s.cloaks.coarse } }

/-- A measured value in two's complement of its object's width, and its part in the interval's mean. -/
def State.measure (s : State) (idx sub : Nat) (v : Int) : State :=
  let w := 8 * (match catRow idx sub with | some r => r.ty.size | none => 2)
  (s.setObj idx sub (ofSigned w v)).onCoarse (fun c => c.add (pairOf idx sub) v)

/-- A level: its value and its part in the interval's peak. -/
def State.setLevel (s : State) (idx sub v : Nat) : State := (s.setObj idx sub v).onCoarse (fun c => c.peak (pairOf idx sub) v)

/-- The signed value of an object. -/
def State.objInt (s : State) (idx sub : Nat) : Int :=
  match catRow idx sub with
  | some r => (match r.ty with
    | .i16 => toSigned 16 (s.obj idx sub)
    | .i32 => toSigned 32 (s.obj idx sub)
    | _ => (s.obj idx sub : Int))
  | none => 0

/-- Rounding to the nearest multiple of `q`, ties upward (R56, R473). -/
def roundTo (q : Int) (sum : Int) (n : Nat) : Int := if n = 0 then 0 else (2 * sum + q * n) / (2 * q * n) * q

/-- The figure behind a pair, as it stands now. -/
def State.figure (s : State) (pair : Nat) : Int :=
  if pair / 256 = 0x2207 then ((tabGet 0 s.logs.byClass (pair % 256) : Nat) : Int) else s.objInt (pair / 256) (pair % 256)

/-- Figures shown as they stand now. -/
def State.showNow (s : State) (pairs : List Nat) : State :=
  pairs.foldl (fun (s : State) p => s.onCoarse (fun c => { c with shown := kvSet 0 c.shown p (s.figure p) })) s

/-- The means of an interval shown for the given pairs, which start anew. -/
def Coarse.showMeans (c : Coarse) (q : Int) (pairs : List Nat) : Coarse :=
  pairs.foldl (fun (c : Coarse) p =>
    let o := kvGet ((0 : Int), 0) c.sums p
    if o.2 = 0 then c else { c with shown := kvSet 0 c.shown p (roundTo q o.1 o.2), sums := kvDel c.sums p }) c

def pairsOf (idx lo n : Nat) : List Nat := (rangeFrom lo n).map (fun s => pairOf idx s)

/-- Power figures and voltages (1 s), temperatures (100 ms), levels (100 ms), and the error counts (1 s) that R56 to R59
and R473 name. -/
def powerPairs : List Nat := pairsOf 0x2105 1 3 ++ pairsOf 0x2302 1 8
def voltPairs : List Nat := pairsOf 0x2302 9 10
def tempPairs : List Nat := pairsOf 0x1902 1 8 ++ pairsOf 0x2105 4 2 ++ pairsOf 0x2111 1 192
def levelPairs : List Nat := pairsOf 0x1903 1 8 ++ pairsOf 0x2105 6 2
def countPairs : List Nat :=
  pairsOf 0x1910 1 8 ++ pairsOf 0x1911 1 8 ++ pairsOf 0x1912 1 8 ++ pairsOf 0x1913 1 2 ++ pairsOf 0x1914 1 2
    ++ pairsOf 0x2105 8 2 ++ pairsOf 0x1E11 1 1 ++ pairsOf 0x2207 1 9

/-- An evaluation of an alert cause on a figure (R448): the bit is set when the figure is above its threshold. A thermal alert that begins is
an error of class THERMAL, of the die or the stack `m` (R452, R453; assumption 95). -/
def State.evalAlert (s : State) (b m : Nat) (v : Int) (idx sub : Nat) : State :=
  if (s.obj idx sub : Int) < v then
    (if b ≤ 1 ∧ s.boot.alert.getLsbD b = false then
       s.error { cls := 7, src := if b = 0 then 0x07 else 0x25, munit := BitVec.ofNat 8 m }
     else s).alert b
  else s

/-- While coarsening is not active, bits [0] to [2] are evaluated at each reading. -/
def State.evalNow (s : State) (b m : Nat) (v : Int) (idx sub : Nat) : State :=
  if s.cloaks.coarse.active then s else s.evalAlert b m v idx sub

/-- Every figure that coarsening holds back. -/
def heldPairs : List Nat := powerPairs ++ voltPairs ++ tempPairs ++ levelPairs ++ countPairs

/-- Bit [3]: the uncorrectable errors of the interval that ends (R448). -/
def State.evalUncorr (s : State) : State :=
  let s := if s.obj 0x2203 4 < s.logs.uncorr then s.alert 3 else s
  { s with logs := { s.logs with uncorr := 0, since := s.gov.tick } }

/-- The counters of shared units (R58): they restart from zero when coarsening ends. -/
def sharedCounter (pair : Nat) : Bool :=
  (decide (0x1920 ≤ pair / 256) && decide (pair / 256 ≤ 0x1922)) || (decide (0x1B00 ≤ pair / 256) && decide (pair / 256 ≤ 0x1B03))

/-- A level that is held when an interval begins counts in its peak (R257). -/
def State.peaksNow (s : State) : State :=
  levelPairs.foldl (fun (s : State) p => s.onCoarse (fun c => { c with peaks := kvSet 0 c.peaks p (s.figure p).toNat })) s

/-- Figures shown as they stand now, rounded as a mean is (R56). -/
def State.showRounded (s : State) (q : Int) (pairs : List Nat) : State :=
  pairs.foldl (fun (s : State) p => s.onCoarse (fun c => { c with shown := kvSet 0 c.shown p (roundTo q (s.figure p) 1) })) s

/-- Coarsening begins (R55): until the first interval has ended the figures shown are those that stand at its beginning, power and
temperature rounded as R56 rounds them (DESIGN CHOICE, assumption 54), and the interval of bit [3] under way ends (R448). -/
def State.startCoarse (s : State) : State :=
  if s.cloaks.coarse.active then { s with cloaks := { s.cloaks with coarse := { s.cloaks.coarse with freeAt := none } } }
  else
    { s.evalUncorr with cloaks := { s.cloaks with coarse := { active := true, since := s.gov.tick, sec := s.gov.tick, tenth := s.gov.tick } } }.showNow heldPairs |>.showRounded 5 powerPairs |>.showRounded 5 voltPairs |>.showRounded 1 tempPairs |>.peaksNow

end Sys2Proof.Machine
end

