-- ==== Sys2Proof/Machine/Kem.lean ====
section
/-!
DEFINITION. Kem.lean: ML-KEM-768 (00 R15, Table 0.6; 02 R53), written from the standard that the spec names (FIPS 203), with the hash
functions that it uses (FIPS 202): PRESUMED (assumption 4).
-/
namespace Sys2Proof.Crypto

/-! ### SHA-3 -/

def keccakRounds : List Nat :=
  [0x0000000000000001, 0x0000000000008082, 0x800000000000808a, 0x8000000080008000, 0x000000000000808b, 0x0000000080000001,
   0x8000000080008081, 0x8000000000008009, 0x000000000000008a, 0x0000000000000088, 0x0000000080008009, 0x000000008000000a,
   0x000000008000808b, 0x800000000000008b, 0x8000000000008089, 0x8000000000008003, 0x8000000000008002, 0x8000000000000080,
   0x000000000000800a, 0x800000008000000a, 0x8000000080008081, 0x8000000000008080, 0x0000000080000001, 0x8000000080008008]

/-- The amount that lane x + 5y is rotated by. -/
def laneRotations : List Nat := [0, 1, 62, 28, 27, 36, 44, 6, 55, 20, 3, 10, 43, 25, 39, 41, 45, 15, 21, 8, 18, 2, 61, 56, 14]

def rotl64 (x n : Nat) : Nat := (x <<< n % 2 ^ 64) ||| x >>> (64 - n)

/-- One round of the permutation on 25 lanes. -/
def keccakRound (a : List Nat) (rc : Nat) : List Nat :=
  let c := (List.range 5).map (fun x => (List.range 5).foldl (fun v y => v ^^^ a.getD (x + 5 * y) 0) 0)
  let d := (List.range 5).map (fun x => c.getD ((x + 4) % 5) 0 ^^^ rotl64 (c.getD ((x + 1) % 5) 0) 1)
  let e := (List.range 25).map (fun i => rotl64 (a.getD i 0 ^^^ d.getD (i % 5) 0) (laneRotations.getD i 0))
  let b := fun x y => e.getD ((x + 3 * y) % 5 + 5 * x) 0
  (List.range 25).map (fun i =>
    let v := b (i % 5) (i / 5) ^^^ (2 ^ 64 - 1 - b ((i + 1) % 5) (i / 5)) &&& b ((i + 2) % 5) (i / 5)
    if i = 0 then v ^^^ rc else v)

def keccak (a : List Nat) : List Nat := keccakRounds.foldl keccakRound a

/-- A block absorbed into the state. -/
def absorb (a : List Nat) (b : Bytes) : List Nat :=
  keccak (List.zipWith (· ^^^ ·) a ((blocks 25 8 b).map leNat))

/-- `n` blocks squeezed out of the state. -/
def squeeze (rate : Nat) : Nat → List Nat → Bytes
  | 0, _ => []
  | n + 1, a => (a.flatMap (natLe 8)).take rate ++ squeeze rate n (keccak a)

/-- The sponge: `len` bytes from a message, with the rate and the suffix of one of its functions. -/
def sponge (rate : Nat) (suffix : Byte) (m : Bytes) (len : Nat) : Bytes :=
  let z := rate - 1 - m.length % rate
  let p := if z = 0 then m ++ [suffix ^^^ 0x80] else m ++ suffix :: List.replicate (z - 1) 0 ++ [0x80]
  (squeeze rate ((len + rate - 1) / rate) ((blocks (p.length / rate) rate p).foldl absorb (List.replicate 25 0))).take len

def sha3of256 (m : Bytes) : Bytes := sponge 136 0x06 m 32
def sha3of512 (m : Bytes) : Bytes := sponge 72 0x06 m 64
def shake128 (m : Bytes) (len : Nat) : Bytes := sponge 168 0x1F m len
def shake256 (m : Bytes) (len : Nat) : Bytes := sponge 136 0x1F m len

/-! ### Polynomials: 256 coefficients modulo 3,329 -/

abbrev Poly := List Nat

def kemQ : Nat := 3329

def Poly.plus (a b : Poly) : Poly := List.zipWith (fun x y => (x + y) % kemQ) a b
def Poly.minus (a b : Poly) : Poly := List.zipWith (fun x y => (x + kemQ - y) % kemQ) a b
def Poly.scale (c : Nat) (a : Poly) : Poly := a.map (fun x => c * x % kemQ)

/-- The seven bits of a number in the reverse order. -/
def reverse7 (i : Nat) : Nat := (List.range 7).foldl (fun r b => 2 * r + i / 2 ^ b % 2) 0

/-- A power of the root of unity 17. -/
def zeta (e : Nat) : Nat := 17 ^ (e % 256) % kemQ

/-- The number-theoretic transform: at node `i` of its tree the halves meet under one root. `n` layers are left. -/
def ntt : Nat → Nat → Poly → Poly
  | 0, _, a => a
  | n + 1, i, a =>
    let lo : Poly := a.take (a.length / 2)
    let hi := Poly.scale (zeta (reverse7 i)) (a.drop (a.length / 2))
    ntt n (2 * i) (lo.plus hi) ++ ntt n (2 * i + 1) (lo.minus hi)

/-- Its inverse, without the division by 128. -/
def nttBack : Nat → Nat → Poly → Poly
  | 0, _, a => a
  | n + 1, i, a =>
    let lo := nttBack n (2 * i) (a.take (a.length / 2))
    let hi := nttBack n (2 * i + 1) (a.drop (a.length / 2))
    lo.plus hi ++ Poly.scale (zeta (256 - reverse7 i)) (lo.minus hi)

def toNtt (a : Poly) : Poly := ntt 7 1 a
def fromNtt (a : Poly) : Poly := Poly.scale 3303 (nttBack 7 1 a)

/-- The product of two transforms: pair by pair, modulo X² minus that pair's root. -/
def mulPairs : Nat → Nat → Poly → Poly → Poly
  | 0, _, _, _ => []
  | n + 1, i, a0 :: a1 :: as, b0 :: b1 :: bs =>
    (a0 * b0 + a1 * b1 % kemQ * zeta (2 * reverse7 i + 1)) % kemQ :: (a0 * b1 + a1 * b0) % kemQ :: mulPairs n (i + 1) as bs
  | _, _, _, _ => []

def Poly.times (a b : Poly) : Poly := mulPairs 128 0 a b

/-- The inner product of two vectors of transforms. -/
def dot (a b : List Poly) : Poly := (List.zipWith Poly.times a b).foldl Poly.plus (List.replicate 256 0)

/-! ### Encodings -/

/-- Numbers of `d` bits as bytes. -/
def packBits (d : Nat) (a : Poly) : Bytes := natLe (32 * d) (a.foldr (fun x r => x % 2 ^ d + 2 ^ d * r) 0)

/-- `n` numbers of `d` bits from a number. -/
def unpackFrom (d : Nat) : Nat → Nat → Poly
  | 0, _ => []
  | n + 1, v => v % 2 ^ d :: unpackFrom d n (v / 2 ^ d)

def unpackBits (d : Nat) (b : Bytes) : Poly := unpackFrom d 256 (leNat (b.take (32 * d)))

def compressTo (d : Nat) (a : Poly) : Poly := a.map (fun x => (2 ^ (d + 1) * x + kemQ) / (2 * kemQ) % 2 ^ d)
def decompressFrom (d : Nat) (a : Poly) : Poly := a.map (fun y => (2 * kemQ * y + 2 ^ d) / 2 ^ (d + 1))

/-! ### Sampling -/

/-- The coefficients below the modulus among the 12-bit numbers of a byte string. -/
def acceptFrom : Bytes → Poly
  | a :: b :: c :: r =>
    [a.toNat + 256 * (b.toNat % 16), b.toNat / 16 + 16 * c.toNat].filter (fun x => decide (x < kemQ)) ++ acceptFrom r
  | _ => []

/-- Entry (i, j) of the matrix that a seed gives. The standard lets the length of the stream be bounded; 840 bytes are the least that it
names. -/
def matrixEntry (seed : Bytes) (i j : Nat) : Poly :=
  let a := (acceptFrom (shake128 (seed ++ be 1 j ++ be 1 i) 840)).take 256
  a ++ List.replicate (256 - a.length) 0

/-- A small polynomial: each coefficient is a difference of two sums of two bits. -/
def noisePoly (seed : Bytes) (n : Nat) : Poly :=
  let v := leNat (shake256 (seed ++ be 1 n) 128)
  (List.range 256).map (fun i =>
    let x := v / 2 ^ (4 * i) % 16
    (x % 2 + x / 2 % 2 + kemQ - x / 4 % 2 - x / 8) % kemQ)

/-! ### The public-key encryption and the KEM -/

/-- The keys of the encryption that a 32-byte seed gives: the encryption key and the decryption key. -/
def pkeKeys (d : Bytes) : Bytes × Bytes :=
  let g := sha3of512 (d ++ [3])
  let rho := g.take 32
  let noise := fun n => toNtt (noisePoly (g.drop 32) n)
  let s := (List.range 3).map noise
  let t := (List.range 3).map (fun i => (dot ((List.range 3).map (matrixEntry rho i)) s).plus (noise (3 + i)))
  (t.flatMap (packBits 12) ++ rho, s.flatMap (packBits 12))

/-- The ciphertext of a 32-byte message under an encryption key, with 32 bytes of randomness. -/
def pkeEncrypt (ek m r : Bytes) : Bytes :=
  let t := (blocks 3 384 ek).map (fun b => (unpackBits 12 b).map (· % kemQ))
  let rho := (ek.drop 1152).take 32
  let y := (List.range 3).map (fun n => toNtt (noisePoly r n))
  let u := (List.range 3).map (fun i => (fromNtt (dot ((List.range 3).map (fun j => matrixEntry rho j i)) y)).plus (noisePoly r (3 + i)))
  let v := ((fromNtt (dot t y)).plus (noisePoly r 6)).plus (decompressFrom 1 (unpackBits 1 m))
  u.flatMap (fun p => packBits 10 (compressTo 10 p)) ++ packBits 4 (compressTo 4 v)

/-- The message of a ciphertext. -/
def pkeDecrypt (dk c : Bytes) : Bytes :=
  let s := (blocks 3 384 dk).map (fun b => (unpackBits 12 b).map (· % kemQ))
  let u := (blocks 3 320 c).map (fun b => toNtt (decompressFrom 10 (unpackBits 10 b)))
  let v := decompressFrom 4 (unpackBits 4 (c.drop 960))
  packBits 1 (compressTo 1 (v.minus (fromNtt (dot s u))))

/-- The encapsulation key, 1,184 bytes, of a key pair kept as its 64-byte seed: d, then z. -/
@[irreducible] def kemPublic (seed : Nat) : Bytes := (pkeKeys (be 32 (seed / 2 ^ 256))).1

/-- Decapsulation: the shared secret of a 1,088-byte ciphertext. One that does not match gives a secret of its own. -/
@[irreducible] def kemSecret (seed : Nat) (c : Bytes) : Bytes :=
  let k := pkeKeys (be 32 (seed / 2 ^ 256))
  let m := pkeDecrypt k.2 c
  let g := sha3of512 (m ++ sha3of256 k.1)
  if pkeEncrypt k.1 m (g.drop 32) = c then g.take 32 else shake256 (be 32 seed ++ c) 32

end Sys2Proof.Crypto
end

