-- ==== Sys2Proof/Machine/Hpke.lean ====
section
/-!
DEFINITION. Hpke.lean: the key schedule of HPKE (RFC 9180) in base mode with the suite of 02 R52, and what S writes for a request (R52 to
R54, Table 9.9). The key schedule is written from the standard that the spec names: PRESUMED (assumption 4).
-/
namespace Sys2Proof.Crypto

/-- The suite of R52: KEM 0x0010, KDF 0x0001, AEAD 0x0002. -/
def kemSuite : Bytes := text "KEM" ++ be 2 0x0010
def hpkeSuite : Bytes := text "HPKE" ++ be 2 0x0010 ++ be 2 0x0001 ++ be 2 0x0002

def labeledExtract (suite salt : Bytes) (label : String) (ikm : Bytes) : Bytes :=
  extract fn256 salt (text "HPKE-v1" ++ suite ++ text label ++ ikm)

def labeledExpand (suite prk : Bytes) (label : String) (info : Bytes) (len : Nat) : Bytes :=
  expand fn256 prk (be 2 len ++ text "HPKE-v1" ++ suite ++ text label ++ info) len

/-- What a context of the receiver holds: the key, the base nonce, the exporter secret. -/
structure HpkeContext where
  key : Bytes
  nonce : Bytes
  exporter : Bytes

/-- The shared secret of DHKEM(P-256, HKDF-SHA256) for an encapsulated key. None where it is no point of the curve. -/
def kemShared (priv : Nat) (enc : Bytes) : Option Bytes :=
  (pointOf enc).map (fun q =>
    labeledExpand kemSuite (labeledExtract kemSuite [] "eae_prk" (xOf priv q)) "shared_secret" (enc ++ publicKey priv) 32)

/-- The context of base mode (mode 0, no pre-shared key). -/
def hpkeContext (shared info : Bytes) : HpkeContext :=
  let c := be 1 0 ++ labeledExtract hpkeSuite [] "psk_id_hash" [] ++ labeledExtract hpkeSuite [] "info_hash" info
  let secret := labeledExtract hpkeSuite shared "secret" []
  ⟨labeledExpand hpkeSuite secret "key" c 32, labeledExpand hpkeSuite secret "base_nonce" c 12, labeledExpand hpkeSuite secret "exp" c 32⟩

/-- Export of a context. -/
def HpkeContext.export_ (x : HpkeContext) (label : String) (len : Nat) : Bytes :=
  labeledExpand hpkeSuite x.exporter "sec" (text label) len

/-- The keys and nonces of a request and its response. -/
structure SessionKeys where
  reqKey : Bytes
  reqNonce : Bytes
  rspKey : Bytes
  rspNonce : Bytes

/-- The request is opened with the context, with sequence number 0, whose nonce is the base nonce; the response's key and nonce are
exports (R52). -/
def HpkeContext.plain (x : HpkeContext) : SessionKeys :=
  ⟨x.key, x.nonce, x.export_ "lap96 response key" 32, x.export_ "lap96 response nonce" 12⟩

/-- With the hybrid flag, all four are expanded from *s*, which HKDF-SHA256 extracts with the ML-KEM-768 shared secret as the salt
(R53). -/
def HpkeContext.hybrid (x : HpkeContext) (kem : Bytes) : SessionKeys :=
  let s := extract fn256 kem (x.export_ "lap96 hybrid" 32)
  ⟨expand fn256 s (text "req key") 32, expand fn256 s (text "req nonce") 12, expand fn256 s (text "rsp key") 32, expand fn256 s (text "rsp nonce") 12⟩

/-- The 128-byte record of Table 9.9; its reserved bytes are 0. -/
def SessionKeys.record (k : SessionKeys) : Bytes :=
  List.replicate 16 0 ++ k.reqKey ++ k.reqNonce ++ List.replicate 4 0 ++ k.rspKey ++ k.rspNonce ++ List.replicate 20 0

/-- A request's keys (R52, R53). None where the decapsulation fails: the encapsulated key is no point of the curve, or the ML-KEM
ciphertext of a hybrid request has not its length. -/
def sessionKeys (priv : Nat) (kem : Option Nat) (info enc ct : Bytes) : Option SessionKeys :=
  (kemShared priv enc).bind (fun z =>
    let x := hpkeContext z info
    match kem with
    | none => some x.plain
    | some seed => if ct.length = 1088 then some (x.hybrid (kemSecret seed ct)) else none)

end Sys2Proof.Crypto
end

