-- ==== Sys2Proof/Machine/EngineOps.lean ====
section
/-!
DEFINITION. Machine/EngineOps.lean: the array island of a tile within the machine: its effects on the rest of the tile, the
launch queue and its status words (03 R73 to R77), and the issue of the slots of the head bundle (03 R78 to R86; 19 R421).
-/
namespace Sys2Proof.Machine
open Sys2Proof

def State.island (s : State) (t : Nat) : Isl := { eng := (s.tile t).eng, pk := (s.tile t).pocket }

/-- One thing that the island tells the rest of the tile. -/
def State.hear (t : Nat) (s : State) (o : EngOut) : State :=
  match o with
  | .gateAdd g n => s.gateAdd t g n
  | .gateSub g n => s.gateSub t g n true
  | .event k => s.coreEvent t (.engine k)
  | .parity tailor =>
    s.error { cls := 2, src := if tailor then 0x14 else 0x13, cloak := BitVec.ofNat 8 (s.tag t), flags := 1, tile := BitVec.ofNat 16 t, cause := 4 }
  | .badRead =>
    s.error { cls := 2, src := 0x12, cloak := BitVec.ofNat 8 (s.tag t), flags := 1, tile := BitVec.ofNat 16 t, kind := 2, cause := 4 }

/-- The island put back into its tile, and what it told acted on. -/
def State.putIsland (s : State) (t : Nat) (i : Isl) : State :=
  i.out.foldl (State.hear t) (s.onTile t (fun x => { x with eng := i.eng, pocket := i.pk }))

/-- A change of the island; an uncorrectable error that an operation met in it faults the stream (R77, R137). -/
def State.onIsland (s : State) (t : Nat) (f : Isl → Isl) : State := s.putIsland t (faultMet s.freeCtr (f (s.island t)))

/-- The arrays of a tile that are usable (object 0x1501). -/
def State.usable (s : State) (t : Nat) : Nat := (s.ident.usableOf t).toNat

/-- The array island issues: no droop holds it (R425). -/
def State.engineRuns (s : State) (t : Nat) : Bool := s.runs t && !(s.tile t).acct.droop

/-! ### Status words (R75, Table 3.6) -/

def statusWord (state : Nat) (expired : Bool) (cause : Nat) (bundle ticket : U16) : U64 :=
  BitVec.ofNat 64 (state * 2 ^ 62 + flag expired * 2 ^ 61 + cause * 2 ^ 48 + bundle.toNat * 2 ^ 32 + ticket.toNat)

/-- The status of a ticket: queued, running, among the eight records, or expired. BUNDLE reads 0 until the stream has issued one
(DESIGN CHOICE, assumption 66). -/
def Seq.status (q : Seq) (ticket : U16) : U64 :=
  match q.queue.find? (fun r => decide (r.ticket = ticket)) with
  | some r => statusWord 0 false 0 r.bundle ticket
  | none =>
    match q.run with
    | some r =>
      if r.ticket = ticket then statusWord 1 false 0 r.bundle ticket else ended
    | none => ended
where
  ended : U64 := match q.records.find? (fun r => decide (r.ticket = ticket)) with
    | some r => statusWord (if r.faulted then 3 else 2) false r.cause r.bundle ticket
    | none => statusWord 2 true 0 0 ticket

/-- The stream of a ticket has not ended. -/
def Seq.alive (q : Seq) (ticket : U16) : Bool :=
  q.queue.any (fun r => decide (r.ticket = ticket)) || (match q.run with | some r => decide (r.ticket = ticket) | none => false)

/-- The ticket after one: 0 is never issued (R73). -/
def ticketNext (k : U16) : U16 := if k = 0xFFFF then 1 else k + 1

/-! ### Issue -/

/-- The state of the head bundle's issue: it waits, or it has begun (its charge is met and its Gate decrease taken). -/
inductive HeadIssue where
  | waits (s : State)
  | faulted (s : State)
  | open_ (s : State)
  deriving DecidableEq, Repr

/-- A bundle that needs an island on the retention floor wakes it and pays (R422). -/
def State.wakeArray (s : State) (t : Nat) : Bool × State :=
  if !(s.tile t).acct.arrayAsleep then (true, s)
  else match s.charge t .array 300 with
    | (false, s) => (false, s)
    | (true, s) => (true, s.onTile t (fun x => { x with acct := { x.acct with arrayAsleep := false } }))

/-- What reaches a tile's sequencer through the Seam takes effect once the array island is awake (R27): a launch, a stop or a flush wakes it and
pays (R422); where it cannot, the C-core's instruction waits. -/
def State.withArray (s : State) (t : Nat) (f : State → State) : State :=
  match s.wakeArray t with
  | (false, s) => s
  | (true, s) => f s

/-- The head bundle of a tile begins to issue (R85, R89, R421): it wakes an island on the retention floor; a bundle whose Gate condition
does not hold, or whose charge is not met, waits. -/
def State.beginHead (s : State) (t : Nat) : HeadIssue :=
  match headBundle (s.island t) with
  | none => .waits s
  | some (st, _, b) =>
   match s.wakeArray t with
   | (false, s) => .waits s
   | (true, s) =>
    let i := s.island t
    if i.eng.seq.issuing.isSome then .open_ s
    else if !gateMet i.eng.seq b then .waits (s.onIsland t (fun i => i.setSeq (fun q => { q with waitFrom := some (q.waitFrom.getD q.now) })))
    else match beginBundle s.freeCtr (s.usable t) (i.endWait s.freeCtr t) with
      | .waits => .waits s
      | .faults i => .faulted (s.putIsland t i)
      | .ready i =>
        match s.charge t .array (bundleCharge st.strict b) with
        | (false, s) => .waits s
        | (true, s) => .open_ (s.putIsland t (startIssue s.freeCtr i))

/-- Bundles whose slots are all no-operations issue as they come to the head, and one whose other slots are reserved faults there
with BADOP (R77); no command names a slot of theirs. `k` bounds their number. -/
def State.issueNops (s : State) (t : Nat) : Nat → State
  | 0 => s
  | k + 1 =>
    match headBundle (s.island t) with
    | some (_, _, b) =>
      if noOps b then
        match s.beginHead t with
        | .open_ s => (s.onIsland t (finishBundle s.freeCtr)).issueNops t k
        | .waits s => s
        | .faulted s => s
      else s
    | none => s

/-- Slot `k` of the head bundle, where it holds an operation that `want` names and that has not taken effect: the bundle
begins, the slot takes effect, and the bundle ends with its last slot. -/
def State.slotCmd (s : State) (t k : Nat) (want : BitVec 256 → Bool) (f : State → Stream → Nat → BitVec 256 → Issuing → State) : State :=
  if !s.engineRuns t then s
  else match headBundle (s.island t) with
    | none => s
    | some (_, _, b) =>
      let done := match (s.tile t).eng.seq.issuing with | some x => x.done.getLsbD k | none => false
      if !want b || done then s
      else match s.beginHead t with
        | .waits s => s.tick1
        | .faulted s => s.tick1
        | .open_ s =>
          match headBundle (s.island t), (s.tile t).eng.seq.issuing with
          | some (st, i, b), some x =>
            let s := f s st i b x
            ((s.onIsland t (fun i => finishBundle s.freeCtr (slotDone k i))).issueNops t 4).tick1
          | _, _ => s

/-- A matrix slot (M0 or M1) of the head bundle. -/
def State.matrixSlot (s : State) (t : Nat) (slot : Fin 2) (op : Nat) : State :=
  let w := fun (b : BitVec 256) => if slot.val = 0 then slotM0 b else slotM1 b
  s.slotCmd t slot.val (fun b => decide (mMop (w b) = op)) (fun s st i b x =>
    s.onIsland t (fun y => issueMatrix x.q st.strict (BitVec.ofNat 16 i) slot.val (w b) x.cycle y))

/-- The Tailor slot of the head bundle. -/
def State.tailorSlot (s : State) (t op : Nat) : State :=
  s.slotCmd t 2 (fun b => decide (tTop (slotT b) = op)) (fun s st i b x =>
    s.onIsland t (fun y => issueTailor x.q st.strict (BitVec.ofNat 16 i) (slotT b) x.cycle y))

/-- The Glide slot of the head bundle. -/
def State.glideSlot (s : State) (t op : Nat) (f : State → Stream → Issuing → Nat → State) : State :=
  s.slotCmd t 3 (fun b => decide (gGop (slotG b) = op)) (fun s st _ b x => f s st x (slotG b))

/-- The control slot of the head bundle. -/
def State.controlSlot (s : State) (t op : Nat) (f : Nat → Issuing → Nat → Isl → Isl) : State :=
  s.slotCmd t 4 (fun b => decide (cCop (slotC b) = op)) (fun s _ i b x => s.onIsland t (f (slotC b) x i))

/-! ### The stream at the head of the launch queue -/

/-- A stream starts: its argument block is read, and its first bundle is the next to be fetched (R74, Table 3.5). -/
def startStream (st : Stream) (i : Isl) : Isl :=
  let byte := fun k => (memGet i.pk ((st.args + k) % pocketSize)).toNat
  let q := (List.range 12).map (fun k => (BitVec.ofNat 32 (leNat (ringRead pocketSize i.pk (st.args + 4 * k) 4)) : U32))
  let st' := { st with
    started := true, strict := (byte 48).testBit 0, event := (byte 48).testBit 1, doneGate := byte 49, waitLim := Nat.min (byte 50) 31 }
  i.setSeq (fun x => { x with run := some st', q := q ++ [0, 0, 0, 0], prefetch := [], fetchAt := st.first / 32 % 65536, issuing := none, waitFrom := none, bflush := false })

end Sys2Proof.Machine
end

