-- ==== Sys2Proof/Machine/GroupOps.lean ====
section
/-!
DEFINITION. Machine/GroupOps.lean: blocks and their resources, group registers, path stacks, parking, and the memory
instructions of groups (08 R193 to R213).
-/
namespace Sys2Proof.Machine
open Sys2Proof

def State.onGrp (s : State) (t : Nat) (f : Groups → Groups) : State := s.onTile t (fun x => { x with grp := f x.grp })

def Groups.count (x : Groups) (i n : Nat) : Groups := { x with cnt := tabSet 0 x.cnt i (Nat.min (tabGet 0 x.cnt i + n) (2 ^ 64 - 1)) }

def Groups.slot (x : Groups) (g : Nat) : Option Group := tabGet none x.slots g

def Groups.setSlot (x : Groups) (g : Nat) (v : Option Group) : Groups := { x with slots := tabSet none x.slots g v }

def State.group (s : State) (t g : Nat) : Option Group := (s.tile t).grp.slot g

def State.onGroup (s : State) (t g : Nat) (f : Group → Group) : State := s.onGrp t (fun x => x.setSlot g ((x.slot g).map f))

/-- The resident block of a group slot. -/
def Groups.blockOf (x : Groups) (g : Nat) : Option Block := x.resident.find? (fun b => b.slots.contains g)

def Groups.onBlock (x : Groups) (ticket : U16) (f : Block → Block) : Groups :=
  { x with resident := x.resident.map (fun b => if b.ticket = ticket then f b else b) }

/-! ### Registers -/

/-- Lane `l` of a register. -/
def lane32 (v : BitVec 2048) (l : Nat) : Nat := elemOf v.toNat 32 l

/-- A register whose lane `l` holds `f l` in the threads of a mask, and keeps its value in the others. -/
def lanePut (old : BitVec 2048) (mask : U64) (f : Nat → Nat) : BitVec 2048 :=
  BitVec.ofNat 2048 (packElems 32 ((List.range 64).map (fun l => if mask.getLsbD l then f l else lane32 old l)))

def Group.reg (x : Group) (r : Nat) : BitVec 2048 := tabGet 0 x.regs r

/-- The value of `n` registers from `r` on, in one lane. -/
def Group.lanes (x : Group) (r l : Nat) : Nat → Nat
  | 0 => 0
  | n + 1 => lane32 (x.reg r) l + 2 ^ 32 * x.lanes (r + 1) l n

/-- `n` registers from `r` on written in the threads of a mask. -/
def Group.put (x : Group) (r : Nat) (mask : U64) (f : Nat → Nat) : Nat → Group
  | 0 => x
  | n + 1 =>
    Group.put { x with regs := tabSet 0 x.regs r (lanePut (x.reg r) mask (fun l => f l % 2 ^ 32)) } (r + 1) mask (fun l => f l / 2 ^ 32) n

def laneBit (l : Nat) : U64 := BitVec.ofNat 64 (2 ^ l)

/-- The lanes of a mask, in increasing order. -/
def lanesOf (m : U64) : List Nat := (List.range 64).filter (fun l => m.getLsbD l)

/-- The lowest-numbered running thread. -/
def Group.low (x : Group) : Nat := (lanesOf x.running).headD 0

/-! ### Parking (R211 to R213) -/

/-- Codes of Table 8.7. -/
def gcPage : Nat := 1
def gcOwner : Nat := 2
def gcUncorr : Nat := 3
def gcVio : Nat := 4
def gcIllegal : Nat := 5
def gcDivcoll : Nat := 6
def gcDeadlock : Nat := 7
def gcBadgate : Nat := 8
def gcCopypage : Nat := 9
def gcStopped : Nat := 10
def gcTrap : Nat := 11
def gcStackovf : Nat := 12

def gcOf : Side → Nat
  | .page => gcPage
  | .uncorr => gcUncorr
  | .window _ => gcVio
  | _ => gcOwner

/-- A barrier of the group is pending (R208). -/
def isBarrier : PathEntry → Bool
  | .barrier _ _ _ _ => true
  | _ => false

def Group.pendingBar (x : Group) : Bool := x.bbar || x.stack.any isBarrier

/-- A group parks (R212); one that is parked already has no second cause. -/
def State.park (s : State) (t g : Nat) (p : Park) : State :=
  match (s.tile t).grp.blockOf g, s.group t g with
  | some b, some x =>
    if x.park.isSome then s else
    let s := s.onGroup t g (fun x => { x with park := some p })
    let s := s.onGrp t (fun x => (x.onBlock b.ticket (fun b => { b with cause := p.cause })).count 2 1)
    if b.event then s.coreEvent t (.group b.ticket) else s
  | _, _ => s

/-- A group parks with a cause and no address. -/
def State.parkWith (s : State) (t g cause : Nat) : State := s.park t g { cause := cause }

/-! ### Issue (R194, R195, R202) -/

/-- The group of a slot, with its block, where it can issue. -/
def State.gready (s : State) (t g : Nat) : Option (Group × Block) :=
  if !s.vectorRuns t then none
  else match s.group t g, (s.tile t).grp.blockOf g with
    | some x, some b => if x.park.isNone && !x.bbar && !x.spin && decide (x.running ≠ 0) then some (x, b) else none
    | _, _ => none

/-- The fetch of a group instruction, translated and checked (R202): the group parks where it faults, and waits where its walk does. -/
def State.gfetch (s : State) (t g : Nat) (x : Group) (b : Block) (f : State → State) : State :=
  let u := s.translated t .lvu b.tctx b.kernel .fetch x.pc
  match u.resolve t .lvu b.tctx b.kernel .fetch x.pc 8 with
  | .walk a => s.askEntry t a
  | w => if w.faults then (u.xlFault t .lvu b.tctx b.kernel .fetch x.pc).park t g { cause := gcOf w, addr := x.pc } else f u

/-- A group instruction issues: its fetch is translated and checked, its registers lie below NREGU × 8, it is charged `occ`
quarter cycles and counted (R202, R421). -/
def State.gissue (s : State) (t g occ : Nat) (regs : List Nat) (f : State → Group → Block → State) : State :=
  match s.gready t g with
  | none => s
  | some (x, b) =>
    if x.mem.isSome then s
    else
      s.gfetch t g x b (fun s =>
      if regs.any (fun r => decide (8 * b.nregu ≤ r)) then s.parkWith t g gcIllegal
      else s.paid t .vector (2 * occ) (fun s => (f (s.onGrp t (fun y => y.count 1 1)) x b).tick1))

def pcNext (pc : U64) : U64 := pc + 8

/-- The target of a branch (Table 8.5). -/
def pcBranch (pc : U64) (imm : BitVec 16) : U64 := pc + (imm.signExtend 64) * 8

def Group.next (x : Group) : Group := { x with pc := pcNext x.pc }

/-! ### Path stack (R205 to R207) -/

/-- The path set's entries: those above the nearest mark; and the rest. -/
def pathSet : List PathEntry → List PathEntry × List PathEntry
  | [] => ([], [])
  | .mark a m :: r => ([], .mark a m :: r)
  | e :: r => let p := pathSet r; (e :: p.1, p.2)

/-- The topmost path entry, and the entries without it. -/
def popPath : List PathEntry → Option (U64 × U64 × List PathEntry)
  | [] => none
  | .path pc m :: r => some (pc, m, r)
  | e :: r => match popPath r with
    | some (pc, m, q) => some (pc, m, e :: q)
    | none => none

/-- The threads that wait in barrier entries. -/
def barred (l : List PathEntry) : U64 := l.foldl (fun a e => match e with | .barrier _ m _ _ => a ||| m | _ => a) 0

/-- The group continues as GSYNC does: the topmost path entry of the path set runs; otherwise the mark's target, with the
threads that are live and do not wait at a barrier. A mark that has no such thread is popped, and the entries below it are next;
where none is left, the group issues nothing. -/
def Group.sync (x : Group) : Nat → Group
  | 0 => { x with running := 0 }
  | n + 1 =>
    let p := pathSet x.stack
    match popPath p.1 with
    | some (pc, m, q) => { x with pc := pc, running := m, stack := q ++ p.2 }
    | none =>
      match p.2 with
      | .mark target m :: r =>
        let run := m &&& x.live &&& ~~~(barred x.stack)
        if run ≠ 0 then { x with pc := target, running := run, stack := p.1 ++ r }
        else Group.sync { x with stack := p.1 ++ r } n
      | _ => { x with running := 0 }

def Group.resync (x : Group) : Group := x.sync 17

/-- An entry with exiting threads removed; a path or barrier entry left without threads goes. -/
def dropThreads (m : U64) (l : List PathEntry) : List PathEntry :=
  l.filterMap (fun e => match e with
    | .mark a k => some (.mark a (k &&& ~~~m))
    | .path pc k => if k &&& ~~~m = 0 then none else some (.path pc (k &&& ~~~m))
    | .barrier pc k b a => if k &&& ~~~m = 0 then none else some (.barrier pc (k &&& ~~~m) b a))

def isPathOrBar : PathEntry → Bool
  | .mark _ _ => false
  | _ => true

/-- The group is converged (R205). -/
def Group.converged (x : Group) : Bool := !x.stack.any isPathOrBar && decide (x.running = x.live)

/-- The running path becomes a barrier entry, the deepest of its path set, and another path runs (R207); none on a full
stack. -/
def Group.bar (x : Group) (block : Bool) (arrival : Nat) : Option Group :=
  if 16 ≤ x.stack.length then none
  else
    let p := pathSet x.stack
    let y := { x with stack := p.1 ++ (PathEntry.barrier (pcNext x.pc) x.running block arrival :: p.2), running := 0 }
    some y.resync

/-- Barrier entries of a kind. -/
def barEntries (block : Bool) (l : List PathEntry) : List (Nat × U64) :=
  l.filterMap (fun e => match e with | .barrier _ m b a => if b = block then some (a, m) else none | _ => none)

/-- Every live thread of a group waits at its barrier of a kind. -/
def Group.allWait (x : Group) (block : Bool) : Bool :=
  if block && x.bbar then true
  else decide ((barEntries block x.stack).foldl (fun a p => a ||| p.2) 0 = x.live)

/-- A complete barrier: its entries become path entries, and the earliest runs. -/
def Group.release (x : Group) (block : Bool) : Group :=
  if block && x.bbar then { x.next with bbar := false, wdog := 0 }
  else
    match (barEntries block x.stack).map (fun p => p.1) with
    | [] => x
    | a :: r =>
      let first := r.foldl Nat.min a
      let hit := x.stack.find? (fun e => match e with | .barrier _ _ b k => decide (b = block) && decide (k = first) | _ => false)
      let rest := x.stack.filter (fun e => match e with | .barrier _ _ b k => !(decide (b = block) && decide (k = first)) | _ => true)
      let rest := rest.map (fun e => match e with | .barrier pc m b k => if b = block then .path pc m else .barrier pc m b k | e => e)
      match hit with
      | some (.barrier pc m _ _) => { x with pc := pc, running := m, stack := rest, wdog := 0 }
      | _ => x

/-! ### Memory instructions (R203, R204) -/

def gsize : GMemKind → Nat
  | .load n _ _ => 2 ^ n.val
  | .store n _ => 2 ^ n.val
  | .atomic _ n _ _ _ _ => 2 ^ n.val

/-- Registers that hold `n` bytes. -/
def regsFor (n : Nat) : Nat := (n + 3) / 4

def spanOf (r : GReg) (n : Nat) : List Nat := rangeFrom r.val n

/-- The registers that a memory instruction names. -/
def gmemRegs (o : GMemOp) : List Nat :=
  let k := regsFor (gsize o.kind)
  spanOf o.base (if o.pair then 2 else 1) ++
    (match o.kind with
     | .load _ _ rd => spanOf rd k
     | .store _ rs => spanOf rs k
     | .atomic _ _ rd rs rc _ => spanOf rd k ++ spanOf rs k ++ (match rc with | some r => spanOf r k | none => []))

/-- An atomic form that Table 12.7 has. -/
def gmemOk (o : GMemOp) : Bool :=
  match o.kind with
  | .atomic op n _ _ _ _ => decide (n.val = 2) || decide (n.val = 3) || (decide (n.val = 4) && decide (op = .cas))
  | _ => true

def isAtomicOp (o : GMemOp) : Bool := match o.kind with | .atomic _ _ _ _ _ _ => true | _ => false

def isStoreOp (o : GMemOp) : Bool := match o.kind with | .store _ _ => true | _ => false

/-- The address of a lane's access. -/
def Group.va (x : Group) (o : GMemOp) (l : Nat) : U64 :=
  BitVec.ofNat 64 (x.lanes o.base l (if o.pair then 2 else 1)) + o.off.signExtend 64

/-- A load's or an atomic's result in its lane. -/
def Group.putMem (x : Group) (o : GMemOp) (l : Nat) (b : Bytes) : Group :=
  match o.kind with
  | .load n sg rd =>
    let v := leNat b
    let w := 8 * 2 ^ n.val
    x.put rd (laneBit l) (fun _ => if sg && decide (w < 32) then ofSigned 32 (toSigned w v) else v) (regsFor (2 ^ n.val))
  | .atomic _ n rd _ _ _ => x.put rd (laneBit l) (fun _ => leNat b) (regsFor (2 ^ n.val))
  | .store _ _ => x

/-- The next lane of the running mask from `l` on. -/
def nextLane (m : U64) (l : Nat) : Option Nat := (lanesOf m).find? (fun k => decide (l ≤ k))

def Group.prog (x : Group) (f : GProg → GProg) : Group := { x with mem := x.mem.map f }

/-- `n` bytes of a lane's access have been moved. -/
def Group.moved (x : Group) (p : GProg) (n : Nat) (b : Bytes) : Group :=
  let q := { p with part := p.part + n, buf := p.buf ++ b, waiting := false, asked := 0 }
  if gsize p.op.kind ≤ q.part then { x.putMem p.op p.lane q.buf with mem := some { q with lane := p.lane + 1, part := 0, buf := [], rev := false } }
  else { x with mem := some q }

/-- A fault on a lane: the group parks (R204). PAGE and OWNER resume at that lane, other causes with the instruction. A group
that is parked already keeps its cause (R212), and the lane is performed again when it resumes (DESIGN CHOICE, assumption 73). -/
def State.gfault (s : State) (t g : Nat) (p : GProg) (cause : Nat) (va : U64) : State :=
  (s.onGroup t g (fun x => { x with mem := if cause = gcPage ∨ cause = gcOwner ∨ x.park.isSome then some { p with part := 0, buf := [], waiting := false, asked := 0, rev := false } else none })).park t g
    { cause := cause, addr := va, flane := p.lane }

/-- The lanes of a memory instruction in order, until it ends, faults or waits (`fuel` bounds the steps). -/
def State.gmemGo (s : State) (t g : Nat) (b : Block) : Nat → State
  | 0 => s
  | fuel + 1 =>
    match s.group t g with
    | none => s
    | some x =>
      match x.mem with
      | none => s
      | some p0 =>
        match nextLane x.running p0.lane with
        | none => s.onGroup t g (fun x => { x.next with mem := none })
        | some l =>
          let p := { p0 with lane := l }
          let o := p.op
          let n := gsize o.kind
          let va := x.va o l
          let user : TxUser := .group t g
          match o.kind with
          | .atomic op _ _ rs rc imm =>
            if va.toNat % n ≠ 0 then s.gfault t g p gcIllegal 0
            else
              let k := regsFor n
              let cmp := match rc with | some r => x.lanes r l k | none => imm.toNat
              match s.accessFault t .lvu b.tctx b.kernel .atomic va n with
              | some (.walk a, _, _) => (s.askEntry t a).onGroup t g (fun x => { x with mem := some p })
              | some (f, a, s) => s.gfault t g p (gcOf f) a
              | none =>
                match s.atomPiece t user .lvu b.tctx b.kernel va n op (x.lanes rs l k) cmp with
                | .wait u => (s.asks u).onGroup t g (fun x => { x with mem := some p })
                | .fault f s => s.gfault t g p (gcOf f) va
                | .sent s => s.onGroup t g (fun x => { x with mem := some { p with waiting := true, asked := n } })
                | .got r s => (s.onGroup t g (fun x => x.moved p n r)).gmemGo t g b fuel
          | _ =>
            let write := isStoreOp o
            let kind : XKind := if write then .write else .read
            match (if p.part = 0 then s.accessFault t .lvu b.tctx b.kernel kind va n else none) with
            | some (.walk a, _, _) => (s.askEntry t a).onGroup t g (fun x => { x with mem := some p })
            | some (f, a, s) => s.gfault t g p (gcOf f) a
            | none =>
              let q := s.partPlan t .lvu b.tctx b.kernel kind va n p.part p.rev
              let m := q.2.1
              let at_ := va + BitVec.ofNat 64 q.1
              let p := { p with rev := q.2.2 }
              let data := match o.kind with
                | .store _ rs => ((natLe n (x.lanes rs l (regsFor n))).drop q.1).take m
                | _ => []
              match s.piece t user .lvu b.tctx b.kernel write at_ m data with
              | .wait u => (s.asks u).onGroup t g (fun x => { x with mem := some { p with rev := p0.rev } })
              | .fault f s => s.gfault t g p (gcOf f) at_
              | .sent s => s.onGroup t g (fun x => { x with mem := some { p with waiting := true, asked := m } })
              | .got r s => (s.onGroup t g (fun x => x.moved p m r)).gmemGo t g b fuel

def gmemFuel : Nat := 200

/-- The lines that the lanes of an instruction touch, from a lane on. -/
def Group.lines (x : Group) (o : GMemOp) (l : Nat) : List Nat :=
  linesTouched (gsize o.kind) (((lanesOf x.running).filter (fun k => decide (l ≤ k) && !pocketWindow (vaOf (x.va o k)))).map (fun k => (x.va o k).toNat))

/-- A memory instruction of a group: it begins, or goes on where it waits for a line. -/
def State.gmem (s : State) (t g : Nat) (o : GMemOp) : State :=
  match s.gready t g with
  | none => s
  | some (x, b) =>
    let begin_ := fun (l : Nat) => s.gfetch t g x b (fun s =>
      if !gmemOk o || (gmemRegs o).any (fun r => decide (8 * b.nregu ≤ r)) then s.parkWith t g gcIllegal
      else
        let c := s.linesCharge t .lvu b.tctx b.kernel (if isAtomicOp o then .atomic else if isStoreOp o then .write else .read) (x.lines o l)
        s.paid t .vector 2 (fun s' =>
          match s'.charge t .memory c with
          | (false, _) => s
          | (true, s') =>
            (((s'.onGrp t (fun y => y.count 1 1)).onGroup t g (fun x => { x with mem := some { op := o, lane := l } })).gmemGo t g b gmemFuel).tick1))
    match x.mem with
    | none => begin_ 0
    | some p =>
      if p.waiting ∨ p.op ≠ o then s
      else (s.gmemGo t g b gmemFuel).tick1

/-- The answer to an access of a group: its data or acknowledgement, or a failure with its cause. -/
def State.gAnswer (s : State) (t g : Nat) (b : Option Bytes) (cause : Nat) : State :=
  match s.group t g, (s.tile t).grp.blockOf g with
  | some x, some k =>
    match x.mem with
    | none => s
    | some p =>
      if !p.waiting then s
      else
        let at_ := x.va p.op p.lane + BitVec.ofNat 64 (partOffset (gsize p.op.kind) p.part p.asked p.rev)
        match b with
        | none => s.gfault t g p cause at_
        | some b =>
          let s := s.onGroup t g (fun x => x.moved p p.asked b)
          if (s.gready t g).isSome then s.gmemGo t g k gmemFuel else s
  | _, _ => s

/-! ### Blocks (R196 to R201) -/

/-- The status of a block (Table 8.4). -/
def gstatus (state : Nat) (expired parked : Bool) (cause parkmask live : Nat) (ticket : U16) : U64 :=
  BitVec.ofNat 64 (state * 2 ^ 61 + flag expired * 2 ^ 60 + flag parked * 2 ^ 59 + cause * 2 ^ 48 + parkmask * 2 ^ 32 + live * 2 ^ 16 + ticket.toNat)

/-- A mask with bit `j` set where group `j` of a block satisfies `p`. -/
def Groups.maskOf (x : Groups) (b : Block) (p : Group → Bool) : Nat :=
  sumNat (((List.range b.slots.length).zip b.slots).map (fun q => if (match x.slot q.2 with | some g => p g | none => false) then 2 ^ q.1 else 0))

def Groups.status (x : Groups) (ticket : U16) : U64 :=
  match x.queue.find? (fun b => decide (b.ticket = ticket)) with
  | some _ => gstatus 0 false false 0 0 0 ticket
  | none =>
    match x.resident.find? (fun b => decide (b.ticket = ticket)) with
    | some b =>
      let pm := x.maskOf b (fun g => g.park.isSome)
      gstatus 1 false (decide (pm ≠ 0)) b.cause pm (x.maskOf b (fun g => decide (g.live ≠ 0))) ticket
    | none =>
      match x.records.find? (fun r => decide (r.ticket = ticket)) with
      | some r => gstatus (if r.killed then 3 else 2) false false r.cause 0 0 ticket
      | none => gstatus 2 true false 0 0 0 ticket

/-- The block has neither ended nor parked (GJOIN). -/
def Groups.joinWaits (x : Groups) (ticket : U16) : Bool :=
  x.queue.any (fun b => decide (b.ticket = ticket))
    || (match x.resident.find? (fun b => decide (b.ticket = ticket)) with
        | some b => decide (x.maskOf b (fun g => g.park.isSome) = 0)
        | none => false)

/-- A copy whose block is killed: it ends at its next 1 KiB boundary. -/
def GCopyJob.kill (c : GCopyJob) : GCopyJob :=
  { c with killed := true, len := Nat.min c.len ((c.cursor + (if c.busy then 1 else 0) + 1023) / 1024 * 1024) }

/-- A block's share of object 0x1713 since the last tick: how many vector cycles, the commands do not say (assumption 1). -/
def Groups.lastCycles (x : Groups) (n t : Nat) (b : Block) : Groups :=
  if b.slots.isEmpty then x else x.count 3 (freeValue n 30 t % (17000 * b.slots.length + 1))

/-- A block ends (R201): its resources are free, its record is kept, DONEGATE increases and the event is raised. What is
outstanding of its groups answers nobody. -/
def State.endBlock (s : State) (t : Nat) (b : Block) (killed : Bool) : State :=
  let s := (s.onGrp t (fun x => x.lastCycles s.freeCtr t b)).tick1
  let s := s.forget t (fun u => match u with | .group _ g => b.slots.contains g | _ => false)
  let s := s.onGrp t (fun x => { x with
    slots := b.slots.foldl (fun l g => tabSet none l g none) x.slots
    resident := x.resident.filter (fun k => decide (k.ticket ≠ b.ticket))
    queue := x.queue.filter (fun k => decide (k.ticket ≠ b.ticket))
    copies := x.copies.map (fun (c : GCopyJob) => if c.ticket = b.ticket then GCopyJob.kill c else c)
    records := (⟨b.ticket, killed, b.cause⟩ :: x.records).take 8 })
  let s := if b.doneGate < 64 then s.gateAdd t b.doneGate 1 else s
  if b.event then s.coreEvent t (.group b.ticket) else s

/-- The launch descriptor at a Pocket offset (Table 8.3), every field clamped. -/
def Tile.descriptor (x : Tile) (off : Nat) (kernel : Bool) : Block :=
  let b := ringRead pocketBytes x.pocket off 64
  let by_ := fun (i : Nat) => (b.getD i 0).toNat
  let gb := Nat.min (by_ 20) 63
  { entry := BitVec.ofNat 64 (leNat (b.take 8) / 8 * 8), arg := BitVec.ofNat 64 (leNat ((b.drop 8).take 8))
    ngroups := clampNat 1 16 (by_ 16), nregu := clampNat 2 32 (by_ 17), pocket := Nat.min (leNat ((b.drop 18).take 2)) 512
    gateBase := gb, ngates := Nat.min (by_ 21) (64 - gb), strict := bit (by_ 22) 0, frm := field (by_ 22) 2 1, event := bit (by_ 22) 3
    doneGate := by_ 23, tctx := x.xlat.tctx, kernel := kernel }

/-- Bytes 16 to 23 of the descriptor, as used. -/
def Block.usedBytes (b : Block) (flags : Nat) : Bytes :=
  natLe 1 b.ngroups ++ natLe 1 b.nregu ++ natLe 2 b.pocket ++ natLe 1 b.gateBase ++ natLe 1 b.ngates ++ natLe 1 flags ++ natLe 1 b.doneGate

/-- The first run of `n` free 4 KiB units in the group area, from unit `i` on. -/
def freeRun (used : List (Nat × Nat)) (hi n : Nat) : Nat → Nat → Option Nat
  | 0, _ => none
  | k + 1, i =>
    if hi < i + n then none
    else if used.any (fun u => decide (i < u.1 + u.2) && decide (u.1 < i + n)) then freeRun used hi n k (i + 1)
    else some i

/-- Where a block's Pocket allocation can lie, in bytes. -/
def Groups.findPocket (x : Groups) (n : Nat) : Option Nat :=
  if n = 0 then some (x.areaBase * 65536)
  else
    let used := (x.resident.filter (fun b => decide (b.pocket ≠ 0))).map (fun b => (b.base / 4096, b.pocket))
    (freeRun used (16 * (x.areaBase + x.areaSize)) n 513 (16 * x.areaBase)).map (fun u => 4096 * u)

def Groups.freeSlots (x : Groups) : List Nat := (List.range 32).filter (fun g => (x.slot g).isNone)

def Groups.regsUsed (x : Groups) : Nat := sumNat (x.resident.map (fun b => b.ngroups * b.nregu * 8))

/-- Two blocks' Gate ranges share a Gate; an empty range shares none. -/
def gatesClash (b c : Block) : Bool :=
  decide (0 < b.ngates) && decide (0 < c.ngates) && decide (b.gateBase < c.gateBase + c.ngates) && decide (c.gateBase < b.gateBase + b.ngates)

/-- The head of the queue with the resources that it receives, where they are all free (R198). -/
def Groups.canReside (x : Groups) : Option Block :=
  match x.queue with
  | [] => none
  | b :: _ =>
    if 8 ≤ x.resident.length then none
    else if x.freeSlots.length < b.ngroups then none
    else if 1024 < x.regsUsed + b.ngroups * b.nregu * 8 then none
    else if x.resident.any (gatesClash b) then none
    else (x.findPocket b.pocket).map (fun base => { b with base := base, slots := x.freeSlots.take b.ngroups })

/-- A starting group (R199). -/
def Block.group (b : Block) (j : Nat) : Group :=
  let all : U64 := 0xFFFFFFFFFFFFFFFF
  let c := fun (f : Nat → Nat) => lanePut 0 all f
  { ticket := b.ticket, index := j, pc := b.entry, running := all, live := all
    regs := [c (fun l => 64 * j + l), c (fun _ => j), c (fun _ => field b.arg.toNat 31 0), c (fun _ => field b.arg.toNat 63 32), c (fun _ => b.base), c (fun _ => b.gateBase)] }

/-- A park record (Table 8.6). -/
def Group.record (x : Group) (n : Nat) : Bytes :=
  let p := x.park.getD { cause := 0 }
  let wdog := if p.cause = gcDeadlock then x.wdog else if x.pendingBar then freeValue n 18 x.index % 2 ^ 20 else 0
  natLe 8 x.pc.toNat ++ natLe 8 p.addr.toNat ++ natLe 8 x.running.toNat ++ natLe 8 x.live.toNat ++ natLe 2 p.flane
    ++ natLe 1 p.cause ++ natLe 1 x.stack.length ++ natLe 4 wdog ++ natLe 8 p.copyCur.toNat ++ List.replicate 16 0

end Sys2Proof.Machine
end

