-- ==== Sys2Proof/Machine/Stopping.lean ====
section
/-!
DEFINITION. Machine/Stopping.lean: what a Cloak STOP and a RESUME do to the units of a tile (02 R45; 03 R76; 04 R97; 08 R212,
R213; 09 R227).
-/
namespace Sys2Proof.Machine
open Sys2Proof

/-! ### STOP -/

/-- Every RUNNING stream of a tile is held as HALT holds it; one without tiles in flight is STOPPED at once (R227). -/
def State.stopStreams (s : State) (t : Nat) : State :=
  (List.range 16).foldl (fun (s : State) i =>
    if (s.stream t i).state = .running then s.setStream t i (GStream.rest { s.stream t i with stopping := true }) else s) s

/-- Every unit of a tile stands at its boundary (R45): no bundle is half issued, no stream is RUNNING, no element of a vector
access and no lane of a group access is under way. -/
def Tile.quiet (x : Tile) : Bool :=
  x.eng.seq.issuing.isNone && x.glide.streams.all (fun (g : GStream) => decide (g.state ≠ .running))
    && !x.lvu.waiting && decide (x.lvu.part = 0)
    && x.grp.slots.all (fun g => match g with | some g => (match g.mem with | some p => !p.waiting && decide (p.part = 0) | none => true) | none => true)

/-- A vector memory instruction in progress records where it stopped, with VCAUSE 0 (R97). -/
def Lvu.stop (x : Lvu) : Lvu :=
  match x.queue with
  | e :: _ => if x.begun then { x with vepc := e.pc, vstart := BitVec.ofNat 16 x.cur, vcause := 0 } else x
  | [] => x

/-- The groups of a tile that are not parked are parked with STOPPED. -/
def State.parkAll (s : State) (t : Nat) : State :=
  (List.range 32).foldl (fun (s : State) g =>
    match s.group t g with
    | some x => if x.park.isNone then s.parkWith t g gcStopped else s
    | none => s) s

/-- A quiet tile halts: what its engines have issued reaches its latency. -/
def State.stopTile (s : State) (t : Nat) : State :=
  (((s.onIsland t (drain s.freeCtr)).onLvu t Lvu.stop).parkAll t).onTile t (fun x => { x with halted := true })

/-! ### RESUME -/

/-- A STOPPED stream is RUNNING again at its cursor. -/
def GStream.resume (x : GStream) : GStream := if x.state = .stopped then { x with state := .running, nextTile := x.cursor.toNat } else x

/-- The prefetch queue is empty, and the stream goes on with the next bundle (R76). -/
def Seq.resume (q : Seq) : Seq :=
  { q with prefetch := [], bflush := false, fetchAt := match q.prefetch with | (i, _) :: _ => i % 65536 | [] => q.fetchAt }

/-- A group parked with STOPPED is released (R213). -/
def Group.resume (x : Group) : Group :=
  match x.park with
  | some p => if p.cause = gcStopped then { x with park := none } else x
  | none => x

def Tile.resume (x : Tile) : Tile :=
  { x with
    halted := false
    glide := { x.glide with streams := x.glide.streams.map GStream.resume }
    eng := { x.eng with seq := x.eng.seq.resume }
    grp := { x.grp with slots := x.grp.slots.map (fun g => g.map Group.resume) } }

end Sys2Proof.Machine
end

