-- ==== Sys2Proof/Machine/CloakOps.lean ====
section
/-!
DEFINITION. Machine/CloakOps.lean: ownership changes (02 R41), the command engine (R44), the destroy sequence (R46), keys and
measurement (R48, 16 R368), and attestation reports (16 R366).
-/
namespace Sys2Proof.Machine
open Sys2Proof

/-! ### Byte strings -/

/-- The `n` bytes of a number, most significant first. -/
def natBe (n v : Nat) : Bytes := Crypto.be n v

/-- The bytes of an ASCII text. -/
def ascii (t : String) : Bytes := Crypto.text t

/-- A byte string made `n` bytes long with zeros, or cut. -/
def padTo (n : Nat) (b : Bytes) : Bytes := b.take n ++ List.replicate (n - b.length) 0

/-! ### Keys (R48) -/

/-- A random value of `w` bits from the true random source: a free value. -/
def randomBits (n use w : Nat) : Nat := freeValue n use w % 2 ^ w

/-- A P-256 private key from the true random source: a free value from 1 up to one less than the order. -/
def randomScalar (n use : Nat) : Nat := randomBits n use 256 % (Crypto.p256Order - 1) + 1

/-- A key derived from a Cloak's root key (R48): its label, then the Cloak ID as one byte. No salt is stated, so it is empty (assumption
4). -/
def cloakKey (root : Nat) (label : String) (k len : Nat) : Nat := Crypto.beVal (Crypto.hkdf384 [] (natBe 32 root) (ascii label ++ [BitVec.ofNat 8 k]) len)

/-- The root key and the keys derived at CREATE (Table 2.6). -/
def Cloak.makeKeys (c : Cloak) (k n : Nat) : Cloak :=
  let root := randomBits n 10 256
  { c with
    root := some (BitVec.ofNat 256 root)
    memKey := some (BitVec.ofNat 512 (cloakKey root "lap96 xts" k 64))
    macKey := some (BitVec.ofNat 256 (cloakKey root "lap96 mac" k 32))
    offKey := some (BitVec.ofNat 256 (cloakKey root "lap96 offload" k 32)) }

/-- Fresh request key pairs (FINALISE and ROTATE_KEY). -/
def Cloak.requestKeys (c : Cloak) (n : Nat) : Cloak :=
  { c with reqKey := some (BitVec.ofNat 256 (randomScalar n 11))
           kemKey := if c.hybrid then some (BitVec.ofNat 512 (randomBits n 12 512)) else none }

/-- The sealing key (R48): from the firmware layer's secret and the measurement, which follows the label. -/
def State.sealKey (s : State) (k : Nat) : BitVec 256 :=
  let cdi := match s.fw.cdi2 with | some x => x.toNat | none => 0
  BitVec.ofNat 256 (Crypto.beVal (Crypto.hkdf384 [] (natBe 32 cdi) (ascii "lap96 seal" ++ natBe 48 (s.cloak k).measurement.toNat) 32))

/-- Every key of a Cloak cleared from its slots (R46 step 2). -/
def Cloak.clearKeys (c : Cloak) : Cloak :=
  { c with root := none, memKey := none, macKey := none, offKey := none, grpKey := none, reqKey := none, kemKey := none }

def Glide.clearKeys (g : Glide) : Glide :=
  { g with offKey := none, grpKey := none, streams := g.streams.map (fun (x : GStream) => { x with key := none })
           reqs := g.reqs.filter (fun r => decide (r.k ≠ keyMark)) }

/-- The keys under which a Cloak's lines still stand while it is being destroyed (R46 step 2): they are in no slot any more. -/
def State.noteGone (s : State) (k : Nat) : State :=
  match (s.cloak k).memKey, (s.cloak k).macKey with
  | some m, some c => { s with mem := { s.mem with gone := (k, m, c) :: s.mem.gone.filter (fun p => decide (p.1 ≠ k)) } }
  | _, _ => s

def State.clearCloakKeys (s : State) (k : Nat) : State :=
  let s := (s.noteGone k).onCloak k Cloak.clearKeys
  (s.tilesOf k).foldl (fun (s : State) t => s.onTile t (fun x => { x with glide := x.glide.clearKeys })) s

/-! ### Measurement (R368) -/

def measLoad (m : BitVec 384) (dst len : Nat) (image : Bytes) : BitVec 384 :=
  Crypto.sha384 (natBe 48 m.toNat ++ ascii "LOAD" ++ natLe 8 dst ++ natLe 8 len ++ natBe 48 (Crypto.sha384 image).toNat)

def measFinal (m : BitVec 384) (hybrid : Bool) (entry : U64) : BitVec 384 :=
  Crypto.sha384 (natBe 48 m.toNat ++ ascii "FINAL" ++ [if hybrid then 1 else 0] ++ natLe 8 entry.toNat)

/-! ### Attestation reports (R366) -/

/-- The device is degraded (R443). -/
def State.degraded (s : State) : Bool :=
  decide (s.ident.fenced ≠ 0) ||
    (List.range 192).any (fun t => decide (s.ident.atSort t &&& ~~~ s.ident.usableOf t ≠ 0))

/-- Arrays usable and tiles usable (objects 0x1000.03 and 0x1000.04, R142, R33). -/
def bitCount (w v : Nat) : Nat := countIf (fun i => bit v i) (List.range w)
def State.arraysUsable (s : State) : Nat :=
  sumNat ((List.range 192).map (fun t => popcount8 (s.ident.usableOf t)))
def State.tilesUsable (s : State) : Nat := 192 - bitCount 192 s.ident.fenced.toNat

def State.partCode (s : State) : Bytes := ascii (if s.ident.sGrade then "LAP96-S" else "LAP96-F")

/-- Bytes 0 to 1,551 of a report: a device report for Cloak 0. -/
def State.reportBody (s : State) (kind k : Nat) (rdata : Bytes) : Bytes :=
  let c := s.cloak k
  let att := match s.fw.attKey with | some x => x.toNat | none => 0
  let req := match c.reqKey with | some x => Crypto.publicKey x.toNat | none => []
  let kem := match c.kemKey with | some x => Crypto.kemPublic x.toNat | none => []
  ascii "LAPR" ++ natLe 2 1 ++ [BitVec.ofNat 8 kind]
    ++ [BitVec.ofNat 8 (flag s.unlock.flag + 2 * flag (decide (k ≠ 0) && c.hybrid) + 4 * flag s.degraded)]
    ++ padTo 16 s.partCode ++ natLe 2 s.pkg ++ natLe 2 s.arraysUsable ++ natLe 2 s.tilesUsable ++ natLe 2 0
    ++ natLe 4 (s.obj 0x1C00 3) ++ natLe 4 s.fw.cfwSvn ++ natLe 4 s.fw.dfwSvn ++ natLe 4 0
    ++ natBe 48 s.fw.cfwMeas.toNat ++ natBe 48 s.fw.dfwMeas.toNat
    ++ natBe 32 (Crypto.sha256 (Crypto.publicKey att)).toNat
    ++ (if k = 0 then List.replicate 1376 0
        else [BitVec.ofNat 8 k, 0] ++ natLe 2 (s.tilesOf k).length ++ natLe 4 c.rseq.toNat ++ natBe 48 c.measurement.toNat
          ++ padTo 64 rdata ++ padTo 65 req ++ List.replicate 7 0
          ++ (if c.hybrid then padTo 1184 kem else List.replicate 1184 0))

def State.signedReport (s : State) (kind k : Nat) (rdata : Bytes) : Bytes :=
  let b := s.reportBody kind k rdata
  b ++ padTo 64 (match s.fw.attKey with | some x => Crypto.sign x.toNat b | none => [])

/-! ### Ownership changes (R41) -/

/-- A granule's entry, which S changes only for granules that are not SYSTEM: no principal can ever assign those (R438). -/
def State.changeGranule (s : State) (g : Nat) (e : BitVec 16) : State :=
  if entState (s.granule g) = 3 then s else s.setGranule g e

def lineIn (g line : Nat) : Bool := decide (granuleOf (64 * line) = some g)

/-- Every cached copy of a granule's lines recalled, the host's too (R291): each line that the filter records gets its SNPINV in the order of
its home. -/
def State.recallGranule (s : State) (g : Nat) : State :=
  (s.coh.filter.filter (fun p => lineIn g p.1)).foldl (fun (s : State) p => s.enter { kind := .snpinv, line := p.1, src := 194, dst := homeNode }) s

/-- Every cached copy of a granule's lines dropped with its dirty data, where its tile is given up (R46 step 3). -/
def State.discardGranule (s : State) (g : Nat) : State :=
  let keep := fun (p : Nat × L2Line) => !lineIn g p.1
  let s := (List.range 192).foldl (fun (s : State) t =>
    let x := (s.tile t).l2
    if x.lines.all keep && x.wb.all (fun p => !lineIn g p.1) then s
    else s.onTile t (fun x => { x with l2 := { x.l2 with lines := x.l2.lines.filter keep, wb := x.l2.wb.filter (fun p => !lineIn g p.1) } })) s
  { s with coh := { s.coh with filter := s.coh.filter.filter (fun p => !lineIn g p.1) } }

/-- Steps 1 and 2: the granule goes to SCRUBBING, every translation of it is removed and every copy of it recalled. -/
def State.scrub (s : State) (g : Nat) : State :=
  if entState (s.granule g) = 3 then s else ((s.changeGranule g entScrub).dropGranule g).recallGranule g

/-- Requests that passed the check before step 1, recalls and write-backs have not completed (step 3, R291). -/
def State.granuleBusy (s : State) (g : Nat) : Bool :=
  s.coh.hand.any (fun p => lineIn g p.1) || s.coh.net.any (fun m => lineIn g m.line) || s.coh.wait.any (fun m => lineIn g m.line)
    || s.tiles.any (fun (x : Tile) => x.l2.wb.any (fun p => lineIn g p.1))
    || s.hedom.inbox.any (fun p => decide (p.opc = 0x15) && lineIn g (lineOf (p.addr % 2 ^ 44)))

/-- Steps 4 and 5: the zero fill, and the new entry. -/
def State.refill (s : State) (g : Nat) (e : BitVec 16) : State :=
  if entState (s.granule g) = 3 then s
  else
    let a := granuleBase g
    let s := { s with mem := { s.mem with bytes := kvClear s.mem.bytes a (a + 0x200000), bad := s.mem.bad.filter (fun p => !lineIn g p.1) } }
    s.changeGranule g e

/-- A whole change at once, for the granules that change with their tile. -/
def State.moveGranule (s : State) (g : Nat) (e : BitVec 16) : State :=
  if entState (s.granule g) = 3 then s else (((s.changeGranule g entScrub).dropGranule g).discardGranule g).refill g e

def sliceGranules (t : Nat) : List Nat := rangeFrom (sliceFirst t) (sliceSize t)

/-- The keys that S loads into the rounding generators of a tile's arrays from its random source (06 R156). -/
def foldKeys (n t : Nat) : List (BitVec 128) := (List.range 8).map (fun j => BitVec.ofNat 128 (freeValue n 29 (8 * t + j)))

/-- The counters of the units that hold a Cloak's group key start at 0 when a key is installed (R318). -/
def State.newSealKey (s : State) (k : Nat) : State :=
  { s with fab := { s.fab with
      sealCnt := tabSet 0 s.fab.sealCnt k 0, glideCnt := (s.tilesOf k).foldl (fun (m : Kv Nat) t => kvSet 0 m t 0) s.fab.glideCnt } }

/-- A tile changes owner: its state is zeroed (R43, R93, R169, R215, R262), the tokens of its account lapse (R60), the key slots of its
Glide take the Cloak's keys (Table 2.6), its Lining granules change with it (R38), and the
Collar entries of the domains that gain or lose its partitions are invalidated (R272). -/
def State.moveTile (s : State) (t k : Nat) : State :=
  let old := s.tag t
  let s := (sliceGranules t).foldl (fun (s : State) g => s.moveGranule g (if k = 0 then entOpen else entAssigned k)) s
  let s := s.collarDrop (tileDie t) [old, k]
  let c := s.cloak k
  let s := { s with gov := { s.gov with lapsed := s.gov.lapsed + (s.tile t).acct.held } }
  let s := s.forget t (fun u => match u with | .cache _ _ => false | .gone _ _ => false | _ => true)
  let s := s.onTile t (fun x => { owner := BitVec.ofNat 7 k, acct := x.acct.emptied, glide := { offKey := c.offKey, grpKey := c.grpKey }, eng := { keys := foldKeys s.freeCtr t } })
  let s := { s with fab := { s.fab with glideCnt := kvSet 0 s.fab.glideCnt t 0 } }
  let words := rangeFrom (4 * t) 4
  { s with hedom := { s.hedom with dbpend := words.foldl (fun (l : List U64) w => if w < l.length then tabSet 0 l w 0 else l) s.hedom.dbpend } }

/-! ### Completion records (R44) -/

def CloakCmd.opcode : CloakCmd → Nat
  | .create _ _ => 0x01
  | .addTiles _ => 0x02
  | .addGranules _ => 0x03
  | .load _ _ _ => 0x04
  | .finalise => 0x05
  | .start => 0x06
  | .stop => 0x07
  | .resume => 0x08
  | .destroy => 0x09
  | .reclaim _ => 0x0A
  | .exit => 0x0B
  | .release _ => 0x0C
  | .rotateKey => 0x0D
  | .report _ _ => 0x0E
  | .getseal _ => 0x0F
  | .lalloc _ => 0x10
  | .lfree _ _ => 0x11
  | .lread _ _ => 0x12

/-- The result codes of Table 2.5. -/
def rOk : Nat := 0
def rBadState : Nat := 1
def rBadId : Nat := 2
def rBusy : Nat := 3
def rFenced : Nat := 4
def rDenied : Nat := 5
def rLimit : Nat := 6
def rQfull : Nat := 7
def rAborted : Nat := 8
def rUncorr : Nat := 9

/-- A completion record is written, and its issuer is told: H by a vector (R354), C by the event on its lowest-numbered tile. -/
def State.complete (s : State) (q : QCmd) (r n : Nat) : State :=
  let st := if q.id = 0 ∨ 64 < q.id then CloakSt.free else (s.cloak q.id).state
  let s := { s with cloaks := { s.cloaks with completions := s.cloaks.completions ++ [⟨q.by_, q.cmd.opcode, q.id, r, st, n⟩] } }
  match q.by_ with
  | .h => s.raiseSource 2
  | .c k => match s.tilesOf k with
    | t :: _ => s.coreEvent t .completion
    | [] => s
  | _ => s

/-- Who may issue a command (Tables 2.4 and 16.5, R356). -/
def CloakCmd.allowed (c : CloakCmd) (p : Principal) (id : Nat) : Bool :=
  let isH := decide (p = .h)
  let isM := decide (p = .m)
  let isC := decide (p = .c id)
  match c with
  | .stop => isH || isM
  | .resume => isH || isM
  | .destroy => isH || isM
  | .exit => isC
  | .release _ => isC
  | .rotateKey => isC
  | .report _ _ => isC
  | .getseal _ => isC
  | .lalloc _ => isC
  | .lfree _ _ => isC
  | .lread _ _ => isC
  | _ => isH

/-- The states that accept a command (Tables 2.4 and 16.5). -/
def CloakCmd.accepted (c : CloakCmd) (x : Cloak) : Bool :=
  let is := fun (l : List CloakSt) => l.contains x.state
  match c with
  | .create _ _ => is [.free]
  | .addTiles _ => is [.building]
  | .addGranules _ => is [.building, .ready, .running, .stopped]
  | .load _ _ _ => is [.building] && !x.loadUncorr
  | .finalise => is [.building] && !x.loadUncorr && decide (x.loadsOk ≠ 0)
  | .start => is [.ready]
  | .stop => is [.running, .stopped]
  | .resume => is [.stopped]
  | .destroy => is [.building, .ready, .running, .stopped]
  | .reclaim _ => is [.ready, .running, .stopped]
  | _ => is [.running]

/-! ### The checks of R44 -/

/-- A tile that another running ADD_TILES has still to take. -/
def State.tileWanted (s : State) (t : Nat) : Bool :=
  (rangeFrom 1 64).any (fun k => match (s.cloak k).run with
    | some r => (match r.q.cmd with | .addTiles _ => r.todo.contains t | _ => false)
    | none => false)

/-- A tile is idle: no engine stream, group or Glide stream is placed on it, and no open-domain thread. The spec gives no test for a thread
that is placed on a tile; the model takes it that one is where the C-core, its store queue or the LVU has an access outstanding (DESIGN
CHOICE, assumption 62). -/
def Tile.idle (x : Tile) : Bool :=
  x.eng.seq.run.isNone && x.eng.seq.queue.isEmpty && x.grp.resident.isEmpty && x.grp.queue.isEmpty
    && x.glide.streams.all (fun (g : GStream) => decide (g.state ≠ .running) && decide (g.state ≠ .halted) && decide (g.state ≠ .faulted))
    && x.core.storeQ.isEmpty && x.l2.out.isEmpty && x.lvu.queue.isEmpty

def mapTiles (m : BitVec 192) : List Nat := (List.range 192).filter (fun t => m.getLsbD t)

/-- A granule on which a list command can never act (Table 2.5). -/
def State.granuleNever (s : State) (g : Nat) : Bool :=
  decide (granuleCount ≤ g) || decide (entState (s.granule g) = 3) || (decide (g < 32768) && !s.fenced (sliceTile g))

def State.granuleWanted (s : State) (g : Nat) : Bool :=
  (rangeFrom 1 64).any (fun k => match (s.cloak k).run with
    | some r => (match r.q.cmd with | .addTiles _ => false | _ => r.todo.contains g)
    | none => false)

/-- Every granule that `len` bytes from `a` touch. -/
def granulesOf (a len : Nat) : List (Option Nat) :=
  if len = 0 then [] else (rangeFrom (a / 0x200000) ((a + len - 1) / 0x200000 - a / 0x200000 + 1)).map (fun i => granuleOf (i * 0x200000))

def State.rangeOpen (s : State) (a len : Nat) : Bool :=
  (granulesOf a len).all (fun g => match g with | some g => decide (entState (s.granule g) = 0) | none => false)
def State.rangeOwned (s : State) (k a len : Nat) : Bool :=
  (granulesOf a len).all (fun g => match g with | some g => decide (s.granule g = entAssigned k) | none => false)
def State.rangeHost (s : State) (a len : Nat) : Bool := s.hostIn a && s.hostIn (a + len - 1)

/-- An entry of the offload ledger (15 R356). -/
def State.ledger (s : State) (i : Nat) : LedgerEntry := kvGet {} s.hedom.ledger i

/-- The result of a command's first checks, OK where it may act (R44, Table 2.5). A Cloak reads entries of its own only (R356). A
granule listed twice is BUSY, and a LOAD of no bytes passes, completes with OK and counts as the LOAD that FINALISE needs: DESIGN
CHOICE (assumption 62). -/
def State.cmdCheck (s : State) (k : Nat) (c : CloakCmd) : Nat :=
  match c with
  | .addTiles m =>
    let l := mapTiles m
    if l.any s.fenced then rFenced
    else if l.any (fun t => decide (s.tag t ≠ 0) || !(s.tile t).idle || s.tileWanted t) then rBusy
    else rOk
  | .addGranules l =>
    if l.any s.granuleNever then rDenied
    else if 256 < l.length then rLimit
    else if l.any (fun g => decide (entState (s.granule g) ≠ 0) || s.granuleWanted g) || !decide l.Nodup then rBusy
    else rOk
  | .reclaim l =>
    if l.any s.granuleNever then rDenied
    else if 256 < l.length then rLimit
    else if l.any (fun g => decide (s.granule g ≠ entAssigned k)) || !decide l.Nodup then rBusy
    else rOk
  | .release l =>
    if l.any s.granuleNever then rDenied
    else if 256 < l.length then rLimit
    else if l.any (fun g => decide (s.granule g ≠ entAssigned k)) || !decide l.Nodup then rBusy
    else rOk
  | .load src len dst =>
    if !(s.rangeOpen src len || s.rangeHost src len) then rDenied
    else if !s.rangeOwned k dst len then rLimit
    else rOk
  | .report _ dst => if s.rangeOwned k dst 1616 then rOk else rDenied
  | .getseal dst => if s.rangeOwned k dst 32 then rOk else rDenied
  | .lread i dst => if s.rangeOwned k dst 16 && decide ((s.ledger i).owner.toNat = k) then rOk else rDenied
  | _ => rOk

/-! ### The ledger (15 R356) -/

def ledgerSize : Nat := 262144
def State.setLedger (s : State) (i : Nat) (e : LedgerEntry) : State :=
  { s with hedom := { s.hedom with ledger := kvSet {} s.hedom.ledger i e } }

/-- Entries held by a Cloak (object 0x1E04), and not FREE (0x1E02.02). -/
def State.ledgerHeld (s : State) (k : Nat) : Nat :=
  countIf (fun (p : Nat × LedgerEntry) => decide (p.2.st ≠ .free) && decide (p.2.owner.toNat = k)) s.hedom.ledger
def State.ledgerUsed (s : State) : Nat := countIf (fun (p : Nat × LedgerEntry) => decide (p.2.st ≠ .free)) s.hedom.ledger

/-- The end of a run of FREE entries: the first index at or after `i` below which `n` entries are FREE, by the entries that
are not FREE in ascending order. -/
def ledgerFit (n : Nat) : Nat → List Nat → Option Nat
  | at_, [] => if at_ + n ≤ ledgerSize then some at_ else none
  | at_, u :: us => if at_ + n ≤ u then some at_ else ledgerFit n (Nat.max at_ (u + 1)) us

/-- The lowest run of `n` FREE entries (R356: first fit). -/
def State.ledgerRun (s : State) (n : Nat) : Option Nat :=
  ledgerFit n 0 ((s.hedom.ledger.filter (fun p => decide (p.2.st ≠ .free))).map (·.1))

def LedgerSt.code : LedgerSt → Byte
  | .free => 0
  | .empty => 1
  | .sealing => 2
  | .sealed => 3

def entryBytes (e : LedgerEntry) : Bytes :=
  natLe 4 e.version.toNat ++ natLe 4 e.ntiles.toNat
    ++ [e.st.code, e.owner] ++ List.replicate 6 0

/-- Every entry of a Cloak set to FREE; VERSION is kept (R356). -/
def State.ledgerDrop (s : State) (k : Nat) : State :=
  s.hedom.ledger.foldl (fun (s : State) p =>
    if p.2.st ≠ .free ∧ p.2.owner.toNat = k then s.setLedger p.1 { p.2 with st := .free, owner := 0 } else s) s

/-! ### Token shares (R64) -/

/-- A share as it is stored: clamped to 9,000, and so that all shares stay within the assignable budget. -/
def State.shareClamp (s : State) (k v : Nat) : Nat :=
  let others := sumNat (((rangeFrom 1 64).filter (fun j => decide (j ≠ k))).map (fun j => s.obj 0x1202 j))
  Nat.min v (Nat.min 9000 (s.gov.assignable - others))

/-! ### Coarsening (R55) -/

/-- The last Cloak ID becomes FREE (R55). -/
def State.noteFree (s : State) : State :=
  if s.liveCloaks.isEmpty then { s with cloaks := { s.cloaks with coarse := { s.cloaks.coarse with freeAt := some s.gov.tick } } } else s

/-! ### The destroy sequence (R46) -/

/-- Every tile of a Cloak halted, for STOP and for step 1. -/
def State.haltTiles (s : State) (k : Nat) (h : Bool) : State :=
  (s.tilesOf k).foldl (fun (s : State) t => s.onTile t (fun x => { x with halted := h })) s

/-- The destroy sequence begins. The tiles of a RUNNING Cloak halt first, as for STOP (step 1): its streams are stopped, and steps 1 and 2 end
when every unit has reached its boundary. No unit of another Cloak runs, so it is halted and its keys are cleared at once. -/
def State.beginDestroy (s : State) (k : Nat) (byDevice : Bool) : State :=
  let run := decide ((s.cloak k).state = .running)
  let s := s.onCloak k (fun c => { c with state := .destroying, selfDestroy := byDevice })
  if run then (s.tilesOf k).foldl State.stopStreams s else (s.haltTiles k true).clearCloakKeys k

/-- Steps 1 and 2 have still to end: a key of the Cloak exists. -/
def State.halting (s : State) (k : Nat) : Bool := (s.cloak k).root.isSome

/-- Every unit of a Cloak stands at its boundary. -/
def State.allQuiet (s : State) (k : Nat) : Bool := (s.tilesOf k).all (fun t => (s.tile t).quiet)

/-- The end of steps 1 and 2 of a Cloak whose tiles halt: where every unit has reached its boundary, the tiles are halted and every key is
cleared. -/
def State.haltDestroyed (s : State) (k : Nat) : State :=
  let s := (s.tilesOf k).foldl State.stopStreams s
  if s.allQuiet k then ((s.tilesOf k).foldl State.stopTile s).clearCloakKeys k else s

/-- An answer is still due to a tile of the Cloak (step 7; R430), or a granule whose change was interrupted is still being recalled. -/
def State.answersDue (s : State) (k : Nat) : Bool :=
  let mine := fun (x : RTxn) => match x.user.tile? with | some t => decide (s.tag t = k) | none => false
  s.fab.txns.any mine || s.hedom.txns.any mine
    || s.coh.net.any (fun m => (decide (m.src < 192) && decide (s.tag m.src = k)) || (decide (m.dst < 192) && decide (s.tag m.dst = k)))
    || s.coh.hand.any (fun p => decide (p.2.msg.src < 192) && decide (s.tag p.2.msg.src = k))
    || s.coh.wait.any (fun m => decide (m.src < 192) && decide (s.tag m.src = k))
    || (s.cloak k).inHand.any s.granuleBusy

/-- The granules that are ASSIGNED to a Cloak. -/
def State.granulesHeld (s : State) (k : Nat) : List Nat :=
  (s.cloaks.granules.filter (fun p => decide (p.2 = entAssigned k))).map (·.1)

/-- The reductions of a Cloak's group fail, and the sums that the router holds of them are dropped (R5, R335; DESIGN CHOICE, assumption 33). -/
def State.dropReductions (s : State) (k : Nat) : State :=
  match (s.cloak k).group with
  | none => s
  | some g => ((List.range 64).filter (fun i => decide (redState (s.redEntry i) = 1 ∨ redState (s.redEntry i) = 3) && decide (redGroup (s.redEntry i) = g))).foldl State.redFail s

/-- Steps 3 to 8. -/
def State.endDestroy (s : State) (k : Nat) : State :=
  let tiles := s.tilesOf k
  let s := s.dropReductions k
  let s := (s.granulesHeld k ++ (s.cloak k).inHand).foldl (fun (s : State) g => s.moveGranule g entOpen) s
  let s := tiles.foldl (fun (s : State) t => s.moveTile t 0) s
  let s := [0, 1].foldl (fun (s : State) d => s.collarDrop d [k]) s
  let s := s.ledgerDrop k
  let s := { s with logs := { s.logs with c := tabSet ({} : ErrLog) s.logs.c k {} } }
  let s := s.setObj 0x1202 k 0
  let s := s.setCloak k {}
  { s with mem := { s.mem with gone := s.mem.gone.filter (fun p => decide (p.1 ≠ k)) } }.noteFree

/-! ### The command engine (R44) -/

/-- A command leaves its Cloak's run, with its record. -/
def State.finishRun (s : State) (k r n : Nat) : State :=
  match (s.cloak k).run with
  | none => s
  | some x => (s.onCloak k (fun c => { c with run := none })).complete x.q r n

/-- The granule at the head of a run begins its change (R41 step 1). -/
def State.startHead (s : State) (k : Nat) : State :=
  match (s.cloak k).run with
  | some r => (match r.q.cmd, r.todo with
    | .addTiles _, t :: _ => (sliceGranules t).foldl State.scrub s
    | _, g :: _ => s.scrub g
    | _, [] => s)
  | none => s

/-- A write of S to a Cloak's memory, through the line's home. -/
def State.sWrite (s : State) (a : Nat) (b : Bytes) : State := (s.cohWrite 0xFFFE a false b).2

/-- A command that writes `n` bytes of a Cloak's memory for it: done where the lines are at rest; otherwise it stands at the front of its queue
again, with the snoops that it has asked for. -/
def State.sWriteCmd (s : State) (q : QCmd) (a : Nat) (b : Bytes) : State :=
  match s.cohWrite 0xFFFE a false b with
  | (.wait, u) => { s.asks u with cloaks := { s.cloaks with queue := q :: s.cloaks.queue } }
  | (_, u) => u.complete q rOk 0

/-- A command at the front takes effect or begins (R43). An empty map or list completes with OK and a count of 0, and after START every
tile of the Cloak takes C-core commands: DESIGN CHOICE (assumption 62). In Snowplough every command is denied (Table 2.5). -/
def State.begin (s : State) (q : QCmd) : State :=
  let k := q.id
  let c := s.cloak k
  let r := s.cmdCheck k q.cmd
  let run (todo : List Nat) : State := (s.onCloak k (fun c => { c with run := some { q := q, todo := todo } })).startHead k
  if s.boot.st = .snowplough || (decide (q.cmd.opcode = 1) && (s.unlock.flag || s.unlock.busy)) then s.complete q rDenied 0
  else if !q.cmd.accepted c then
    s.complete q (match q.cmd with | .create _ _ => rBadId | _ => rBadState) 0
  else if r ≠ rOk then s.complete q r 0
  else
    match q.cmd with
    | .create share hybrid =>
      let share := s.shareClamp k share
      let s := s.setCloak k (Cloak.makeKeys { state := .building, hybrid := hybrid } k s.freeCtr)
      ((s.setObj 0x1202 k share).startCoarse).complete q rOk 0
    | .addTiles m => if (mapTiles m).isEmpty then s.complete q rOk 0 else run (mapTiles m)
    | .addGranules l => if l.isEmpty then s.complete q rOk 0 else run l
    | .reclaim l => if l.isEmpty then s.complete q rOk 0 else run l
    | .release l => if l.isEmpty then s.complete q rOk 0 else run l
    | .load _ _ _ => run []
    | .finalise =>
      if (s.tilesOf k).isEmpty then s.complete q rBadState 0
      else
        let s := s.onCloak k (fun c => (Cloak.requestKeys { c with measurement := measFinal c.measurement c.hybrid c.entry, rseq := 0 } s.freeCtr))
        { s.onCloak k (fun c => { c with run := some { q := q } }) with fw := { s.fw with signing := s.fw.signing ++ [.finalise k] } }
    | .start =>
      let s := s.onCloak k (fun c => { c with state := .running })
      let s := s.haltTiles k false
      let s := match s.tilesOf k with
        | t :: _ => s.onTile t (fun x => { x with core := { x.core with pc := c.entry, released := true } })
        | [] => s
      s.complete q rOk 0
    | .stop => if c.state = .stopped then s.complete q rOk 0 else (s.tilesOf k).foldl State.stopStreams (run [])
    | .resume =>
      if c.stoppedBy = some .m ∧ q.by_ = .h then s.complete q rDenied 0
      else
        ((s.tilesOf k).foldl (fun (s : State) t => s.onTile t Tile.resume)
          (s.onCloak k (fun c => { c with state := .running, stoppedBy := none }))).complete q rOk 0
    | .destroy => (s.onCloak k (fun c => { c with run := some { q := q } })).beginDestroy k false
    | .exit => (s.onCloak k (fun c => { c with run := some { q := q } })).beginDestroy k false
    | .rotateKey =>
      let s := s.onCloak k (fun c => Cloak.requestKeys { c with rseq := c.rseq + 1, run := some { q := q } } s.freeCtr)
      { s with fw := { s.fw with signing := s.fw.signing ++ [.rotate k] } }
    | .report rdata dst =>
      { s.onCloak k (fun c => { c with run := some { q := q } }) with fw := { s.fw with signing := s.fw.signing ++ [.report k rdata dst] } }
    | .getseal dst =>
      s.sWriteCmd q dst (natBe 32 (s.sealKey k).toNat)
    | .lalloc n =>
      if n = 0 ∨ 65536 < n ∨ s.obj 0x1E01 k < s.ledgerHeld k + n then s.complete q rLimit 0
      else match s.ledgerRun n with
        | none => s.complete q rLimit 0
        | some i =>
          let s := (rangeFrom i n).foldl (fun (s : State) j => s.setLedger j { s.ledger j with st := .empty, owner := BitVec.ofNat 8 k }) s
          s.complete q rOk i
    | .lfree i n =>
      if (rangeFrom i n).any (fun j => decide (ledgerSize ≤ j) || decide ((s.ledger j).st = .free) || decide ((s.ledger j).owner.toNat ≠ k)) then
        s.complete q rDenied 0
      else ((rangeFrom i n).foldl (fun (s : State) j => s.setLedger j { s.ledger j with st := .free, owner := 0 }) s).complete q rOk 0
    | .lread i dst =>
      s.sWriteCmd q dst (entryBytes (s.ledger i))

/-- The first waiting command of a Cloak ID, and the queue without it. -/
def takeCmd (k : Nat) : List QCmd → Option (QCmd × List QCmd)
  | [] => none
  | q :: qs =>
    if q.id = k then some (q, qs)
    else match takeCmd k qs with
      | some (x, r) => some (x, q :: r)
      | none => none

/-- Commands of a Cloak ID are taken in order of arrival while none runs for it (`fuel` bounds their number). -/
def State.pump (s : State) (k : Nat) : Nat → State
  | 0 => s
  | fuel + 1 =>
    if (s.cloak k).run.isSome || decide ((s.cloak k).state = .destroying) then s
    else match takeCmd k s.cloaks.queue with
      | none => s
      | some (q, r) => ({ s with cloaks := { s.cloaks with queue := r } }.begin q).tick1.pump k fuel

def State.pumpAll (s : State) (k : Nat) : State := s.pump k (s.cloaks.queue.length + 1)

/-- A command ends with its record, and the next of its Cloak starts. -/
def State.endRun (s : State) (k r n : Nat) : State := (s.finishRun k r n).pumpAll k

/-- A DESTROY or EXIT of the Cloak waits in a queue (R44). -/
def State.destroyWaits (s : State) (k : Nat) : Bool :=
  s.cloaks.queue.any (fun q => decide (q.id = k) && (decide (q.cmd = .destroy) || decide (q.cmd = .exit)))

/-- A command arrives (R44): the engine serves it when the device is READY. A DESTROY of a DESTROYING Cloak completes at once, whatever
stands in the queue (R43). -/
def State.arrive (s : State) (p : Principal) (id : Nat) (c : CloakCmd) : State :=
  let q : QCmd := ⟨p, id, c⟩
  if s.boot.st = .snowplough then s.complete q rDenied 0
  else if !s.ready then s
  else if c = .destroy ∧ c.allowed p id = true ∧ 0 < id ∧ id ≤ 64 ∧ (s.cloak id).state = .destroying then s.complete q rOk 0
  else if 16 ≤ countIf (fun (x : QCmd) => decide (x.by_ = p)) s.cloaks.queue then s.complete q rQfull 0
  else if !c.allowed p id then s.complete q rDenied 0
  else if id = 0 ∨ 64 < id then s.complete q rBadId 0
  else { s with cloaks := { s.cloaks with queue := s.cloaks.queue ++ [q] } }.pumpAll id

end Sys2Proof.Machine
end

