-- ==== Sys2Proof/Machine/BootOps.lean ====
section
/-!
DEFINITION. Machine/BootOps.lean: resets, start-up steps, Snowplough, trips and rail faults (20 R433 to R449), and firmware
verification (16 R361 to R373), as operations that commands share.
-/
namespace Sys2Proof.Machine
open Sys2Proof

/-! ### UART lines (R466, R445) -/

def State.uart (s : State) (l : String) : State := { s with pins := { s.pins with uart := s.pins.uart ++ [l] } }

def digit (n : Nat) : Char := Char.ofNat (if n < 10 then 48 + n else 55 + n)

/-- A number in `n` digits of a base. -/
def digits (base : Nat) : Nat → Nat → List Char
  | 0, _ => []
  | n + 1, v => digits base n (v / base) ++ [digit (v % base)]

def stepLine (step : Nat) (ok : Bool) : String :=
  "LAP96 STEP " ++ String.ofList (digits 10 2 step) ++ (if ok then " ok" else " fail")

/-! ### Failure records (R440) -/

def failRecord (step src reason unit_ : Nat) : U32 :=
  BitVec.ofNat 32 (step % 16 * 2 ^ 28 + src % 256 * 2 ^ 20 + reason % 16 * 2 ^ 16 + unit_ % 2 ^ 16)

def frStep (r : U32) : Nat := field r.toNat 31 28
def frSrc (r : U32) : Nat := field r.toNat 27 20
def frReason (r : U32) : Nat := field r.toNat 19 16
def frUnit (r : U32) : Nat := field r.toNat 15 0

/-- The records in step order, and within a step in ascending UNIT (R441). -/
def insertFail (r : U32) : List U32 → List U32
  | [] => [r]
  | x :: t => if frStep r < frStep x ∨ (frStep r = frStep x ∧ frUnit r < frUnit x) then r :: x :: t else x :: insertFail r t

/-- A record kept: the first 32 of a start, the others counted (R441). -/
def Boot.keepFail (b : Boot) (r : U32) : Boot :=
  let l := insertFail r b.fails
  { b with fails := l.take 32, unstored := if 32 < l.length then Nat.min (b.unstored + 1) 65535 else b.unstored }

/-! ### Resets (R433) -/

/-- The dictionary values that a reset keeps: those with Persist aon, and with Persist fuse (R390). -/
def keptObjs (o : Kv (Option Nat)) : Kv (Option Nat) :=
  o.filter (fun p => match catRow (p.1 / 256) (p.1 % 256) with | some r => decide (r.persist ≠ 0) | none => false)

/-- A side-band session freed, with all that it held (R404). -/
def Session.freed : Session := {}

/-- The associated data of a protected frame (R401): the Ethernet header and the side-band header. -/
def State.frameAad (s : State) (dst src : BitVec 48) (type sid cnt len : Nat) : Bytes :=
  natBe 6 dst.toNat ++ natBe 6 src.toNat ++ natBe 2 (s.obj 0x2000 5) ++ [1, BitVec.ofNat 8 type] ++ natLe 2 sid ++ natLe 4 cnt
    ++ natLe 2 len ++ [0, 0]

/-- A protected frame sent to a session's manager, where the PHY transmits (R463; R401, R405): the device's counter is 0 in ACCEPT and rises by one for each
later frame. -/
def State.sbSend (s : State) (i : Nat) (type : Nat) (body : Bytes) : State :=
  let x := tabGet ({} : Session) s.sb.sessions i
  let cnt := if type = 0x13 then 0 else x.txCnt + 1
  let nonce := x.saltOut.toNat * 2 ^ 64 + cnt.toNat
  let aad := s.frameAad x.mac s.fuses.mac type x.sid.toNat cnt.toNat body.length
  let f : SbFrame := { slot := i, dst := x.mac, type := type, sid := x.sid, cnt := cnt
                       body := Crypto.gcmSeal x.keyOut.toNat nonce aad body, tag := Crypto.gcmTag x.keyOut.toNat nonce aad body }
  { s with sb := { s.sb with sessions := tabSet ({} : Session) s.sb.sessions i { x with txCnt := cnt }, sent := if s.pins.refLost.getLsbD 2 then s.sb.sent else s.sb.sent ++ [f] } }

/-- An open session ends: its slot is freed, and what its source has kept in the dictionary with it (R404, R391). -/
def State.sbEnd (s : State) (i : Nat) : State :=
  { s with sb := { s.sb with sessions := tabSet ({} : Session) s.sb.sessions i Session.freed }
           dict := { s.dict with query := kvSet 0 s.dict.query (i + 1) 0 } }

/-- A CLOSE sent and its slot freed (Table 18.2 reasons; R404). -/
def State.sbClose (s : State) (i reason : Nat) : State := (s.sbSend i 0x23 [BitVec.ofNat 8 reason]).sbEnd i

/-- The signature of a CHALLENGE, which goes out after a cold reset too (R402, R404). -/
def SignJob.isChallenge : SignJob → Bool
  | .challenge _ => true
  | _ => false

/-- What a cold reset leaves (Table 20.1): the aon store, HOLD, fuses, flash, credentials and side-band sessions are kept;
everything else takes its reset value. The F session is closed (R404). -/
def State.afterCold (s : State) : State :=
  let s := if (tabGet ({} : Session) s.sb.sessions 4).st = SessSt.opened then s.sbClose 4 7 else s
  let r : State := State.reset
  let r := { r with
    ident := { sGrade := s.ident.sGrade, sort := s.ident.sort }
    objs := keptObjs s.objs
    fuses := s.fuses
    fw := { flash := s.fw.flash, fingerprint := s.fw.fingerprint, signing := s.fw.signing.filter SignJob.isChallenge }
    dict := { hold := s.dict.hold, creds := s.dict.creds, parity := s.dict.parity }
    sb := s.sb
    gov := { uptime := s.gov.uptime }
    boot := { starts := s.boot.starts, held := s.boot.held, aonOk := s.boot.aonOk }
    pins := { pkgId := s.pins.pkgId, sbNode := s.pins.sbNode, sbEnrol := s.pins.sbEnrol, uart := s.pins.uart
              setPending := s.pins.setPending, vrails := s.pins.vrails }
    freeCtr := s.freeCtr
    pending := s.pending }
  (r.setObj 0x1C00 1 s.pins.pkgId.toNat).setObj 0x2300 1 s.pins.pkgId.toNat

/-- The power-up sequence starts at step 1 (R435). -/
def State.startSequence (s : State) : State :=
  { s with boot := { s.boot with st := .boot, step := 1, starts := Nat.min (s.boot.starts + 1) (2 ^ 32 - 1) } }

/-- A cold reset (R433): within 10 s of a trip it waits (R447); while RESET_N is low the sequence waits (R434). -/
def State.coldReset (s : State) : State :=
  if s.boot.holdoff then { s with boot := { s.boot with waitingReset := true } }
  else
    let s := s.afterCold
    if s.boot.held then s else s.startSequence

/-- What a power-on reset leaves: nothing is kept but what is fixed for the package and what stands on the board. -/
def State.afterPowerOn (s : State) : State :=
  let r : State := State.reset
  let r := { r with
    ident := { sGrade := s.ident.sGrade, sort := s.ident.sort }
    fuses := s.fuses
    fw := { flash := s.fw.flash, fingerprint := s.fw.fingerprint }
    pins := { pkgId := s.pins.pkgId, sbNode := s.pins.sbNode, sbEnrol := s.pins.sbEnrol, uart := s.pins.uart }
    boot := { held := s.boot.held }
    freeCtr := s.freeCtr
    pending := s.pending }
  let n := s.pins.sbNode.toNat
  ((r.setObj 0x1C00 1 s.pins.pkgId.toNat).setObj 0x2300 1 s.pins.pkgId.toNat).setObj 0x2000 2 (if n = 0 then 1 else n)

/-! ### Loss of Cloaks (R47) -/

/-- The granules that a running command has in SCRUBBING: those of the tile or granule at its head (R41). -/
def CloakRun.hand (r : CloakRun) : List Nat :=
  match r.q.cmd, r.todo with
  | .addTiles _, t :: _ => sliceGranules t
  | _, g :: _ => [g]
  | _, [] => []

/-- A command that runs for a Cloak ends when the device destroys it (R44), and so does its signature; what it had in hand is left to the
destroy sequence. -/
def State.abortRun (s : State) (k : Nat) : State :=
  match (s.cloak k).run with
  | none => s
  | some r =>
    ({ s with fw := { s.fw with signing := s.fw.signing.filter (fun j => decide (j.cloak? ≠ some k)) } }.onCloak k (fun c => { c with inHand := r.hand })).finishRun k
      rAborted r.count

/-- A destroy sequence that the device starts (R46, R47). -/
def State.deviceDestroy (s : State) (k : Nat) : State :=
  if (s.cloak k).state = .destroying then s else (s.abortRun k).beginDestroy k true

/-! ### Snowplough (R444, R445) -/

/-- A FATAL record reaches every log (R445 step 5). -/
def State.fatal (s : State) (r : U32) : State :=
  let e : ErrRec := { cls := 9, src := BitVec.ofNat 8 (frSrc r), flags := 4, detail := BitVec.ofNat 24 (field r.toNat 31 16) }
  let live := s.liveCloaks
  let s := s.error e
  let e := { e with time := BitVec.ofNat 64 s.now }
  live.foldl (fun (s : State) k =>
    { s with logs := { s.logs with c := tabSet ({} : ErrLog) s.logs.c k ((tabGet ({} : ErrLog) s.logs.c k).push e) } }) s

/-- Entry to Snowplough (R445), in the order of its steps. -/
def State.snowplough (s : State) (r : U32) : State :=
  let live := s.liveCloaks
  let s := live.foldl (fun (s : State) k => s.clearCloakKeys k) s
  let s := live.foldl (fun (s : State) k => (s.deviceDestroy k).haltTiles k true) s
  let s := { s with boot := { s.boot with st := .snowplough, record := r } }
  let s := (s.alert 6).fatal r
  s.uart ("LAP96 SNOWPLOUGH " ++ String.ofList (digits 16 8 r.toNat))

/-- What stands on the main rails is lost with them (R47). The test ports of the stacks stay closed until a cold reset
(R259), and coarsening ends as R55 says, every Cloak ID being FREE now. -/
def State.loseMain (s : State) : State :=
  let r : State := State.reset
  let held := sumNat (s.tiles.map (fun (x : Tile) => x.acct.held))
  let c := s.cloaks.coarse
  { s with
    gov := { s.gov with lapsed := s.gov.lapsed + held }, tiles := []
    cloaks := { r.cloaks with coarse := if s.liveCloaks.isEmpty then c else { c with freeAt := some s.gov.tick } }
    mem := { portsClosed := s.mem.portsClosed }, coh := {}, collars := {}, fab := {}, hedom := {} }

/-- A trip (R447): THERMTRIP_N is asserted, every Cloak key is cleared and the rails are disabled, with which
every Cloak is lost (R47). -/
def State.trip (s : State) (src unit_ : Nat) : State :=
  if s.boot.thermtrip then s
  else
    let r := failRecord 0 src 3 unit_
    let s := s.liveCloaks.foldl (fun (s : State) k => s.clearCloakKeys k) s
    let s := { s with boot := { s.boot with st := .tripped, record := r, thermtrip := true, rails := 0, mainOk := false, holdoff := true } }
    let s := s.alert 7
    (s.error { cls := 7, src := BitVec.ofNat 8 src, flags := 4, munit := BitVec.ofNat 8 unit_, detail := BitVec.ofNat 24 (field r.toNat 31 16) }).loseMain

/-- A rail fault (R449): recorded; the rails go off with a cold reset, and the sequence runs again after 1 s. A second one
within 60 s of READY, or while the sequence that follows the first is at step 6, ends in Snowplough with the rails off. -/
def State.railFault (s : State) (rail : Nat) : State :=
  let again := s.boot.railFailed && (match s.boot.readyAt with | some t => decide (s.gov.uptime < t + 6000000) | none => true)
  let r := failRecord 0 0x05 2 rail
  let s := s.error { cls := 8, src := 0x05, munit := BitVec.ofNat 8 rail, detail := BitVec.ofNat 24 (field r.toNat 31 16) }
  if again then
    let s := s.liveCloaks.foldl (fun (s : State) k => s.clearCloakKeys k) s
    ({ s with boot := { s.boot with rails := 0, mainOk := false } }.alert 8).loseMain.snowplough r
  else
    let s := s.afterCold
    let s := { s with boot := { (s.boot.keepFail r) with st := .off, railFault := true, railFailed := true } }
    s.alert 8

/-! ### Firmware verification (16 R370 to R373) -/

/-- A slot's base in the flash, and where its CFW or DFW image begins (Table 16.7). -/
def imageBase (slot : Nat) (dfw : Bool) : Nat := (if slot = 0 then 0x0100000 else 0x1100000) + (if dfw then 0x100000 else 0)

/-- The result of Table 16.9 for an image (R371): 0 where it is acceptable. -/
def State.imageCheck (s : State) (slot : Nat) (dfw : Bool) : Nat :=
  let a := imageBase slot dfw
  let h := memRead s.fw.flash a 256
  let u := fun (i n : Nat) => leNat ((h.drop i).take n)
  let len := u 16 4
  let key := (h.drop 112).take 65
  let slotKey := (h.getD 7 0).toNat
  if h.take 4 ≠ ascii "LAPF" ∨ u 4 2 ≠ 1 ∨ u 6 1 ≠ (if dfw then 2 else 1) ∨ (if dfw then 8388608 else 524288) < len then 0x11
  else if 4 ≤ slotKey ∨ s.fuses.revoked.getLsbD slotKey then 0x12
  else if Crypto.sha256 key ≠ tabGet 0 s.fuses.keyHash slotKey then 0x13
  else if !Crypto.verify key (h.take 192) (h.drop 192) then 0x14
  else if u 8 4 < (if dfw then s.fuses.dfwCounter else s.fuses.cfwCounter) ∨ 64 < u 8 4 then 0x15
  else if natBe 48 (Crypto.sha384 (memRead s.fw.flash (a + 256) len)).toNat ≠ (h.drop 64).take 48 then 0x16
  else 0

/-- A valid selector copy: its sequence number and preferred slot (R372). -/
def State.selector (s : State) (i : Nat) : Option (U32 × Nat) :=
  let b := memRead s.fw.flash (0x10000 + 0x1000 * i) 16
  if b.take 4 = ascii "LAPS" ∧ leNat (b.drop 12) = crc32c (b.take 12) ∧ (b.getD 8 0).toNat ≤ 1 then
    some (BitVec.ofNat 32 (leNat ((b.drop 4).take 4)), (b.getD 8 0).toNat)
  else none

/-- The copy that governs: the higher sequence number in serial arithmetic, copy 0 where they are equal (R372). -/
def State.governing (s : State) : Option Nat :=
  match s.selector 0, s.selector 1 with
  | none, none => none
  | some _, none => some 0
  | none, some _ => some 1
  | some a, some b => if b.1 ≠ a.1 ∧ (b.1 - a.1).toNat < 0x80000000 then some 1 else some 0

/-- The preferred slot. -/
def State.preferred (s : State) : Nat :=
  match s.governing with
  | some i => (match s.selector i with | some x => x.2 | none => 0)
  | none => 0

def State.slotUsable (s : State) (slot : Nat) : Bool := decide (s.imageCheck slot false = 0) && decide (s.imageCheck slot true = 0)

def State.imageField (s : State) (slot : Nat) (dfw : Bool) (i n : Nat) : Nat := leNat (memRead s.fw.flash (imageBase slot dfw + i) n)

def measOf (b : Bytes) : BitVec 384 := BitVec.ofNat 384 (leNat b.reverse)

/-- The identity region of the boot flash (Table 16.7). -/
def State.identityRegion (s : State) : Bytes := memRead s.fw.flash 0 65536

/-- A P-256 private key from the 48 bytes that a derivation gives (R362). -/
def scalarOf (o : Bytes) : Nat := Crypto.beVal o % (Crypto.p256Order - 1) + 1

/-- The name of a layer's certificate (R364): 16 digits of the hash of its key follow the layer's name. -/
def certName (layer : String) (key : Bytes) : String :=
  "LAP96 " ++ layer ++ " " ++ String.ofList (digits 16 16 ((Crypto.sha256 key).toNat / 2 ^ 192))

/-- The serial number of a certificate (R364): 20 bytes of the hash of its key, bit 7 of the first one cleared. -/
def certSerial (key : Bytes) : Bytes := natBe 20 ((Crypto.sha256 key).toNat / 2 ^ 96 % 2 ^ 159)

/-- A certificate that the device generates (R364, Table 16.3), signed with the issuer's key: a CA of path length 0 for the L1
alias, none for attestation. -/
def issueCert (issuer layer : String) (priv : Nat) (key : Bytes) (ca : Bool) (tcb : String × Nat × BitVec 384) : Bytes :=
  let c : Cert := { serial := certSerial key, issuer := issuer, subject := certName layer key, key := key
                    notBefore := "20000101000000Z", notAfter := "99991231235959Z"
                    ca := ca, pathLen := if ca then some 0 else none, keyCertSign := ca, digitalSignature := !ca, tcb := tcb }
  Crypto.derCert (Crypto.derTbs c) (Crypto.sign priv (Crypto.derTbs c))

/-- The stored certificates, where both checks of R365 pass: the DeviceID certificate names the key that L0 derived, and verifies
under the device CA's. -/
def State.storedChain (s : State) (pub : Bytes) : Option Bytes :=
  match Crypto.identityCerts s.identityRegion with
  | none => none
  | some (ca, dev) =>
    if Crypto.certKey dev = pub ∧ Crypto.verify (Crypto.certKey ca) (Crypto.certTbs dev) (Crypto.certSig dev) = true then some (ca ++ dev) else none

/-- The layers run from a slot (R361 to R365): the secrets of Table 16.2 are derived, the certificates of L0 and L1 are signed, and
the UDS is locked. -/
def State.runSlot (s : State) (slot : Nat) : State :=
  let cm := measOf (memRead s.fw.flash (imageBase slot false + 64) 48)
  let dm := measOf (memRead s.fw.flash (imageBase slot true + 64) 48)
  let csvn := s.imageField slot false 8 4
  let dsvn := s.imageField slot true 8 4
  let uds := natBe 32 s.fuses.uds.toNat
  let none48 := List.replicate 48 (0 : Byte)
  let devid := scalarOf (Crypto.hkdf384 none48 uds (ascii "lap96 devid") 48)
  let cdi1 := Crypto.hkdf384 (natBe 48 cm.toNat) uds (ascii "lap96 cdi1" ++ natLe 4 csvn) 32
  let cdi2 := Crypto.hkdf384 (natBe 48 dm.toNat) cdi1 (ascii "lap96 cdi2" ++ natLe 4 dsvn) 32
  let alias_ := scalarOf (Crypto.hkdf384 none48 cdi1 (ascii "lap96 alias") 48)
  let att := scalarOf (Crypto.hkdf384 none48 cdi2 (ascii "lap96 attest") 48)
  let pub := Crypto.publicKey devid
  let aliasPub := Crypto.publicKey alias_
  let own := issueCert (certName "DEVID" pub) "ALIAS" devid aliasPub true ("LAP96-CFW", csvn, cm)
    ++ issueCert (certName "ALIAS" aliasPub) "ATTEST" alias_ (Crypto.publicKey att) false ("LAP96-DFW", dsvn, dm)
  let stored := s.storedChain pub
  { s with fw := { s.fw with
      slot := slot, cfwSvn := csvn, dfwSvn := dsvn, cfwMeas := cm, dfwMeas := dm
      cfwKeyIdx := s.imageField slot false 7 1, cfwRevoke := BitVec.ofNat 4 (s.imageField slot false 20 1)
      cdi2 := some (BitVec.ofNat 256 (Crypto.beVal cdi2)), attKey := some (BitVec.ofNat 384 att), udsLocked := true
      fingerprint := Crypto.sha256 pub
      chainStatus := if stored.isSome then 0 else 1
      chain := (stored.getD []) ++ own } }

/-- Step 4 (R373): the preferred slot, then the other; neither usable runs the ROM service. -/
def State.bootFirmware (s : State) : Option State :=
  let a := s.preferred
  if s.slotUsable a then some (s.runSlot a)
  else if s.slotUsable (1 - a) then some (s.runSlot (1 - a))
  else none

end Sys2Proof.Machine
end

