-- ==== Sys2Proof/Machine/EnergyOps.lean ====
section
/-!
DEFINITION. Machine/EnergyOps.lean: budgets, modes and grants (19 R413 to R424).
-/
namespace Sys2Proof.Machine
open Sys2Proof

/-! ### Modes and budgets (R416 to R418) -/

/-- The cap on B in tokens, and the ceiling on the C-core step, of an operating mode (Table 19.2). -/
def modeCap (m : Nat) : Nat := if m = 4 then 4500 else 9000
def modeCeiling (m : Nat) : Nat := if m = 4 then 1800 else 2600

/-- The reservations of a mode in percent: array, vector, memory, C-core (Table 19.2). -/
def modeShares (m : Nat) : Nat × Nat × Nat × Nat :=
  match m with
  | 1 => (60, 0, 20, 15)
  | 2 => (5, 60, 20, 10)
  | 3 => (20, 15, 50, 10)
  | _ => (40, 25, 25, 10)

/-- B before trims (object 0x2102.01). -/
def State.budgetCap (s : State) : Nat :=
  let b := Nat.min (5 * s.obj 0x2100 1) (modeCap (s.obj 0x2100 2))
  if s.gov.auditCap then Nat.min b 4500 else b

/-- B after trims of 5 % of its untrimmed value, down to 50 % (R425). -/
def State.budgetNow (s : State) : Nat := s.budgetCap - s.budgetCap * Nat.min s.gov.trim 10 / 20

/-- The shared pool and the assignable budget of a budget (R417). -/
def sharedOf (b : Nat) : Nat := if 1800 ≤ b then 800 else b - 1000
def assignableOf (b : Nat) : Nat := b - 1800

/-- The highest step of Table 19.1 that does not exceed a frequency. -/
def stepBelow (f : Nat) : Nat := if 2600 ≤ f then 2600 else if 2200 ≤ f then 2200 else if 1800 ≤ f then 1800 else 1200

/-- The C-core step that holds from the next boundary (R413). -/
def State.stepWanted (s : State) : Nat := stepBelow (Nat.min (s.obj 0x2101 1) (modeCeiling (s.obj 0x2100 2)))

/-- The charge for 4 core cycles at a step (Table 19.1). -/
def stepCharge (f : Nat) : Nat := if f = 2600 then 6 else if f = 2200 then 5 else if f = 1800 then 4 else 3

/-! ### Junction levels (R424) and stack levels (10 R254) -/

/-- The highest level whose threshold a reading reaches. -/
def levelUp (th : List Nat) (x : Int) : Nat := countIf (fun (t : Nat) => decide ((t : Int) ≤ x)) th

/-- A level is left only when the reading falls 2 °C or more below its threshold. -/
def levelKept (th : List Nat) (x : Int) : Nat → Bool
  | 0 => true
  | l + 1 => decide (((tabGet 0 th l : Nat) : Int) - 2 < x)

/-- The level for a reading, from the level that held (R254): a level that is left gives way to the one that the reading reaches. -/
def levelNext (th : List Nat) (x : Int) (l : Nat) : Nat := if levelKept th x l then Nat.max l (levelUp th x) else levelUp th x

/-- The part of a grant that a die's junction level leaves (R424). -/
def levelCut (l v : Nat) : Nat := match l with | 0 => v | 1 => v * 3 / 4 | 2 => v / 2 | _ => v / 4

/-! ### Grants (R419, R420, R60) -/

/-- The shares in effect: the written ones, all scaled by one factor, rounding down, where their sum exceeds A (R60). -/
def sharesIn (a : Nat) (written : List Nat) : List Nat :=
  let t := sumNat written
  if t ≤ a then written else written.map (fun v => v * a / t)

/-- A tile's account at a boundary (R420): reservations rounded down, the rest unreserved. -/
def Acct.grant (x : Acct) (m cu : Nat) : Acct :=
  let p := modeShares m
  let a := cu * p.1 / 100
  let v := cu * p.2.1 / 100
  let e := cu * p.2.2.1 / 100
  let c := cu * p.2.2.2 / 100
  { x with array := a, vector := v, memory := e, core := c, unreserved := cu - a - v - e - c, received := decide (cu ≠ 0) }

/-- What a tile is granted in cu before the junction cut: its part of its Cloak's share, or of the open pool, in whole
tokens; a fenced tile nothing. `open_` is the number of open, unfenced tiles. -/
def State.grantOf (s : State) (shares : List Nat) (a open_ t : Nat) : Nat :=
  if s.fenced t then 0
  else
    let k := s.tag t
    if k = 0 then 8192 * ((a - sumNat shares) / open_)
    else 8192 * (tabGet 0 shares k / (s.tilesOf k).length)

/-- The open, unfenced tiles. -/
def State.openTiles (s : State) : List Nat := (List.range 192).filter (fun t => decide (s.tag t = 0) && !s.fenced t)

/-! ### The tick (R416, R419 to R424, R430) -/

/-- The tick ends (R420, R430): whatever the accounts and the pools hold lapses, and the tokens of the tick are audited. -/
def State.closeTick (s : State) : State :=
  let lapse := s.gov.lapsed + sumNat (s.tiles.map (fun (x : Tile) => x.acct.held)) + s.gov.shared + s.gov.openPool + sumNat s.gov.cloakPools
  let issued := (s.gov.budget - 1000) * 8192
  let ok := decide (issued = s.gov.spent + lapse)
  let s := ((s.bump 0x2104 1 issued).bump 0x2104 2 s.gov.spent).bump 0x2104 3 lapse
  if ok then s
  else
    let s := { s with gov := { s.gov with auditCap := true } }.bump 0x2104 4 1
    (s.error { cls := 6, src := 0x40 }).alert 5

/-- A tile that received no token and can take none enters the retention floor (R422). -/
def State.floor (s : State) (t : Nat) : State :=
  let x := s.tile t
  if !s.runs t ∨ x.acct.received ∨ 8192 ≤ s.pool (s.tag t) then s
  else
    s.onTile t (fun x => { x with
      core := { x.core with stopped := true }, acct := { x.acct with arrayAsleep := true }
      lvu := if x.lvu.power = .active then { x.lvu with power := .retention, cnt := tabSet 0 x.lvu.cnt 1 (Nat.min (tabGet 0 x.lvu.cnt 1 + 1) (2 ^ 64 - 1)) } else x.lvu })

/-- The grant of one tile: what its die's junction level cuts lapses. -/
def State.grantTile (s : State) (shares : List Nat) (a open_ t : Nat) : State :=
  let full := s.grantOf shares a open_ t
  let cu := levelCut (tabGet 0 s.gov.level (tileDie t)) full
  { s.onTile t (fun x => { x with acct := x.acct.grant (s.obj 0x2100 2) cu }) with gov := { s.gov with lapsed := s.gov.lapsed + (full - cu) } }

/-- The budget of the tick that begins, divided (R416, R417, R419). -/
def State.issueBudget (s : State) : State :=
  let b := if s.ready || (decide (s.boot.st = .snowplough) && s.mainUp) then s.budgetNow else 0
  let a := assignableOf b
  let shares := sharesIn a ((List.range 65).map (fun k => if k = 0 ∨ (s.cloak k).state = .free then 0 else s.obj 0x1202 k))
  let sum := sumNat shares
  let open_ := s.openTiles.length
  let each := (a - sum) / open_
  let pools := (List.range 65).map (fun k =>
    if k = 0 then 0 else let n := (s.tilesOf k).length; 8192 * (tabGet 0 shares k - tabGet 0 shares k / n * n))
  let s := { s with gov := { s.gov with
    budget := b, assignable := a, shared := 8192 * (if b = 0 then 0 else sharedOf b), shares := shares, spent := 0, lapsed := 0
    openPool := 8192 * (a - sum - each * open_), cloakPools := pools } }
  let s := (List.range 192).foldl (fun (s : State) t => s.grantTile shares a open_ t) s
  (((s.setObj 0x2102 1 s.budgetCap).setObj 0x2102 3 a).setObj 0x2102 4 sum).setObj 0x2102 5 each

/-- The tile's power over the last 1 ms in mW (object 0x2110), from its charges: a cu is 2 µJ / 8,192. -/
def State.tilePower (s : State) (t : Nat) : State :=
  let w := (s.tile t).acct.used / 4096
  (s.setObj 0x2110 (t + 1) w).onTile t (fun x => { x with acct := { x.acct with used := 0 } })

/-- The junction readings of a tick (R424): each tile's sensor, and the highest of each die. -/
def State.junction (s : State) (die : Nat) (x : Int) : State :=
  let l := Nat.min 3 (levelNext ((rangeFrom 1 3).map (fun i => s.obj 0x2103 i)) x (tabGet 0 s.gov.level die))
  let s := { s with gov := { s.gov with junction := tabSet 0 s.gov.junction die x, level := tabSet 0 s.gov.level die l } }
  let s := (s.measure 0x2105 (4 + die) x).setLevel 0x2105 (6 + die) l
  let s := s.evalNow 0 die x 0x2203 1
  if 105 ≤ x then s.trip 0x07 die else s

def State.readSensors (s : State) (temps : List Int) : State :=
  let s := ((List.range temps.length).zip temps).foldl (fun (s : State) p => if p.1 < 192 then s.measure 0x2111 (p.1 + 1) p.2 else s) s
  let die := fun (d : Nat) => (temps.drop (96 * d)).take 96
  let hot := fun (s : State) (d : Nat) =>
    match die d with
    | [] => s
    | x :: r => s.junction d (r.foldl (fun (a b : Int) => if a < b then b else a) x)
  hot (hot s 0) 1

/-- Vector cycles of the tick in which groups were resident (object 0x1713): how many, the commands do not say (assumption 1). -/
def State.groupCycles (s : State) (t : Nat) : State :=
  let n := ((s.tile t).grp.slots.filter (fun g => g.isSome)).length
  if n = 0 then s
  else s.onTile t (fun x => { x with grp := { x.grp with
    cnt := tabSet 0 x.grp.cnt 3 (Nat.min (tabGet 0 x.grp.cnt 3 + freeValue s.freeCtr 22 t % (17000 * n + 1)) (2 ^ 64 - 1)) } })

/-- A change of the C-core step takes effect at a boundary: every C-core stops its clock until it has changed (R413). -/
def State.changeStep (s : State) : State :=
  let f := s.stepWanted
  if !s.ready ∨ f = s.gov.stepMHz then s
  else
    let s := { s with gov := { s.gov with stepMHz := f } }.setObj 0x2101 2 f
    (List.range 192).foldl (fun (s : State) t => if s.fenced t then s else s.onTile t (fun x => { x with core := { x.core with changing := true } })) s

/-- Set points that wait are sent to the rails that are on (R461). -/
def State.sendPoints (s : State) : State :=
  if s.boot.st = .tripped then s
  else
    let now := s.pins.setPending.filter (fun r => decide (r < s.boot.rails))
    { s with pins := { s.pins with
      setPending := s.pins.setPending.filter (fun r => decide (s.boot.rails ≤ r))
      vrails := now.foldl (fun (l : List Nat) r => tabSet 0 l r (s.obj 0x2301 (r + 1))) s.pins.vrails } }

end Sys2Proof.Machine
end

