-- ==== Sys2Proof/Machine/Boot.lean ====
section
/-!
DEFINITION. Machine/Boot.lean: the commands of start-up, self-test and errors (20_startup_selftest_and_errors), and of the rails and
the shared balls (21).
-/
namespace Sys2Proof.Machine
open Sys2Proof

/-- POWER_ON_RESET (R433): PWR_OK_AON rises; the straps are read (R464) and everything takes its reset value. -/
def execPowerOnReset (pkgId : BitVec 12) (sbNode : BitVec 5) (sbEnrol : Bool) (s : State) : Out :=
  .next (
    let s := { s with pins := { s.pins with pkgId := pkgId, sbNode := sbNode, sbEnrol := sbEnrol } }.afterPowerOn
    let s := s.setObj 0x2300 2 sbNode.toNat
    if s.boot.held then s else s.startSequence)

/-- RESET_N_ASSERT (R433, R434): a cold reset; the sequence waits until RESET_N rises. -/
def execResetNAssert (s : State) : Out :=
  .next (if !s.boot.aonOk then s else { s with boot := { s.boot with held := true } }.coldReset)

/-- RESET_N_RELEASE (R434, R435): the sequence starts from step 1; the PKG_ID straps are read (R464). -/
def execResetNRelease (pkgId : BitVec 12) (s : State) : Out :=
  .next (if !s.boot.held then s
    else
      let s := { s with boot := { s.boot with held := false }, pins := { s.pins with pkgId := pkgId } }
      if !s.boot.aonOk || s.boot.holdoff then s
      else ((s.setObj 0x1C00 1 pkgId.toNat).setObj 0x2300 1 pkgId.toNat).startSequence)

/-- A Snowplough that a rail caused is left only by object 0x2200.05 or RESET_N (R449). -/
def State.railSnow (s : State) : Bool := decide (s.boot.st = .snowplough) && decide (s.boot.rails = 0) && s.boot.railFailed

/-- A write of 1 to object 0x2200.04 (R433). -/
def State.coldResetWrite (s : State) (p : Principal) : State := s.guarded p 0x2200 4 (fun s => if s.railSnow then s else s.coldReset)

/-- COLD_RESET_REQUEST (R433). -/
def execColdResetRequest (p : Principal) (s : State) : Out := .next (s.operated p 0x2200 4 false (fun s => s.coldResetWrite p))

/-- A write of object 0x2200.05 (R446): 0 turns the main rails off; 1 while they are off is a cold reset (Table 20.1). -/
def State.mainRailsWrite (s : State) (p : Principal) (on : Bool) : State :=
  s.guarded p 0x2200 5 (fun s =>
    let s := s.setObj 0x2200 5 (flag on)
    if on then
      if s.boot.rails = 0 then s.coldReset else s
    else if s.boot.rails = 0 then { s with boot := { s.boot with railsWanted := false } }
    else
      let s := s.liveCloaks.foldl (fun (s : State) k => s.clearCloakKeys k) s
      let keep := s.boot.st = BootSt.snowplough ∨ s.boot.st = BootSt.tripped
      { s.loseMain with boot := { s.boot with rails := 0, mainOk := false, railsWanted := false, step := 0
                                              st := if keep then s.boot.st else .off } })

/-- MAIN_RAILS_WRITE (R446). -/
def execMainRailsWrite (p : Principal) (on : Bool) (s : State) : Out := .next (s.operated p 0x2200 5 false (fun s => s.mainRailsWrite p on))

/-- The result of a step (object 0x2201), and its UART line. -/
def State.stepResult (s : State) (step r : Nat) : State :=
  { s with boot := { s.boot with results := tabSet 0 s.boot.results step r } }.uart (stepLine step (decide (r < 2)))

/-- A fatal failure of a start-up step (R441, R444). A rail's failure leaves the rails off (R446). A router whose test, step 14, is not
behind has not passed it (R329); step 15 follows the training of step 12, which closed the test ports (R259). -/
def State.stepFatal (s : State) (step src reason unit_ : Nat) : State :=
  let r := failRecord step src reason unit_
  let s := { s with boot := s.boot.keepFail r }.stepResult step 3
  let s := if step = 6 then { s with boot := { s.boot with rails := 0, mainOk := false } } else s
  let s := { s with boot := { s.boot with routerOk := decide (step = 15) }, mem := { s.mem with portsClosed := s.mem.portsClosed || decide (step = 15) } }
  s.snowplough r

/-- The sequence is under way. -/
def State.starting (s : State) : Bool :=
  s.boot.aonOk && !s.boot.held && !s.boot.dead && !s.boot.railFault && (decide (s.boot.st = .boot) || decide (s.boot.st = .power))

/-- POWER_UP_STEP_COMPLETE (R435, R436): the step under way passes, or fails with the unit kind given. Step 3 checks that the
grade and the arrays disabled at sort agree (R141). Step 4 verifies the
images in the flash. In step 6 each completion enables the next rail, with the set point that waits for it (R461). -/
def execPowerUpStepComplete (fail : Option (BitVec 8)) (unit_ : BitVec 16) (s : State) : Out :=
  .next (if !s.starting then s
    else
      let n := s.boot.step
      match n, fail with
      | 1, none => { s with boot := { s.boot with step := 2 } }.stepResult 1 0
      | 1, some _ => { s with boot := { s.boot with dead := true } }
      | 2, none => { s with boot := { s.boot with step := 3 } }.stepResult 2 0
      | 3, none => if s.ident.gradeOk then { s with boot := { s.boot with step := 4 } }.stepResult 3 0 else s.stepFatal 3 0x03 3 0
      | 4, none =>
        (match s.bootFirmware with
         | some s => { s with boot := { s.boot with step := 5, st := .power } }.stepResult 4 0
         | none => { s with fw := { s.fw with slot := 2 } }.stepFatal 4 0x04 3 0)
      | 5, none => { s with boot := { s.boot with step := 6 } }.stepResult 5 0
      | 6, none =>
        if 8 ≤ s.boot.rails then s
        else
          let r := s.boot.rails
          let s := { s with boot := { s.boot with rails := r + 1 } }
          if s.pins.setPending.contains r then
            { s with pins := { s.pins with setPending := s.pins.setPending.filter (fun x => decide (x ≠ r)), vrails := tabSet 0 s.pins.vrails r (s.obj 0x2301 (r + 1)) } }
          else s
      | _, some src => s.stepFatal n src.toNat 3 unit_.toNat
      | _, none => s)

/-- PWR_OK_MAIN_RISE (R435): every main rail is within its limits; self-test begins. -/
def execPwrOkMainRise (s : State) : Out :=
  .next (
    let s := { s with boot := { s.boot with mainOk := true } }
    if s.starting && decide (s.boot.step = 6) && decide (s.boot.rails = 8) then
      { s with boot := { s.boot with step := 7, st := .selftest } }.stepResult 6 0
    else s)

/-- PWR_OK_MAIN_FALL (R449): while the rails are requested it is a rail fault. -/
def execPwrOkMainFall (rail : Fin 8) (s : State) : Out :=
  .next (if s.boot.mainOk && s.boot.railsWanted && decide (s.boot.rails ≠ 0) then s.railFault (rail.val + 1)
    else { s with boot := { s.boot with mainOk := false } })

/-- RAIL_FAULT_RESTART (R449): 1 s after a rail fault the sequence runs again. -/
def execRailFaultRestart (s : State) : Out :=
  .next (if s.boot.railFault then
      let s := { s with boot := { s.boot with railFault := false } }
      if s.boot.held then s else s.startSequence
    else s)

/-! ### Self-test (R437 to R443) -/

/-- A failure that ends in Snowplough: one recorded as fatal or as a time-out, and any failure that is not a repair of the Rink
and its bridges, of the Lining, of a stack or of the router (R32, Table 20.3). -/
def isFatal (r : U32) : Bool :=
  let why := frReason r
  let step := frStep r
  decide (why = 3 ∨ why = 4) || (decide (why ≠ 0) && (decide (10 ≤ step ∧ step ≤ 12) || decide (step = 14 ∧ frSrc r = 0x30)))

/-- The result of a self-test step from its records (R441). -/
def stepOutcome (step : Nat) (fails : List U32) : Nat :=
  (fails.filter (fun r => decide (frStep r = step))).foldl (fun (m : Nat) r =>
    Nat.max m (if isFatal r then 3 else if frReason r = 0 then 1 else 2)) 0

/-- Arrays disabled, tiles fenced (R442). -/
def fencedBy (fails : List U32) : BitVec 192 :=
  fails.foldl (fun (m : BitVec 192) r =>
    if (frStep r = 8 ∨ frStep r = 9) ∧ frReason r ≠ 0 ∧ frUnit r < 192 then m ||| BitVec.ofNat 192 (2 ^ frUnit r) else m) 0

/-- A byte of bits for each tile from a list of arrays (tile × 8 + array). -/
def arrayBits (l : List Nat) (t : Nat) : Nat :=
  (l.filter (fun u => decide (u / 8 = t))).foldl (fun (m : Nat) u => m ||| 2 ^ (u % 8)) 0

def disabledBy (fails : List U32) : List Nat :=
  (fails.filter (fun r => decide (frStep r = 7) && decide (frReason r ≠ 0))).map frUnit

/-- The arrays enabled at sort in which self-test finds a new fault of one row or one column. -/
def foundWorn (r : SelfTest) (i : Ident) : List Nat :=
  (List.range 1536).filter (fun a => (i.atSort (a / 8)).getLsbD (a % 8)
    && ((r.rows.map BitVec.toNat).contains a || (r.cols.map BitVec.toNat).contains a))

/-- The spares that the fault needs are left unused by the fuses (R139). -/
def foundCovered (r : SelfTest) (f : Fuses) (a : Nat) : Bool :=
  (!(r.rows.map BitVec.toNat).contains a || (kvGet none f.rowRepair a).isNone)
    && (!(r.cols.map BitVec.toNat).contains a || (kvGet none f.colRepair a).isNone)

/-- Every failure record of a start: a new fault of an array is repaired, or disables it (R139, R440). -/
def foundAll (r : SelfTest) (i : Ident) (f : Fuses) : List U32 :=
  r.fails ++ (foundWorn r i).map (fun a => failRecord 7 0x13 (if foundCovered r f a then 0 else 1) a)

/-- A byte of bits for each tile of the arrays that a repair map names. -/
def fuseBits (m : Kv (Option (BitVec 5))) (t : Nat) : Nat :=
  arrayBits ((List.range 8).filterMap (fun a => if (kvGet none m (8 * t + a)).isSome then some (8 * t + a) else none)) t

/-- The masks and fences of a start (R33, R138 to R142): an array that is enabled at sort passes, passes with a soft repair, or is
disabled for this start. -/
def Ident.start (i : Ident) (z : Fuses) (r : SelfTest) : Ident :=
  let fails := foundAll r i z
  let off := disabledBy fails
  let fix := (foundWorn r i).filter (fun a => foundCovered r z a && !off.contains a)
  let rows := fix.filter (fun a => (r.rows.map BitVec.toNat).contains a)
  let cols := fix.filter (fun a => (r.cols.map BitVec.toNat).contains a)
  let f := fencedBy fails
  { i with
    fenced := f
    usable := (List.range 192).map (fun t =>
      if f.getLsbD t then 0 else BitVec.ofNat 8 ((i.atSort t).toNat &&& (0xFF ^^^ arrayBits off t)))
    spares := (List.range 192).map (fun t =>
      BitVec.ofNat 16 ((fuseBits z.rowRepair t ||| arrayBits rows t) * 256 + (fuseBits z.colRepair t ||| arrayBits cols t)))
    soft := (List.range 192).map (fun t => BitVec.ofNat 8 (arrayBits fix t)) }

/-- Memory at the end of step 15: every line zero, the test ports closed, fresh system keys (R438, R249, R259). -/
def memoryStart (n : Nat) : Memory :=
  { portsClosed := true, sysMem := BitVec.ofNat 512 (randomBits n 20 512), sysMac := BitVec.ofNat 256 (randomBits n 21 256) }

/-- Ports that failed their loopback are DISABLED; with the router failed every port is held DOWN (Table 20.3). -/
def portsStart (fails : List U32) : List Port :=
  (List.range 32).map (fun p =>
    if fails.any (fun r => decide (frStep r = 14) && decide (frSrc r = 0x31) && decide (frUnit r = p)) then ({ st := .disabled } : Port) else {})

/-- SELFTEST_COMPLETE (R437 to R443): fences, masks and records are set; the floor of R3 is applied; the device is READY or
enters Snowplough. -/
def execSelftestComplete (r : SelfTest) (s : State) : Out :=
  .next (if s.boot.st ≠ .selftest then s
    else
      let fails := (foundAll r s.ident s.fuses).foldl (fun (l : List U32) x => insertFail x l) []
      let s := { s with ident := s.ident.start s.fuses r, boot := fails.foldl Boot.keepFail s.boot }
      let s := (rangeFrom 7 8).foldl (fun (s : State) n =>
        s.stepResult n (if n = 13 ∧ r.hedom = 0 then Nat.max 2 (stepOutcome n fails) else stepOutcome n fails)) s
      let routerOk := !(fails.any (fun x => decide (frStep x = 14) && decide (frSrc x = 0x30) && isFatal x))
      let s := { s with
        tiles := (List.range 192).map (fun t => let x := s.tile t; { x with eng := { x.eng with keys := foldKeys s.freeCtr t, folds := [] } })
        mem := memoryStart s.freeCtr
        fab := { ports := portsStart fails }
        hedom := { link := if r.hedom = 0 then {} else Port.goUp hedomLink { lanes := r.hedom.val } }
        boot := { s.boot with routerOk := routerOk, degraded := s.degraded } }
      let s := { s with boot := { s.boot with degraded := s.degraded } }
      (match fails.find? isFatal with
       | some x => s.snowplough x
       | none =>
         if s.arraysUsable < 1344 then
           let x := failRecord 15 0x13 3 s.arraysUsable
           ({ s with boot := s.boot.keepFail x }.stepResult 15 3).snowplough x
         else
           let s := s.stepResult 15 0
           let s := { s with
             boot := { s.boot with st := .ready, step := 0, readyMs := r.ms.toNat, readyAt := some s.gov.uptime }
             fw := { s.fw with report := s.signedReport 0 0 [] }
             gov := { s.gov with assignable := assignableOf s.budgetNow, budget := 0, stepMHz := s.stepWanted }
             logs := { s.logs with since := s.gov.tick } }
           (s.setObj 0x2101 2 s.stepWanted).uart "LAP96 READY").tick1)

/-- STEP_TIMEOUT (R435, R440): a step that exceeds its limit fails with reason TIMEOUT; Hedom training leaves its link DOWN
and the device goes on (Table 20.3). -/
def execStepTimeout (step : Fin 16) (src : BitVec 8) (unit_ : BitVec 16) (s : State) : Out :=
  .next (
    if s.starting then (if s.boot.step = 1 then { s with boot := { s.boot with dead := true } } else s.stepFatal s.boot.step src.toNat 4 unit_.toNat)
    else if s.boot.st = .selftest ∧ 7 ≤ step.val then
      (if step.val = 13 then { s with boot := s.boot.keepFail (failRecord 13 0x32 4 0) }.stepResult 13 2
       else s.stepFatal step.val src.toNat 4 unit_.toNat)
    else s)

/-- TRIP_HOLDOFF_END (R447): 10 s after a trip a waiting cold reset proceeds. -/
def execTripHoldoffEnd (s : State) : Out :=
  .next (if !s.boot.holdoff then s
    else
      let w := s.boot.waitingReset
      let s := { s with boot := { s.boot with holdoff := false, waitingReset := false } }
      if w then s.coldReset else s)

/-! ### Alerts and logs -/

/-- The causes of ALERT_N that last: Snowplough, TRIPPED, and a link that is FAILED (R448). -/
def State.lasting (s : State) : U16 :=
  BitVec.ofNat 16 ((if s.boot.st = .snowplough then 64 else 0) + (if s.boot.st = .tripped then 128 else 0)
    + (if s.fab.ports.any (fun (p : Port) => decide (p.st = .failed)) || decide (s.hedom.link.st = .failed) then 512 else 0))

/-- M or F clears the alert bits written to object 0x2200.07 (R448); a bit whose cause remains is set again. -/
def State.alertAck (s : State) (p : Principal) (bits : BitVec 16) : State :=
  s.guarded p 0x2200 7 (fun s => { s with boot := { s.boot with alert := (s.boot.alert &&& ~~~ bits) ||| s.lasting } })

/-- ALERT_ACKNOWLEDGE (R448). -/
def execAlertAcknowledge (p : Principal) (bits : BitVec 16) (s : State) : Out := .next (s.operated p 0x2200 7 false (fun s => s.alertAck p bits))

/-- H's log is emptied; its SEQ continues (R457). -/
def State.clearHLog (s : State) (p : Principal) : State :=
  s.guarded p 0x2204 0x41 (fun s => { s with logs := { s.logs with h := { s.logs.h with recs := [] } } })

/-- CLEAR_H_LOG (R457). -/
def execClearHLog (p : Principal) (s : State) : Out := .next (s.operated p 0x2204 0x41 false (fun s => s.clearHLog p))

/-- M's log is emptied (R457). -/
def State.clearMLog (s : State) (p : Principal) : State :=
  s.guarded p 0x2205 0x41 (fun s => { s with logs := { s.logs with m := { s.logs.m with recs := [] } } })

/-- CLEAR_M_LOG (R457). -/
def execClearMLog (p : Principal) (s : State) : Out := .next (s.operated p 0x2205 0x41 false (fun s => s.clearMLog p))

/-! ### Rails and balls (21 R461, R465, R473) -/

/-- A set point as it is stored: clamped to the range of Table 21.2 and rounded down to a multiple of 5 mV. -/
def setPoint (rail v : Nat) : Nat :=
  match catRow 0x2301 (rail + 1) with
  | some r => r.clamp v / 5 * 5
  | none => v

/-- A set point stored, and sent at the next tick, or when the rail is next enabled (R461, R473). -/
def State.setPointWrite (s : State) (p : Principal) (rail : Fin 8) (mv : BitVec 16) : State :=
  s.guarded p 0x2301 (rail.val + 1) (fun s =>
    let s := s.setObj 0x2301 (rail.val + 1) (setPoint rail.val mv.toNat)
    { s with pins := { s.pins with setPending := s.pins.setPending.filter (fun x => decide (x ≠ rail.val)) ++ [rail.val] } })

/-- SET_POINT_WRITE (R461, R473). -/
def execSetPointWrite (p : Principal) (rail : Fin 8) (mv : BitVec 16) (s : State) : Out :=
  .next (s.operated p 0x2301 (rail.val + 1) (decide (setPoint rail.val mv.toNat ≠ mv.toNat)) (fun s => s.setPointWrite p rail mv))

/-- A write of object 0x2304.02 (R473): while the debug port is closed a write of 1 stores 0. -/
def State.traceWrite (s : State) (p : Principal) (b : Bool) : State :=
  s.guarded p 0x2304 2 (fun s => s.setObj 0x2304 2 (flag (b && s.pins.debugOpen)))

/-- TRACE_ENABLE_WRITE (R473). -/
def execTraceEnableWrite (p : Principal) (b : Bool) (s : State) : Out :=
  .next (s.operated p 0x2304 2 (b && !s.pins.debugOpen) (fun s => s.traceWrite p b))

/-- VDD_AON_LOSS (R404, R390): every session ends and all always-on state is lost. -/
def execVddAonLoss (s : State) : Out :=
  .next (
    let s := s.afterPowerOn
    { s with boot := { s.boot with aonOk := false, st := .off, step := 0 }, sb := {} })

/-- DEVICE_REPORT_BUILD (R367): at the tick after a change of PKGID, DOMTAG or UNLOCK, S asks for a new device report. -/
def execDeviceReportBuild (s : State) : Out :=
  .next (if s.fw.reportDue && s.ready then
      { s with fw := { s.fw with reportDue := false, signing := s.fw.signing ++ [.device] } }
    else s)

end Sys2Proof.Machine
end

