-- ==== Sys2Proof/Machine/Cloak.lean ====
section
/-!
DEFINITION. Machine/Cloak.lean: the commands of a Cloak's life cycle (02_principals_and_cloaks R43 to R54; 16 R369; 15 R356) and the steps
that complete them.
-/
namespace Sys2Proof.Machine
open Sys2Proof

/-- CREATE (R43, Table 2.4). -/
def execCreate (p : Principal) (id : BitVec 8) (share : BitVec 16) (hybrid : Bool) (s : State) : Out :=
  .next (s.arrive p id.toNat (.create share.toNat hybrid))

/-- ADD_TILES (R43, R44). -/
def execAddTiles (p : Principal) (id : BitVec 8) (map : BitVec 192) (s : State) : Out :=
  .next (s.arrive p id.toNat (.addTiles map))

/-- ADD_GRANULES (R43, R44). -/
def execAddGranules (p : Principal) (id : BitVec 8) (list : List Nat) (s : State) : Out :=
  .next (s.arrive p id.toNat (.addGranules list))

/-- LOAD (R43, R44). -/
def execLoad (p : Principal) (id : BitVec 8) (src len dst : BitVec 44) (s : State) : Out :=
  .next (s.arrive p id.toNat (.load src.toNat len.toNat dst.toNat))

/-- FINALISE (R43). -/
def execFinalise (p : Principal) (id : BitVec 8) (s : State) : Out := .next (s.arrive p id.toNat .finalise)

/-- START (R43). -/
def execStart (p : Principal) (id : BitVec 8) (s : State) : Out := .next (s.arrive p id.toNat .start)

/-- STOP (R43, R45). -/
def execStop (p : Principal) (id : BitVec 8) (s : State) : Out := .next (s.arrive p id.toNat .stop)

/-- RESUME (R43). -/
def execResume (p : Principal) (id : BitVec 8) (s : State) : Out := .next (s.arrive p id.toNat .resume)

/-- DESTROY (R43, R46). A running ADD or LOAD of the Cloak stops at its next boundary (R44). -/
def execDestroy (p : Principal) (id : BitVec 8) (s : State) : Out := .next (s.arrive p id.toNat .destroy)

/-- RECLAIM_GRANULES (R43). -/
def execReclaimGranules (p : Principal) (id : BitVec 8) (list : List Nat) (s : State) : Out :=
  .next (s.arrive p id.toNat (.reclaim list))

/-- EXIT (R43): C ends its own Cloak; another issuer completes with DENIED (Tables 2.4, 2.5). -/
def execExit (p : Principal) (id : BitVec 8) (s : State) : Out := .next (s.arrive p id.toNat .exit)

/-- RELEASE_GRANULES (R43). -/
def execReleaseGranules (p : Principal) (id : BitVec 8) (list : List Nat) (s : State) : Out := .next (s.arrive p id.toNat (.release list))

/-- ROTATE_KEY (R43). -/
def execRotateKey (p : Principal) (id : BitVec 8) (s : State) : Out := .next (s.arrive p id.toNat .rotateKey)

/-- REPORT (R369). -/
def execReport (p : Principal) (id : BitVec 8) (rdata : List (BitVec 8)) (dst : BitVec 44) (s : State) : Out :=
  .next (s.arrive p id.toNat (.report rdata dst.toNat))

/-- GETSEAL (R369, R48). -/
def execGetseal (p : Principal) (id : BitVec 8) (dst : BitVec 44) (s : State) : Out := .next (s.arrive p id.toNat (.getseal dst.toNat))

/-- LALLOC (R356). -/
def execLalloc (p : Principal) (id : BitVec 8) (count : BitVec 32) (s : State) : Out := .next (s.arrive p id.toNat (.lalloc count.toNat))

/-- LFREE (R356). -/
def execLfree (p : Principal) (id : BitVec 8) (first count : BitVec 32) (s : State) : Out :=
  .next (s.arrive p id.toNat (.lfree first.toNat count.toNat))

/-- LREAD (R356). -/
def execLread (p : Principal) (id : BitVec 8) (index : BitVec 32) (dst : BitVec 44) (s : State) : Out :=
  .next (s.arrive p id.toNat (.lread index.toNat dst.toNat))

/-! ### Completions -/

/-- A run goes on after its head has been done: it ends with ABORTED where a DESTROY waits, with OK where nothing is left,
and otherwise its next head begins (R44). -/
def State.advanceRun (s : State) (k : Nat) : State :=
  match (s.cloak k).run with
  | none => s
  | some r =>
    let r' : CloakRun := { r with todo := r.todo.drop 1, count := r.count + 1 }
    let s := s.onCloak k (fun c => { c with run := some r' })
    let stops := match r.q.cmd with | .addTiles _ => true | .addGranules _ => true | _ => false
    if r'.todo.isEmpty then s.endRun k rOk r'.count
    else if stops && s.destroyWaits k then s.endRun k rAborted r'.count
    else s.startHead k

/-- The Cloak whose running command is at a tile. -/
def State.assigning (s : State) (t : Nat) : Option Nat :=
  (rangeFrom 1 64).find? (fun k => match (s.cloak k).run with
    | some r => (match r.q.cmd with | .addTiles _ => decide (r.todo.head? = some t) | _ => false)
    | none => false)

/-- TILE_ASSIGNMENT_COMPLETE (R43, R44): the tile belongs to the Cloak from now on, with its Lining granules. -/
def execTileAssignmentComplete (t : TileNo) (s : State) : Out :=
  .next (match s.assigning t with
    | none => s
    | some k => if (sliceGranules t).any s.granuleBusy then s else ((s.moveTile t k).advanceRun k).tick1)

/-- The Cloak whose running command is at a granule, and what the granule becomes. -/
def State.changing (s : State) (g : Nat) : Option (Nat × BitVec 16) :=
  (rangeFrom 1 64).findSome? (fun k => match (s.cloak k).run with
    | some r => if r.todo.head? ≠ some g then none else (match r.q.cmd with
      | .addGranules _ => some (k, entAssigned k)
      | .reclaim _ => some (k, entOpen)
      | .release _ => some (k, entOpen)
      | _ => none)
    | none => none)

/-- OWNER_CHANGE_COMPLETE (R41): earlier requests have completed, the zero fill is done, and S writes STATE and OWNER. -/
def execOwnerChangeComplete (g : Nat) (s : State) : Out :=
  .next (match s.changing g with
    | none => s
    | some (k, e) => if s.granuleBusy g then s else (s.refill g e).advanceRun k)

/-- How many bytes of a LOAD's source can be read: those before the first line with an uncorrectable error, or those that the host
has delivered where its memory is the source. -/
def State.loadReach (s : State) (src len : Nat) (data : Bytes) : Nat :=
  if s.hostIn src then Nat.min data.length len
  else match (List.range (linesOf src len)).find? (fun i => (s.currentLine (lineOf src + i) 0xFFFE).1.isNone) with
    | none => len
    | some i => 64 * (lineOf src + i) - src

/-- The first `n` bytes of a LOAD's source. -/
def State.loadBytes (s : State) (src n : Nat) (data : Bytes) : Bytes :=
  if s.hostIn src then data.take n
  else match s.currentLines 0xFFFE (lineOf src) (linesOf src n) with
    | (some b, _) => (b.drop (src % 64)).take n
    | (none, _) => []

/-- Bytes that the state does not hold. -/
def State.freeBytes (s : State) (use n : Nat) : Bytes := (List.range n).map (fun i => BitVec.ofNat 8 (freeValue s.freeCtr use i))

/-- The part of a LOAD that was copied before it ended early stays in Cloak memory (R44). -/
def State.loadPart (s : State) (src dst n : Nat) (data : Bytes) : State :=
  if n = 0 then s else (s.cohWrite 0xFFFE dst false (s.loadBytes src n data)).2

/-- LOAD_COPY_COMPLETE (R44, R368): the copy of a LOAD ends. An uncorrectable error of the source or destination leaves the
measurement and lets the Cloak only be destroyed; a DESTROY that waits aborts the copy, and a source that is open memory no longer
ends it with BUSY (R5, assumption 53). `blocks` 4 KiB blocks had then been copied, as far as they could be read; from the host's memory
`data` is what arrived. What had been copied of a source that is open memory no longer, the state does not hold: free bytes, never what
stands there now. -/
def execLoadCopyComplete (id : BitVec 8) (data : List (BitVec 8)) (blocks : BitVec 32) (s : State) : Out :=
  .next (
    let k := id.toNat
    match (s.cloak k).run with
    | none => s
    | some r =>
      match r.q.cmd with
      | .load src len dst =>
        let open_ := s.rangeOpen src len || s.rangeHost src len
        if (open_ && !s.hostIn src && !s.free 0xFFFE src len false false) || !s.sReady dst len then
          (if open_ && !s.hostIn src then s.callIn 0xFFFE src len false false else s).callIn 0xFFFE dst len true false
        else
          let n := if open_ then s.loadReach src len data else len
          let part := Nat.min n (4096 * blocks.toNat)
          if !open_ then
            (if part = 0 then s else (s.cohWrite 0xFFFE dst false (s.freeBytes 31 part)).2.tick1).endRun k (if s.destroyWaits k then rAborted else rBusy) 0
          else if s.destroyWaits k then (s.loadPart src dst part data).endRun k rAborted 0
          else if n < len then
            let s := if s.hostIn src then s else (s.currentLine (lineOf (src + n)) 0xFFFE).2
            ((s.loadPart src dst part data).onCloak k (fun c => { c with loadUncorr := true })).endRun k rUncorr 0
          else
            let b := s.loadBytes src len data
            match s.cohWrite 0xFFFE dst false b with
            | (.got _, s) =>
              (s.onCloak k (fun c => { c with
                measurement := measLoad c.measurement dst len b
                entry := if c.loadsOk = 0 then BitVec.ofNat 64 dst else c.entry
                loadsOk := c.loadsOk + 1 })).endRun k rOk 0
            | (_, s) => (s.onCloak k (fun c => { c with loadUncorr := true })).endRun k rUncorr 0
      | _ => s)

/-- CLOAK_HALTED (R45): every unit of a stopping Cloak has halted; the principal that stopped it is recorded. It waits while a
unit has not reached its boundary. Of a Cloak that is being destroyed it is the end of steps 1 and 2 (R46). -/
def execCloakHalted (id : BitVec 8) (s : State) : Out :=
  .next (
    let k := id.toNat
    if (s.cloak k).state = .destroying then (if s.halting k then (s.haltDestroyed k).tick1 else s)
    else match (s.cloak k).run with
    | some r =>
      if r.q.cmd = .stop then
        let s := (s.tilesOf k).foldl State.stopStreams s
        if s.allQuiet k then
          ((((s.tilesOf k).foldl State.stopTile s).onCloak k (fun c => { c with state := .stopped, stoppedBy := some r.q.by_ })).endRun k rOk 0).tick1
        else s
      else s
    | none => s)

/-- DESTROY_SEQUENCE_COMPLETE (R46 steps 3 to 8): once every unit has halted and no answer to the Cloak's tiles is due. A sequence that the device
started writes no record (R46). -/
def execDestroySequenceComplete (id : BitVec 8) (s : State) : Out :=
  .next (
    let k := id.toNat
    let c := s.cloak k
    if c.state ≠ .destroying then s
    else
    let s := if s.halting k then (s.haltDestroyed k).tick1 else s
    if s.halting k || s.answersDue k then s
    else
      let s1 := s.endDestroy k
      (match c.run, c.selfDestroy with
       | some r, false => s1.complete r.q rOk 0
       | _, _ => s1).pumpAll k |>.tick1)

/-! ### The signing engine (R369) -/

/-- The effect of a finished signature on a Cloak's command (R367, R43). Snowplough builds no report (R367). -/
def State.signed (s : State) : SignJob → State
  | .finalise k =>
    if s.boot.st = .snowplough ∨ (s.cloak k).state ≠ .building then s
    else
      let s := s.onCloak k (fun c => { c with state := .ready })
      (s.onCloak k (fun c => { c with report := s.signedReport 1 k [] })).endRun k rOk 0
  | .rotate k => if s.boot.st = .snowplough then s else (s.onCloak k (fun c => { c with report := s.signedReport 1 k [] })).endRun k rOk 0
  | .report k rdata dst =>
    if s.boot.st = .snowplough then s
    else if !s.rangeOwned k dst 1616 then s.endRun k rDenied 0
    else (s.sWrite dst (s.signedReport 2 k rdata)).endRun k rOk 0
  | .device => if s.boot.st = .snowplough then s else { s with fw := { s.fw with report := s.signedReport 0 0 [] } }
  | .port p =>
    let x := tabGet ({} : Port) s.fab.ports p
    if x.st ≠ .attesting then s
    else ({ s with fab := { s.fab with ports := tabSet ({} : Port) s.fab.ports p { x with step := Nat.max x.step 3 } } }).sayKey p
  | .challenge i =>
    let x := tabGet ({} : Session) s.sb.sessions i
    if x.st ≠ .setup then s
    else
      let body := match s.fw.attKey with
        | some k => x.challenge ++ padTo 64 (Crypto.sign k.toNat (x.hello ++ x.challenge))
        | none => x.challenge.dropLast ++ [0] ++ List.replicate 64 0
      { s with sb := { s.sb with
          sessions := tabSet ({} : Session) s.sb.sessions i { x with challenge := body, challenged := true, idle := s.gov.uptime }
          sent := if s.pins.refLost.getLsbD 2 then s.sb.sent else s.sb.sent ++ [{ slot := 5, type := 0x11, sid := 0, cnt := 0, body := body, dst := x.mac }] } }

/-- SIGNATURE_COMPLETE (R369): the engine finishes the oldest of its signatures. -/
def execSignatureComplete (s : State) : Out :=
  .next (match s.fw.signing with
    | [] => s
    | j :: r =>
      if (match j with | .report _ _ dst => !s.sReady dst 1616 | _ => false) then
        (match j with | .report _ _ dst => s.callIn 0xFFFE dst 1616 true false | _ => s)
      else ({ s with fw := { s.fw with signing := r } }.signed j).tick1)

/-! ### Decapsulation (R52 to R54) -/

/-- The record of a refused decapsulation. The spec gives DECAPSULATE no opcode, so the record's opcode is a free value (assumption 62). -/
def State.decapRefused (s : State) (k r : Nat) : State :=
  let s1 := s.complete ⟨.c k, k, .report [] 0⟩ r 0
  { s1 with
    cloaks := { s1.cloaks with completions := s.cloaks.completions ++ [({ to_ := .c k, op := freeValue s.freeCtr 27 0 % 256, id := k, result := r, state := (s.cloak k).state, count := 0 } : Completion)] } }.tick1

/-- DECAPSULATE (R54): at most 64 wait for each Cloak; a further one is refused with QFULL. The destination lies in the
Cloak's own memory; one elsewhere is refused with DENIED: DESIGN CHOICE (assumption 62). -/
def execDecapsulate (id : BitVec 8) (enc kem : List (BitVec 8)) (dst : BitVec 44) (s : State) : Out :=
  .next (
    let k := id.toNat
    let c := s.cloak k
    if k = 0 ∨ 64 < k ∨ c.state ≠ .running then s
    else if !s.rangeOwned k dst.toNat 128 then s.decapRefused k rDenied
    else if 64 ≤ c.decaps.length then s.decapRefused k rQfull
    else s.onCloak k (fun c => { c with decaps := c.decaps ++ [⟨enc, kem, dst.toNat⟩] }))

/-- The next Cloak with pending work in round-robin order from `k` on. -/
def State.nextDecap (s : State) : Option Nat :=
  let from_ := s.cloaks.decapNext
  ((List.range 64).map (fun i => (from_ - 1 + i) % 64 + 1)).find? (fun k => !(s.cloak k).decaps.isEmpty)

/-- The record that S writes (R52 to R54): a failed decapsulation's first byte is 0xFF and its key fields are zero. -/
def State.sessionRecord (s : State) (k : Nat) (d : Decap) : Bytes :=
  let c := s.cloak k
  let priv := match c.reqKey with | some x => x.toNat | none => 0
  let kem := match c.kemKey with | some x => x.toNat | none => 0
  let info := ascii "lap96 request" ++ [BitVec.ofNat 8 k] ++ natBe 48 c.measurement.toNat
  match Crypto.sessionKeys priv (if c.hybrid then some kem else none) info d.enc d.kem with
  | some x => x.record
  | none => 0xFF :: List.replicate 127 0

/-- DECAPSULATION_COMPLETE (R54): the engine serves one request of the Cloak whose turn it is. A destination that is the Cloak's no
longer takes no keys: the request ends refused with DENIED (R5, R49). -/
def execDecapsulationComplete (s : State) : Out :=
  .next (match s.nextDecap with
    | none => s
    | some k =>
      match (s.cloak k).decaps with
      | [] => s
      | d :: r =>
        if !s.sReady d.dst 128 then s.callIn 0xFFFE d.dst 128 true false
        else
          let own := s.rangeOwned k d.dst 128
          let s := if own then s.sWrite d.dst (s.sessionRecord k d) else s
          let s := s.onCloak k (fun c => { c with decaps := r })
          let s := { s with cloaks := { s.cloaks with decapNext := k % 64 + 1 } }
          if !own then s.decapRefused k rDenied
          else match s.tilesOf k with
          | t :: _ => s.coreEvent t .completion
          | [] => s)

end Sys2Proof.Machine
end

