-- ==== Sys2Proof/Machine/Glide.lean ====
section
/-!
DEFINITION. Machine/Glide.lean: the commands of Glide, the Gates and the Stitch units, and the Glide window (09 R215 to R237).
-/
namespace Sys2Proof.Machine
open Sys2Proof

/-- Who reaches a tile's Glide window (R236): of an open tile H, C and F, and S to read; of a Cloak's tile its own C, and S to
read. GCMD is written only. -/
def State.glideAccess (s : State) (p : Principal) (t : Nat) (write : Bool) : Bool :=
  match p with
  | .h => decide (s.tag t = 0)
  | .f => decide (s.tag t = 0) && decide (s.unlock.scope ≠ 0)
  | .c k => decide (k ≠ 0) && (decide (s.tag t = 0) || decide (s.tag t = k))
  | .s => !write
  | .m => false

/-- A register of the window read, with its side effect (Table 9.11). -/
def State.glideRead (s : State) (t off : Nat) : Nat × State :=
  let g := (s.tile t).glide
  if s.fenced t then (0, s)
  else if off < 0x400 then
    let x := s.stream t (off / 0x40)
    match off % 0x40 with
    | 0x08 => (x.status, s)
    | 0x10 => (x.credit.toNat, s)
    | 0x18 => (field x.faddr.toNat 56 0, s)
    | _ => (0, s)
  else if off < 0x600 then (gateVal g.gates ((off - 0x400) / 8), s)
  else if off = 0x600 then (g.ovf.toNat, s)
  else if off = 0x608 then (g.under.toNat, s)
  else if 0x800 ≤ off ∧ off < 0x900 then
    let k := (off - 0x800) / 0x20
    let u := tabGet ({} : Stitch) g.stitch k
    match (off - 0x800) % 0x20 with
    | 0 => (u.sctl, s)
    | 8 => (u.svalRead, s.onGlide t (fun g => { g with stitch := tabSet ({} : Stitch) g.stitch k { u with lalive := u.alive } }))
    | _ => (0, s)
  else (0, s)

/-- A register of the window written (Table 9.11). The Glide and the Stitch units of a fenced tile are disabled (R31): a write has no
effect there (DEDUCED, assumption 64). -/
def State.glideWrite (s : State) (t off v : Nat) : State :=
  if s.fenced t then s
  else if off < 0x400 then (if off % 0x40 = 0 then s.gcmd t (off / 0x40) v else s)
  else if off < 0x600 then s.gateSet t ((off - 0x400) / 8) (v % 2 ^ 32)
  else if off = 0x600 then s.onGlide t (fun g => { g with ovf := g.ovf &&& ~~~ (BitVec.ofNat 64 v) })
  else if off = 0x608 then s.onGlide t (fun g => { g with under := g.under &&& ~~~ (BitVec.ofNat 64 v) })
  else if 0x800 ≤ off ∧ off < 0x900 then
    let k := (off - 0x800) / 0x20
    let put := fun (f : Stitch → Stitch) =>
      s.onGlide t (fun g => { g with stitch := tabSet ({} : Stitch) g.stitch k (f (tabGet ({} : Stitch) g.stitch k)) })
    match (off - 0x800) % 0x20 with
    | 0 => put (fun u => u.write v)
    | 8 => put (fun u => u.writeSval v)
    | _ => s
  else s

/-- A window write by a principal: refused where its code does not allow it. -/
def State.glideWriteBy (s : State) (p : Principal) (t off v : Nat) : State :=
  if s.glideAccess p t true then s.glideWrite t off v else s

/-- A GCMD word (Table 9.12). -/
def gcmdWord (op : Nat) (arg : U64) : Nat := op * 2 ^ 60 + arg.toNat % 2 ^ 53

/-- A GCMD write with the operation replaced. -/
def State.gcmdBy (s : State) (p : Principal) (t : Nat) (i : Fin 16) (op : Nat) (arg : U64) : State :=
  s.glideWriteBy p t (0x40 * i.val) (gcmdWord op arg)

/-- GSTART (R82, R216, R221): from the bundle's Glide slot under the engine stream's context, or by a window write under
ETCTX (R263). -/
def execGstart (t : TileNo) (src : GSrc) (s : State) : Out :=
  .next (match src with
    | .window p i a => s.gcmdBy p t i 1 a
    | .bundle => s.glideSlot t 1 (fun s st x w => s.gStartCmd t (gStream w) ((qGet x.q (gDreg w) + gDoff w * 64) % pocketBytes) st.tctx st.kernel))

/-- GCREDIT (R220, R221). -/
def execGcredit (t : TileNo) (src : GSrc) (s : State) : Out :=
  .next (match src with
    | .window p i a => s.gcmdBy p t i 2 a
    | .bundle => s.glideSlot t 2 (fun s _ _ w => s.gCreditCmd t (gStream w) (gCount w)))

/-- GHALT (R221). -/
def execGhalt (t : TileNo) (src : GSrc) (s : State) : Out :=
  .next (match src with
    | .window p i a => s.gcmdBy p t i 3 a
    | .bundle => s.glideSlot t 3 (fun s _ _ w => s.gHaltCmd t (gStream w)))

/-- GADD (R224). -/
def execGadd (t : TileNo) (s : State) : Out := .next (s.glideSlot t 4 (fun s _ _ w => s.gateAdd t (gGate w) (gCount w)))

/-- GLIDE_RESUME (R221). -/
def execGlideResume (p : Principal) (t : TileNo) (i : Fin 16) (s : State) : Out := .next (s.gcmdBy p t i 4 0)

/-- GLIDE_ABORT (R221). -/
def execGlideAbort (p : Principal) (t : TileNo) (i : Fin 16) (s : State) : Out := .next (s.gcmdBy p t i 5 0)

/-- GLIDE_TILE_START (R220, R222, R223, R357). -/
def execGlideTileStart (t : TileNo) (i : Fin 16) (s : State) : Out :=
  .next (if s.runs t then s.startTileCmd t i.val else s)

/-- GLIDE_REQUEST_ISSUE (R222): one request, in rotation over the streams and the group copies. `bad` says that the Pocket
bytes that it reads have an uncorrectable error. -/
def execGlideRequestIssue (t : TileNo) (bad : Bool) (s : State) : Out :=
  .next (if s.ready && !s.fenced t then (s.glideRequest t bad).tick1 else s)

/-- TILE_COUNTED (R218, R226, R232). -/
def execTileCounted (t : TileNo) (i : Fin 16) (s : State) : Out := .next (s.countTile t i.val)

/-- GLIDE_STREAM_FAULT (R226). -/
def execGlideStreamFault (t : TileNo) (i : Fin 16) (s : State) : Out := .next (s.faultTile t i.val).tick1

/-- GATE_WRITE (R225). -/
def execGateWrite (p : Principal) (t : TileNo) (g : Fin 64) (v : U64) (s : State) : Out :=
  .next (s.glideWriteBy p t (0x400 + 8 * g.val) v.toNat)

/-- GATEOVF_CLEAR (R224). -/
def execGateovfClear (p : Principal) (t : TileNo) (v : U64) (s : State) : Out := .next (s.glideWriteBy p t 0x600 v.toNat)

/-- GATEUNDER_CLEAR (R224). -/
def execGateunderClear (p : Principal) (t : TileNo) (v : U64) (s : State) : Out := .next (s.glideWriteBy p t 0x608 v.toNat)

/-- SCTL_WRITE (R235). -/
def execSctlWrite (p : Principal) (t : TileNo) (k : Fin 8) (v : U64) (s : State) : Out :=
  .next (s.glideWriteBy p t (0x800 + 0x20 * k.val) v.toNat)

/-- SVAL_WRITE (R234). -/
def execSvalWrite (p : Principal) (t : TileNo) (k : Fin 8) (v : U64) (s : State) : Out :=
  .next (s.glideWriteBy p t (0x808 + 0x20 * k.val) v.toNat)

/-- SVAL_READ (R235): the read copies ALIVE into LALIVE. -/
def execSvalRead (p : Principal) (t : TileNo) (k : Fin 8) (s : State) : Out :=
  .next (if s.glideAccess p t false then (s.glideRead t (0x808 + 0x20 * k.val)).2 else s)

end Sys2Proof.Machine
end

