-- ==== Sys2Proof/Machine/Energy.lean ====
section
/-!
DEFINITION. Machine/Energy.lean: ticks, charges, throttling, rail readings and time marks (19 R411 to R425; 21 R461, R463),
readings of the stacks and scrub (10 R252 to R255), and the ends of coarsening intervals (02 R55 to R59).
-/
namespace Sys2Proof.Machine
open Sys2Proof

/-! ### Ticks and charges -/

/-- The interval of bit [3] while coarsening is not active: 1 s (R448). -/
def State.uncorrDue (s : State) : Bool := !s.cloaks.coarse.active && s.ready && decide (100000 ≤ s.gov.tick - s.logs.since)

/-- The power of every tile, sampled each 1 ms. -/
def State.tilePowers (s : State) : State := if s.gov.tick % 100 = 0 then (List.range 192).foldl (fun (s : State) t => s.tilePower t) s else s

/-- The command queues are looked at again: a command that had to wait for its lines goes on (R44). -/
def State.pumpQueues (s : State) : State :=
  if s.cloaks.queue.isEmpty then s else (rangeFrom 1 64).foldl (fun (s : State) k => s.pumpAll k) s

/-- GOVERNOR_TICK (R416): the tick closes and is audited, the junction sensors are read, a throttle window begins
(R254), the next budget is issued, and transit that waited for it goes on (R421); ports whose link
keys are due for a change ask for one (R337). `temps` are the readings of the tiles' sensors, in tile order. -/
def execGovernorTick (temps : List Int) (s : State) : Out :=
  .next (if !s.boot.aonOk then s
    else
      let s := (List.range 192).foldl (fun (s : State) t => s.groupCycles t) s
      let s := s.closeTick
      let s := (List.range 192).foldl (fun (s : State) t => s.floor t) s
      let s := { s with gov := { s.gov with tick := s.gov.tick + 1, uptime := s.gov.uptime + 1, half := false } }
      let s := if s.mainUp then s.readSensors temps else s
      let s := s.newWindow.dropLent.issueBudget.changeStep.sendPoints.runTransit
      let s := s.tilePowers
      let s := if s.uncorrDue then s.evalUncorr else s
      s.pumpQueues.agePorts.tick1)

/-- TICK_MIDPOINT (R420): the rest of every reservation becomes unreserved. -/
def execTickMidpoint (s : State) : Out :=
  .next { s with
    gov := { s.gov with half := true }
    tiles := s.tiles.map (fun (x : Tile) => { x with acct := { x.acct with array := 0, vector := 0, memory := 0, core := 0, unreserved := x.acct.held } }) }

/-- C_CORE_CHARGE (R421): the C-core pays for 4 cycles, or stops its clock. -/
def execCCoreCharge (t : TileNo) (s : State) : Out :=
  .next (if !s.runs t || (s.tile t).core.changing || (s.tile t).core.waiting then s
    else
      match s.charge t .core (stepCharge s.gov.stepMHz) with
      | (ok, s) => s.onTile t (fun x => { x with core := { x.core with stopped := !ok } }))

/-- IDLE_RETURN (R420): an idle tile's account goes to its domain's pool. -/
def execIdleReturn (t : TileNo) (s : State) : Out :=
  .next (
    let x := s.tile t
    if !(x.core.waiting && x.eng.seq.run.isNone && x.eng.seq.queue.isEmpty && decide (x.lvu.power ≠ .active)) then s
    else
      let k := s.tag t
      (s.setPool k (s.pool k + x.acct.held)).onTile t (fun x => { x with acct := { x.acct with array := 0, vector := 0, memory := 0, core := 0, unreserved := 0 } }))

/-- FREQUENCY_CHANGE_COMPLETE (R413). -/
def execFrequencyChangeComplete (t : TileNo) (s : State) : Out :=
  .next (s.onTile t (fun x => { x with core := { x.core with changing := false } }))

/-- DROOP (R425): issue stops in the tile's array and vector islands. While coarsening is active the package's count of droops is
computed over open tiles only (R58, R62). -/
def execDroop (t : TileNo) (s : State) : Out :=
  .next (if !s.mainUp then s
    else
      let s := s.onTile t (fun x => { x with acct := { x.acct with droop := true } })
      if s.cloaks.coarse.active && decide (s.tag t ≠ 0) then s else s.bump 0x2105 8 1)

/-- DROOP_HOLD_END (R425). -/
def execDroopHoldEnd (t : TileNo) (s : State) : Out :=
  .next (s.onTile t (fun x => { x with acct := { x.acct with droop := false } }))

/-! ### Rails (R425, R461) -/

/-- The current limit of a main rail in A (Table 21.2), in the order of R436. -/
def railLimit : Nat → Nat
  | 0 => 160
  | 1 => 380
  | 2 => 180
  | 3 => 110
  | 4 => 70
  | 5 => 260
  | 6 => 600
  | _ => 1150

/-- An acknowledgement of a regulator, or its failure: three in a row are a regulator fault (R461). -/
def State.pmbAck (s : State) (rail : Nat) (ok : Bool) : State :=
  let n := if ok then 0 else tabGet 0 s.pins.pmbFails rail + 1
  let s := { s with pins := { s.pins with pmbFails := tabSet 0 s.pins.pmbFails rail n } }
  if 3 ≤ n then
    ({ s with pins := { s.pins with pmbFails := tabSet 0 s.pins.pmbFails rail 0 } }.bump 0x2303 9 1).railFault (rail + 1)
  else s

/-- PMBUS_CURRENT_SAMPLE (R425): the currents of the main rails in A (none where a regulator does not acknowledge), their powers,
and the powers of the package and of the two dies, in W. B is trimmed or recovers by one step. -/
def execPmbusCurrentSample (amps : List (Option Nat)) (watts : List Nat) (pkg die0 die1 : Nat) (s : State) : Out :=
  .next (if !s.mainUp then s
    else
      let bad := ((List.range 8).zip amps).find? (fun p => p.2.isNone && decide (2 ≤ tabGet 0 s.pins.pmbFails p.1))
      let s := ((s.measure 0x2105 1 pkg).measure 0x2105 2 die0).measure 0x2105 3 die1
      let s := ((List.range 8).zip watts).foldl (fun (s : State) p => s.measure 0x2302 (p.1 + 1) p.2) s
      let s := s.evalNow 2 0xFF pkg 0x2203 3
      let lim := s.obj 0x2100 1
      let pw := decide (s.obj 0x2103 5 ≠ 0)
      let high := (pw && decide (lim < pkg)) || ((List.range 8).zip amps).any (fun p => match p.2 with | some a => decide (railLimit p.1 < a) | none => false)
      let under := (!pw || decide (100 * pkg < 95 * lim)) && ((List.range 8).zip amps).all (fun p => match p.2 with | some a => decide (100 * a < 95 * railLimit p.1) | none => true)
      let s := if high then
          (if s.gov.trim < 10 then { s with gov := { s.gov with trim := s.gov.trim + 1 } }.bump 0x2105 9 1 else s)
        else if under then { s with gov := { s.gov with trim := s.gov.trim - 1 } } else s
      match bad with
      | some p => s.pmbAck p.1 false
      | none => { s with pins := { s.pins with pmbFails := ((List.range 8).zip amps).foldl (fun (l : List Nat) p =>
          tabSet 0 l p.1 (if p.2.isNone then tabGet 0 l p.1 + 1 else 0)) s.pins.pmbFails } })

/-- A regulator whose status word reports a fault (R449, R461). -/
def State.regulatorFault (s : State) (faults : BitVec 8) : State :=
  match (List.range 8).find? (fun r => faults.getLsbD r) with
  | some r => if s.boot.rails = 0 then s else (s.bump 0x2303 9 1).railFault (r + 1)
  | none => s

/-- PMBUS_STATUS_POLL (R461): the voltages of the ten rails in mV, and the regulators that report a fault. -/
def execPmbusStatusPoll (mv : List Nat) (faults : BitVec 8) (s : State) : Out :=
  .next (if s.boot.rails = 0 ∨ !s.boot.aonOk then s
    else
      let s := ((List.range 10).zip mv).foldl (fun (s : State) p => s.measure 0x2302 (p.1 + 9) p.2) s
      s.regulatorFault faults)

/-- PMB_ALERT (R461): every status word is read at once. -/
def execPmbAlert (faults : BitVec 8) (s : State) : Out := .next (if !s.boot.aonOk then s else s.regulatorFault faults)

/-! ### Time marks (R415) -/

/-- A write of 1 to object 0x2101.03 (R415): it is ignored while a mark is in progress. -/
def State.timeMark (s : State) (p : Principal) : State :=
  s.guarded p 0x2101 3 (fun s => if s.gov.markBusy then s else { s with gov := { s.gov with markBusy := true, markSeen := [] } })

/-- TIME_MARK (R415). -/
def execTimeMark (p : Principal) (s : State) : Out := .next (s.operated p 0x2101 3 false (fun s => s.timeMark p))

/-- The islands that a mark reaches: those of fenced tiles do not run (R31). -/
def State.markIslands (s : State) : Nat := 3 * (192 - countIf (fun t => s.fenced t) (List.range 192)) + 5

/-- The nominal cycles of an island in a tick of 10 µs (R414, Table 0.5; a C-core's at its top step). -/
def markCycles : MarkIsland → Nat
  | .core _ => 26000
  | .vector _ => 17000
  | .array _ => 8500
  | .rink _ => 14000
  | .router => 20000
  | .security => 4000
  | .alwaysOn => 2000

/-- An island's timestamp (R414): its nominal cycles since cold reset; those within the tick the commands do not give (assumption 1). -/
def State.timestamp (s : State) (i : MarkIsland) : U64 :=
  BitVec.ofNat 64 (markCycles i * s.gov.tick + freePick s.freeCtr 21 0 (markCycles i))

/-- TIME_MARK_ARRIVAL (R415): an island records its timestamp. -/
def execTimeMarkArrival (i : MarkIsland) (s : State) : Out :=
  .next (
    let out := match i with | .core t => s.fenced t | .vector t => s.fenced t | .array t => s.fenced t | _ => false
    if !s.gov.markBusy || s.gov.markSeen.contains i || out then s
    else
      let v := s.timestamp i
      let tile := fun (s : State) (t k : Nat) => s.onTile t (fun x => { x with core := { x.core with mark := tabSet 0 x.core.mark k v } })
      let s := match i with
        | .core t => tile s t 0
        | .vector t => tile s t 1
        | .array t => tile s t 2
        | .rink d => s.setObj 0x2101 (5 + d.val) v.toNat
        | .router => s.setObj 0x2101 7 v.toNat
        | .security => s.setObj 0x2101 8 v.toNat
        | .alwaysOn => s.setObj 0x2101 9 v.toNat
      let s := { s with gov := { s.gov with markSeen := i :: s.gov.markSeen } }
      (if s.gov.markSeen.length = s.markIslands then { s with gov := { s.gov with markBusy := false } }.bump 0x2101 4 1 else s).tick1)

/-! ### Stacks and scrub (10 R252 to R255) -/

/-- STACK_TEMPERATURE_READING (R253 to R255): one reading for each stack, in °C. A stack at level 1 or above adds the 250 µs
since the last reading to its count. -/
def execStackTemperatureReading (temps : List Int) (s : State) : Out :=
  .next (if !s.mainUp then s
    else ((List.range 8).zip temps).foldl (fun (s : State) p =>
      let k := p.1
      let old := tabGet ({} : Stack) s.mem.hbm k
      let l := Nat.min 4 (levelNext ((rangeFrom 1 4).map (fun i => s.obj 0x1901 i)) p.2 old.level)
      let s := if 1 ≤ old.level then s.bumpShared 0x1922 (k + 1) 250 else s
      let s := { s with mem := { s.mem with hbm := tabSet ({} : Stack) s.mem.hbm k { old with level := l } } }
      let s := ((s.measure 0x1902 (k + 1) p.2).setLevel 0x1903 (k + 1) l).evalNow 1 k p.2 0x2203 2
      if 95 ≤ p.2 then s.trip 0x25 k else s) s)

/-- THROTTLE_WINDOW (R254): the caps of the window that begins are those of the levels that hold now. -/
def execThrottleWindow (s : State) : Out :=
  .next s.newWindow

/-- PATROL_SCRUB (R252): a line is read and checked. `finding` is a fault that the check meets on a line that had none; an
uncorrectable line stays as it is and is reported without a consumer. Granules in SCRUBBING are skipped. -/
def execPatrolScrub (line : Nat) (finding : Option LineFault) (s : State) : Out :=
  .next (
    let a := 64 * line
    match granuleOf a with
    | none => s
    | some g =>
      if !s.mainUp ∨ entState (s.granule g) = 2 ∨ s.capped a then s
      else match s.chargeShared (lineCharge 0 0 a) with
        | (false, s) => s
        | (true, s) =>
          let s := s.countBytes a 64 false
          let e := match lineErr s.mem line with
            | some e => some e
            | none => finding.bind (s.checkLine a)
          (match e with
           | none => s
           | some .correctable => ((s.memError a .correctable false 0xFFFF).setBad line none).tick1
           | some e => ((s.memError a e false 0xFFFF).setBad line (some e)).tick1))

/-! ### Coarsening intervals (02 R55 to R59) -/

/-- The records that waited enter the H and M logs, and the refusals that waited the refusal log, in order (R349, R455). -/
def State.deliverHeld (s : State) : State :=
  let recs := s.logs.held
  let refs := s.hedom.heldRefusals
  let s := recs.foldl State.logHM { s with logs := { s.logs with held := [] } }
  let s := { s with hedom := { s.hedom with heldRefusals := [] } }
  refs.foldl (fun (s : State) r => { s with hedom := { s.hedom with refusals := (r :: s.hedom.refusals).take 64 } }.raiseSource 5) s

/-- INTERVAL_1S_END (R56 to R59): power and voltage means and error counts are shown, what waited is delivered, and coarsening
ends with the first whole interval after the last Cloak ID became FREE. -/
def execInterval1sEnd (s : State) : Out :=
  .next (
    let c := s.cloaks.coarse
    if !c.active ∨ s.gov.tick < c.sec + 100000 then s
    else
      let s := (s.onCoarse (fun c => (c.showMeans 5 powerPairs).showMeans 5 voltPairs)).showNow countPairs
      let s := s.deliverHeld.evalUncorr
      let s := s.evalAlert 2 0xFF (kvGet 0 s.cloaks.coarse.shown (pairOf 0x2105 1)) 0x2203 3
      let high := match c.freeAt with | some f => decide (f ≤ c.sec) && s.liveCloaks.isEmpty | none => false
      (if high then
        { s with
          cloaks := { s.cloaks with coarse := {} }
          objs := s.objs.filter (fun p => !sharedCounter p.1) }
      else s.onCoarse (fun c => { c with sec := c.sec + 100000 })).tick1)

/-- INTERVAL_100MS_END (R56, R57): temperature means and the highest levels are shown, and the alerts on them evaluated. -/
def execInterval100msEnd (s : State) : Out :=
  .next (
    let c := s.cloaks.coarse
    if !c.active ∨ s.gov.tick < c.tenth + 10000 then s
    else
      let s := s.onCoarse (fun c => c.showMeans 1 tempPairs)
      let s := levelPairs.foldl (fun (s : State) p => s.onCoarse (fun c =>
        { c with shown := kvSet 0 c.shown p (kvGet 0 c.peaks p : Nat), peaks := kvSet 0 c.peaks p (s.figure p).toNat })) s
      let s := [4, 5].foldl (fun (s : State) k => s.evalAlert 0 (k - 4) (kvGet 0 s.cloaks.coarse.shown (pairOf 0x2105 k)) 0x2203 1) s
      let s := (rangeFrom 1 8).foldl (fun (s : State) k => s.evalAlert 1 (k - 1) (kvGet 0 s.cloaks.coarse.shown (pairOf 0x1902 k)) 0x2203 2) s
      s.onCoarse (fun c => { c with tenth := c.tenth + 10000 }))

end Sys2Proof.Machine
end

