-- ==== Sys2Proof/Machine/Answers.lean ====
section
/-!
DEFINITION. Machine/Answers.lean: the answer, or the failure, of an access to another package or to the host reaches the unit
that issued it (14 R326, R328; 15 R350).
-/
namespace Sys2Proof.Machine
open Sys2Proof

/-- A store leaves the store queue. -/
def CCore.dropStore (c : CCore) (pa : Nat) : CCore :=
  match c.storeQ.find? (fun p => decide (p.addr = pa)) with
  | some p => { c with storeQ := c.storeQ.erase p }
  | none => c

def State.dropStore (s : State) (t pa : Nat) : State := s.onTile t (fun x => { x with core := x.core.dropStore pa })

/-- An access of a C-core that no line serves is answered. A failure from another package faults it as a refused access does, a
failure of the host as an uncorrectable error does. -/
def State.coreAnswer (s : State) (t : Nat) (d : Dest) (pa : Nat) (b : Option Bytes) (remote : Bool) : State :=
  let s := if d = .store then s.dropStore t pa else s
  match b with
  | some b => s.deliver t d b
  | none => s.trap t (if remote then .owner (BitVec.ofNat 64 pa) else .machineCheck (BitVec.ofNat 64 pa))

/-- The requests of an L2 for a line fail: its loads and stores fault. -/
def State.lineFail (s : State) (t line : Nat) (refused : Bool) : State :=
  let l := (s.tile t).l2.out.filter (fun o => decide (o.line = line))
  let s := s.onTile t (fun x => { x with l2 := { x.l2 with out := x.l2.out.filter (fun o => decide (o.line ≠ line)) } })
  let s := l.foldl (fun (s : State) o =>
    (if o.write then s.dropStore t o.addr else s).trap t
      (if refused then .owner (BitVec.ofNat 64 o.addr) else .machineCheck (BitVec.ofNat 64 o.addr))) s
  s.releaseHeld t line

/-- A buffer access of the mailbox is answered, or fails (R396). -/
def XStage.answered (x : XStage) (b : Option Bytes) : XStage :=
  match x, b with
  | .fetch, some d => .fetched d
  | .fetch, none => .failed
  | .put st n c, some _ => .done st n c
  | .put _ _ _, none => .failed
  | y, _ => y

def State.mailAnswer (s : State) (b : Option Bytes) : State :=
  { s with dict := { s.dict with xfer := s.dict.xfer.map (fun x => { x with stage := x.stage.answered b }) } }

/-- An entry of a table in host memory has been read, or its read has failed (R273). -/
def State.walkAnswer (s : State) (a : Nat) (b : Option Bytes) : State :=
  { s with coh := { s.coh with fetched := (a, b.map (fun d => leNat (d.take 8))) :: s.coh.fetched } }

/-- The answer of a transaction reaches its consumer, which may have to wait. -/
def State.userAnswer (s : State) (x : RTxn) (b : Option Bytes) (host : Bool) : Try :=
  match x.user with
  | .core t d => .done (s.coreAnswer t d (if host then s.pkg * 2 ^ 44 + (x.addr - s.obj 0x1E00 3) + 0x40000000000 else x.pkg * 2 ^ 44 + x.addr) b (!host))
  | .lvu t => .done (s.vAnswer t b (if host then 3 else 2))
  | .group t g => .done (s.gAnswer t g b (if host then gcUncorr else gcOwner))
  | .glide t r => s.glideAnswer t r b (if host then gUncorr else gRemote)
  | .cache t line => .done (match b with | some _ => s | none => s.lineFail t line false)
  | .vector _ => .done s
  | .gone _ _ => .done s
  | .device => .done s
  | .mailbox => .done (s.mailAnswer b)
  | .walk a => .done (s.walkAnswer a b)

/-- The unit of Table 20.4 that a transaction is of. -/
def TxUser.src : TxUser → Nat
  | .core _ _ => 0x10
  | .lvu _ => 0x11
  | .group _ _ => 0x18
  | .gone _ _ => 0x18
  | .glide _ _ => 0x15
  | .cache _ _ => 0x10
  | _ => 0x32

/-- The cause with which the consumer of a transaction fails (Tables 8.7, 9.7; VCAUSE); the C-core has none. -/
def TxUser.cause (x : TxUser) (host : Bool) : Nat :=
  match x with
  | .lvu _ => if host then 3 else 2
  | .group _ _ => if host then gcUncorr else gcOwner
  | .glide _ _ => if host then gUncorr else gRemote
  | _ => 0

/-- A transaction fails: an error record of the class given, and its consumer faults (R326, R350). -/
def State.txnFail (s : State) (x : RTxn) (cls : Nat) (host : Bool) : State :=
  let s := match x.user.tile? with
    | some t => s.error { cls := BitVec.ofNat 8 cls, src := BitVec.ofNat 8 x.user.src, cloak := BitVec.ofNat 8 (match x.user with | .gone _ k => k | _ => s.tag t), flags := 1, tile := BitVec.ofNat 16 t, cause := BitVec.ofNat 8 (x.user.cause host) }
    | none => s.error { cls := BitVec.ofNat 8 cls, src := BitVec.ofNat 8 x.user.src, flags := 1 }
  match s.userAnswer x none host with
  | .done s => s
  | .wait s => s

def State.dropHostTxn (s : State) (x : RTxn) : State := { s with hedom := { s.hedom with txns := s.hedom.txns.erase x } }

def State.dropFabTxn (s : State) (x : RTxn) : State := { s with fab := { s.fab with txns := s.fab.txns.erase x } }

/-- A request to the host fails; the vectors that waited for it leave when nothing else is due (R350, R353). -/
def State.hostFail (s : State) (x : RTxn) (cls : Nat) : State := ((s.dropHostTxn x).txnFail x cls true).drainVecs

/-! ### Host lines held by L2s (R299, R350) -/

def lineHost (line : Nat) : Bool := decide (place (64 * line) = .host)

/-- Every L2 copy of a host line of a tile is invalidated; the dirty ones are counted in object 0x1E10.09. -/
def State.loseHostLines (s : State) (t : Nat) : State :=
  let l := (s.tile t).l2.lines.filter (fun p => lineHost p.1)
  let w := (s.tile t).l2.wb.filter (fun p => lineHost p.1)
  if l.isEmpty && w.isEmpty then s
  else
    (s.onTile t (fun x => { x with l2 := { x.l2 with
      lines := x.l2.lines.filter (fun p => !lineHost p.1), wb := x.l2.wb.filter (fun p => !lineHost p.1) } })).bump 0x1E10 9
        (countIf (fun p => decide (p.2.st = .m)) l + w.length)

/-- The host's requests at the home agents are lost (R350): those that wait leave, and one in hand ends without an answer. -/
def Coherence.loseHost (c : Coherence) : Coherence :=
  { c with
    tracker := [], wait := c.wait.filter (fun m => decide (m.src ≠ 192)), net := c.net.filter (fun m => decide (m.src ≠ 192) && decide (m.dst ≠ 192))
    hand := c.hand.map (fun (p : Nat × Txn) => if p.2.msg.src = 192 then (p.1, { p.2 with inner := true }) else p) }

/-- The Hedom link reaches FAILED (R350): host lines are lost, every outstanding request of the device faults, and the host's
requests in flight are lost, with what the host held. -/
def State.hedomFail (s : State) : State :=
  let s := { s with hedom := { s.hedom with link := s.hedom.link.fail, inbox := [] }, coh := s.coh.loseHost }.hostGivesUp
  let s := (List.range 192).foldl (fun (s : State) t => s.loseHostLines t) s
  let s := s.hedom.txns.foldl (fun (s : State) x => s.hostFail x 4) s
  s.linkError 0x32 0xFF

end Sys2Proof.Machine
end

