-- ==== Sys2Proof/Machine/Ports.lean ====
section
/-!
DEFINITION. Machine/Ports.lean: what happens on a link: its states, its flits with tags, replay and credits, link attestation and
rekeying (14 R309 to R322, R336, R337; 15 R341 to R345; 21 R463).
-/
namespace Sys2Proof.Machine
open Sys2Proof

/-! ### Either link -/

def linkKind : Link → LinkKind
  | .port _ => fabricLink
  | .hedom => hedomLink

def State.linkOf (s : State) : Link → Port
  | .port p => s.port p.val
  | .hedom => s.hedom.link

def State.setLink (s : State) (l : Link) (x : Port) : State :=
  match l with
  | .port p => s.setPort p.val x
  | .hedom => { s with hedom := { s.hedom with link := x } }

def State.onLink (s : State) (l : Link) (f : Port → Port) : State := s.setLink l (f (s.linkOf l))

/-- A link counter (objects 0x1C50 to 0x1C56; 0x1E10.01 to .07): 0 flits sent, 1 received, 2 corrected symbols, 3 uncorrectable
codewords, 4 replays, 5 retrains, 6 credit audit failures. -/
def State.linkBump (s : State) (l : Link) (i n : Nat) : State :=
  match l with
  | .port p => s.bump (0x1C50 + i) (p.val + 1) n
  | .hedom => s.bump 0x1E10 (i + 1) n

def State.linkFail (s : State) : Link → State
  | .port p => s.failPort p.val
  | .hedom => s.hedomFail

def linkNo : Link → Nat
  | .port p => p.val
  | .hedom => 32

def State.pumpLink (s : State) : Link → State
  | .port p => s.pumpPort p.val
  | .hedom => s.sentPort 32 (fun k x => x.pump k)

/-- The references and the rails that a link needs; a port also needs a router that passed self-test, and the fabric enabled
(R311, R329, R463). -/
def State.linkLives (s : State) (l : Link) : Bool :=
  s.mainUp && decide (s.boot.st = .ready ∨ s.boot.st = .snowplough) && !s.pins.refLost.getLsbD 1 &&
    (match l with
     | .port _ => s.boot.routerOk && decide (s.obj 0x1C00 2 = 1)
     | .hedom => true)

/-- A link leaves for DOWN: what it held is discarded as at FAILED. -/
def Port.drop (x : Port) (st : PortSt) : Port := { x.fail with st := st }

def State.dropLink (s : State) (l : Link) (st : PortSt) : State :=
  match l with
  | .port p => s.takeDown p.val (fun x => x.drop st)
  | .hedom => s.setLink l (s.hedom.link.drop st)

/-! ### Control and training (R311, R342) -/

/-- A write of a control object: 0 enabled, 1 disabled, 2 retrain now. A FAILED link leaves that state by a write of 2 alone
(Table 14.2), and not while its reference is lost (R463). An UP port retrains; the Hedom link trains again, on as many lanes as lock,
and goes on from where it was (R342, assumption 39). -/
def State.linkControl (s : State) (l : Link) (v : Nat) : State :=
  let x := s.linkOf l
  match v with
  | 0 => if x.st = .disabled then s.dropLink l .down else s
  | 1 => if x.st = .failed then s else s.dropLink l .disabled
  | _ =>
    match x.st with
    | .failed => if s.pins.refLost.getLsbD 1 then s else
        (s.dropLink l (match l with | .hedom => .training | _ => .down)).linkBump l 5 1
    | .disabled => s.dropLink l (match l with | .hedom => .training | _ => .down)
    | .down => (match l with | .hedom => s.dropLink l .training | _ => s)
    | .up =>
      (match l with
       | .hedom => s.setLink l { x with st := .training, lanes := 0, resume := true }
       | _ => s.setLink l { x with st := .retraining }).linkBump l 5 1
    | _ => s

/-- The object that controls a link. -/
def ctlObj : Link → Nat × Nat
  | .port p => (0x1C02, p.val + 1)
  | .hedom => (0x1E00, 2)

def State.writeControl (s : State) (l : Link) (v : Nat) : State :=
  (s.setObj (ctlObj l).1 (ctlObj l).2 v).linkControl l v

/-- Object 0x1C00.02: while it is 0, every port other than a DISABLED one is held DOWN; but a port that the loss of its reference
made FAILED stays so (R463). -/
def State.writeFabricEnable (s : State) (v : Nat) : State :=
  let s := s.setObj 0x1C00 2 v
  if v ≠ 0 then s
  else (List.range 32).foldl (fun (s : State) p =>
    if (s.port p).st = .disabled ∨ (s.port p).st = .down ∨ ((s.port p).st = .failed ∧ s.pins.refLost.getLsbD 1 = true) then s else s.takeDown p (fun x => x.drop .down)) s

/-! ### Attestation (R336) -/

/-- A port enters ATTESTING: it sends its chain, the newest report and a fresh random value. -/
def State.enterAttesting (s : State) (p : Nat) (lanes : Nat) : State :=
  ((s.takeDown p (fun x => { x.drop .attesting with
    lanes := lanes, seq := 0, ack := fabricLink.seqMod - 1, peerReport := [], peerKey := [] })).sayHello p).sendPort p

/-- Every port that has trained goes to ATTESTING (R337, R378). -/
def State.reattest (s : State) : State :=
  (List.range 32).foldl (fun (s : State) p =>
    match (s.port p).st with
    | .attesting => s.enterAttesting p (s.port p).lanes
    | .up => s.enterAttesting p (s.port p).lanes
    | .retraining => s.enterAttesting p (s.port p).lanes
    | _ => s) s

/-- The checks of step 2 on a peer's report. -/
def State.peerOk (s : State) (r : Bytes) : Bool :=
  decide (s.obj 0x1C00 4 ≤ Nat.min (leField r 36 4) (leField r 40 4))
    && decide (leField r 24 2 ≠ s.pkg) && decide (leField r 32 4 = s.obj 0x1C00 3)
    && (!bit (leField r 7 1) 0 || decide (s.obj 0x1C00 9 = 1))

/-- The two directions' keys (step 4): the end with the lower package ID sends under the first. One derivation gives the two keys, then
the two salts, and the lower package ID's random value stands first in the salt (assumption 4). -/
def Port.deriveKeys (x : Port) (peer : Bytes) : LinkKey × LinkKey :=
  let lower := decide (leField x.reportSent 24 2 < leField x.peerReport 24 2)
  let mine := natBe 32 x.myRandom.toNat
  let its := natBe 32 x.peerRandom.toNat
  let o := Crypto.hkdf384 (if lower then mine ++ its else its ++ mine) (Crypto.ecdh x.myEph.toNat peer) (ascii "lap96 link") 72
  let part := fun i n => Crypto.beVal ((o.drop i).take n)
  let a : LinkKey := ⟨BitVec.ofNat 256 (part 0 32), BitVec.ofNat 32 (part 64 4), 0⟩
  let b : LinkKey := ⟨BitVec.ofNat 256 (part 32 32), BitVec.ofNat 32 (part 68 4), 0⟩
  if lower then (a, b) else (b, a)

/-- A failed check: counted with the retrains (object 0x1C55), and the port goes to FAILED. -/
def State.attestFail (s : State) (p : Nat) : State := (s.bump 0x1C55 (p + 1) 1).failPort p

/-- A message of the peer's Caerdy island. -/
def State.attest (s : State) (p : Nat) (m : AttMsg) : State :=
  let x := s.port p
  if x.st ≠ .attesting then s
  else match m with
    | .hello chain report random port =>
      if x.step ≠ 0 then s
      else match Crypto.chainKey chain with
        | none => s.attestFail p
        | some k =>
          if !s.peerOk report then s.attestFail p
          else
            let s := s.setPort p { x with
              step := 2, peerRandom := random, peerReport := report, peerKey := k, peerPort := port.val
              myEph := BitVec.ofNat 256 (randomScalar s.freeCtr 23) }
            { s with fw := { s.fw with signing := s.fw.signing ++ [.port p] } }
    | .key pub sig =>
      if x.step < 3 then s
      else if !Crypto.verify x.peerKey (x.transcript p pub) sig then s.attestFail p
      else
        let k := x.deriveKeys pub
        (s.setPort p { x.goUp fabricLink with tx := some k.1, rx := some k.2, kph := 0, rxKph := 0, sinceKey := 0, keyAt := s.gov.uptime, asked := false, rekeying := none, step := 5 }).pumpPort p

/-- A rekey (R337): the same exchange, with fresh random values and keys, checked and signed again. This end sends under the next key at
once, with KPH one greater; the peer's next key is used from its first flit with the next KPH. -/
def State.rekey (s : State) (p : Nat) (m : RekeyMsg) (sig : Bytes) : State :=
  if (s.port p).st ≠ .up then s
  else match Crypto.chainKey m.chain with
    | none => s.attestFail p
    | some key =>
      if !s.peerOk m.report then s.attestFail p
      else
        let s := if (s.port p).asked then s else s.sayHello p
        let x := { s.port p with
          peerRandom := m.random, peerReport := m.report, peerKey := key, peerPort := m.port.val
          myEph := BitVec.ofNat 256 (randomScalar s.freeCtr 23) }
        if !Crypto.verify x.peerKey (x.transcript p m.pub) sig then s.attestFail p
        else
          let k := x.deriveKeys m.pub
          let s := (s.setPort p x).sayKey p
          s.onPort p (fun x => { x with tx := some k.1, kph := x.kph + 1, rekeying := some k, sinceKey := 0, keyAt := s.gov.uptime, asked := false })

/-! ### Flits (R312 to R315, R320, R343, R344) -/

/-- The receive key of a flit's key phase. -/
def Port.rxKeyOf (x : Port) (kph : BitVec 2) : Option LinkKey :=
  if kph = x.rxKph then x.rx
  else if kph = x.rxKph + 1 then x.rekeying.map (·.2) else none

/-- The body of a flit whose tag verifies (R313, R343). -/
def Port.checkFlit (k : LinkKind) (x : Port) (f : Flit) : Option Bytes :=
  let h := Flit.header k f
  if f.bad ∨ f.body.length ≠ k.body then none
  else if !k.fabric then (if crc32c (h ++ f.body) = f.tag.toNat then some f.body else none)
  else if x.st = .attesting then (if crc64 (h ++ f.body) = f.tag.toNat then some f.body else none)
  else match x.rxKeyOf f.kph with
    | none => none
    | some key =>
      let nonce := key.salt.toNat * 2 ^ 64 + key.cnt.toNat
      let b := Crypto.gcmOpen key.key.toNat nonce h f.body
      if (Crypto.gcmTag key.key.toNat nonce h b).toNat / 2 ^ 64 = f.tag.toNat then some b else none

/-- The counter of the receiving direction moves at every sequenced flit; the first flit of the next phase makes its key the
current one. -/
def Port.countRx (x : Port) (f : Flit) : Port :=
  if f.vc = 6 then x
  else if f.kph = x.rxKph then { x with rx := x.rx.map (fun k => k.advance 1) }
  else match x.rekeying with
    | some k => if f.kph = x.rxKph + 1 then { x with rxKph := f.kph, rx := some (k.2.advance 1), rekeying := none } else x
    | none => x

/-- Flits that the peer's ACK covers leave the replay buffer. -/
def Port.acked (k : LinkKind) (x : Port) (a : Nat) : Port :=
  let r := x.replay.filter (fun f => !seqCovered k.seqMod f.seq a)
  if r.length = x.replay.length then x else { x with replay := r, replays := 0 }

/-- Credits returned (R320). -/
def Port.credited (x : Port) (f : Flit) : Port :=
  let i := creditIdx f.cvc.val f.ccls
  { x with credits := tabSet 0 x.credits i (tabGet 0 x.credits i + f.ccnt.toNat), pool := x.pool + f.scnt.toNat }

/-- A count exceeds what the peer's buffer holds. -/
def Port.overCredit (k : LinkKind) (x : Port) : Bool :=
  decide (k.pool < x.pool) || (List.range 14).any (fun i => decide (tabGet 0 (fullCredits k) i < tabGet 0 x.credits i))

/-- Replay from ACK + 1: every flit of the replay buffer is sent again, as a new transmission (R313, R315). -/
def State.resend (s : State) (l : Link) : State := s.sentPort (linkNo l) (fun k x => x.resend k)

def State.replayFlits (s : State) (l : Link) : State :=
  let s := (s.onLink l (fun x => { x with replays := x.replays + 1 })).linkBump l 4 1
  if 16 ≤ (s.linkOf l).replays then (s.onLink l (fun x => { x with st := .retraining, replays := 0 })).linkBump l 5 1
  else s.resend l

/-! ### Packets out of bodies (R314) -/

/-- The data bytes that follow a packet's header: LEN, but for a read request. -/
def dataLen (k : LinkKind) (opc len : Nat) : Nat :=
  if k.fabric then (if opc = 1 then 0 else len) else if opc = 4 then 0 else len

/-- A header's packet (Tables 14.4, 15.4). -/
def headerPacket (k : LinkKind) (h : Nat) : Packet :=
  if k.fabric then
    { dpid := field h 127 116, spid := field h 115 104, opc := field h 103 98, sealed := bit h 97, len := field h 96 84
      tag := BitVec.ofNat 16 (field h 83 68), group := BitVec.ofNat 16 (field h 67 52), hops := field h 51 47, addr := field h 43 0 }
  else { opc := field h 127 122, len := field h 121 109, tag := BitVec.ofNat 16 (field h 108 93), status := field h 92 85, addr := field h 51 0 }

/-- The bytes that a packet takes, a multiple of four. -/
def Packet.total (k : LinkKind) (p : Packet) : Nat :=
  let n := 16 + (if p.sealed then 24 else 0) + dataLen k p.opc p.len
  n + (4 - n % 4) % 4

/-- The packets that are complete in a byte string, and what is left; a header of zeros is the fill of a body. -/
def parsePackets (k : LinkKind) : Nat → Bytes → List Packet × Bytes
  | 0, _ => ([], [])
  | n + 1, b =>
    if b.length < 16 then ([], b)
    else
      let h := leNat (b.take 16)
      if h = 0 then ([], [])
      else
        let p := headerPacket k h
        if b.length < p.total k then ([], b)
        else
          let d := dataLen k p.opc p.len
          let q := b.drop 16
          let p := if p.sealed then
              { p with sealer := q.getD 0 0, sealCnt := leNat (((q.drop 1).take 7).reverse), data := (q.drop 8).take d
                       gcm := BitVec.ofNat 128 (leNat (((q.drop (8 + d)).take 16).reverse)) }
            else { p with data := q.take d }
          let r := parsePackets k n (b.drop (p.total k))
          (p :: r.1, r.2)

/-- The last packet of some takes the flits that leave the input buffer with it. -/
def holdLast (h : List Hold) : List Packet → List Packet
  | [] => []
  | [p] => [{ p with held := h }]
  | p :: ps => p :: holdLast h ps

/-- The body of a flit joined to what its channel and class had left (R314): FPO says where its first packet starts, and 0 that nothing goes
on from before, so that what was left was a body's fill. A flit leaves the input buffer with the last packet that has bytes in it; one in
which none has leaves at once. Answers the packets, and the port. -/
def Port.absorb (k : LinkKind) (x : Port) (n kind : Nat) (f : Flit) (b : Bytes) : List Packet × Port :=
  let mine := fun (p : Partial) => decide (p.vc = f.vc.val) && p.cls == f.cls
  let old := match x.parts.find? mine with | some p => p | none => { vc := f.vc.val, cls := f.cls, bytes := [] }
  let rest := x.parts.filter (fun p => !mine p)
  let left := if f.fpo.val = 0 then [] else old.bytes
  let b := if left.isEmpty then (if f.fpo.val = 63 then [] else b.drop (4 * f.fpo.val)) else b
  let r := parsePackets k (left.length + b.length) (left ++ b)
  let held := old.held ++ [({ port := n, era := x.era, kind := kind } : Hold)]
  let stay := if r.2.all (fun y => decide (y = 0)) then 0 else (r.2.length + k.body - 1) / k.body
  let go := held.take (held.length - stay)
  let ps := holdLast go (r.1.map (fun p => { p with bulk := decide (3 ≤ f.vc.val), cls := f.cls }))
  let y := { x with parts := if r.2.isEmpty then rest else rest ++ [⟨f.vc.val, f.cls, r.2, held.drop (held.length - stay)⟩] }
  (ps, if ps.isEmpty then y.giveBack (go.map (fun h => h.kind)) else y)

/-- The opcodes of each channel (Tables 14.5, 15.5). -/
def listed (k : LinkKind) (vc opc : Nat) : Bool :=
  let l := if k.fabric then
      (match vc with | 0 => [1, 2, 3] | 1 => [4, 5] | 2 => [0x10, 0x11, 0x12, 0x13] | 3 => [1, 2] | _ => [0x10, 0x11, 0x13])
    else
      (match vc with
       | 0 => [1, 2, 3, 4, 5, 6] | 1 => [8, 9, 0x0A, 0x0B, 0x0C] | 2 => [0x10, 0x11, 0x12, 0x13, 0x14, 0x15, 0x16, 0x17, 0x18]
       | 3 => [4, 5] | _ => [0x10, 0x12, 0x18])
  l.contains opc

/-- A packet received on a channel: an opcode that the channel does not list is dropped and counted (R317, R345). -/
def State.packetIn (s : State) (l : Link) (vc : Nat) (p : Packet) : State :=
  match l with
  | .port _ => if listed fabricLink vc p.opc then s.forward p else s.dropPacket p
  | .hedom =>
    if listed hedomLink vc p.opc then
      (if p.vc hedomLink = 0 ∨ p.vc hedomLink = 3 then { s with hedom := { s.hedom with inbox := s.hedom.inbox ++ [p] } }
       else { s with hedom := { s.hedom with inbox := s.hedom.inbox ++ [{ p with held := [] }] } }.release p.held)
    else (s.release p.held).bump 0x1E10 8 1

/-- A sequenced flit in order is taken (R315, R319): it stands in the input buffer until the packets that it carries leave it. One for
which the sender held no credit breaks the sums of R320. MGT flits carry the messages of link management. -/
def State.takeFlit (s : State) (l : Link) (f : Flit) (b : Bytes) : State :=
  let k := linkKind l
  let x := s.linkOf l
  let y := { x with ack := (x.ack + 1) % k.seqMod, asking := false, news := true }
  if x.st = .attesting then s.setLink l y
  else match x.roomFor k (creditIdx f.vc.val f.cls) with
    | none => ((s.setLink l x).linkBump l 6 1).linkFail l
    | some i =>
      let y := { y with buf := tabSet 0 y.buf i (tabGet 0 y.buf i + 1) }
      if f.vc = 5 then s.setLink l (y.giveBack [i])
      else
        let r := y.absorb k (linkNo l) i f b
        r.1.foldl (fun (s : State) p => s.packetIn l f.vc.val p) (s.setLink l r.2)

/-- A flit that fails its tag, or that leaves one out, is discarded, and its replay asked for; so is every later one until the replay (R313,
R315). -/
def Port.ask (x : Port) : Port := { x with asking := true, rtry := true }

/-- A flit arrives (R310, R312 to R315, R320): it is counted and checked; what its header says is done, and where it is in order it is
taken. One that has been received before only speaks by its header. -/
def State.receive (s : State) (l : Link) (f : Flit) : State :=
  let k := linkKind l
  let x := s.linkOf l
  if x.st ≠ .up ∧ x.st ≠ .attesting then s
  else
    let s := ((s.linkBump l 1 1).linkBump l 2 f.syms.val).linkBump l 3 f.words.val
    let y := x.countRx f
    let want := (x.ack + 1) % k.seqMod
    let q := f.seq.toNat % k.seqMod
    let numbered := decide (f.vc ≠ 6 ∧ f.vc ≠ 7)
    match x.checkFlit k f with
    | none => (s.setLink l y.ask).pumpLink l
    | some b =>
      if x.st = .attesting ∧ f.vc ≠ 5 ∧ f.vc ≠ 6 then s
      else if x.asking && !(numbered && decide (q = want)) then s.setLink l y
      else if numbered && decide (q ≠ want) && !seqCovered k.seqMod q x.ack then (s.setLink l y.ask).pumpLink l
      else
        let z := (y.acked k f.ack.toNat).credited f
        if z.overCredit k then ((s.setLink l z).linkBump l 6 1).linkFail l
        else
          let s := s.setLink l z
          let s := if f.rtry then s.replayFlits l else s
          (if numbered && decide (q = want) then s.takeFlit l f b else s).pumpLink l

/-! ### The commands -/

/-- PORT_CONTROL_WRITE (R311): a write of object 0x1C02. -/
def execPortControlWrite (p : Principal) (n : Fin 32) (v : BitVec 8) (s : State) : Out :=
  .next (s.operated p 0x1C02 (n.val + 1) (decide (2 < v.toNat))
    (fun s => s.guarded p 0x1C02 (n.val + 1) (fun s => s.writeControl (.port n) (clampNat 0 2 v.toNat)))).tick1

/-- HEDOM_LINK_CONTROL_WRITE (R342): a write of object 0x1E00.02. -/
def execHedomLinkControlWrite (p : Principal) (v : BitVec 8) (s : State) : Out :=
  .next (s.operated p 0x1E00 2 (decide (2 < v.toNat))
    (fun s => s.guarded p 0x1E00 2 (fun s => s.writeControl .hedom (clampNat 0 2 v.toNat)))).tick1

/-- TRAINING_START (R311): a DOWN port finds a peer. -/
def execTrainingStart (n : Fin 32) (s : State) : Out :=
  .next (if s.linkLives (.port n) && decide ((s.port n.val).st = .down) then s.onPort n.val (fun x => { x with st := .training }) else s)

/-- LANE_LOCK (R311, R342): lanes lock; a port goes to ATTESTING and the Hedom link to UP. -/
def execLaneLock (l : Link) (lanes : Fin 4) (s : State) : Out :=
  .next (if !s.linkLives l || decide ((s.linkOf l).st ≠ .training) || decide (lanes = 0) then s
    else match l with
      | .port n => (s.enterAttesting n.val lanes.val).tick1
      | .hedom =>
        if s.hedom.link.resume then
          ((s.setLink .hedom { s.hedom.link with st := .up, lanes := lanes.val, resume := false, replays := 0 }).resend .hedom).pumpLink .hedom
        else (s.setLink .hedom { s.hedom.link.goUp hedomLink with lanes := lanes.val }).pumpLink .hedom)

/-- TRAINING_TIMEOUT (R311, R342): 100 ms without a lock. -/
def execTrainingTimeout (l : Link) (s : State) : Out :=
  .next (if (s.linkOf l).st = .training then s.dropLink l .down else s)

/-- LINK_ATTESTATION_MESSAGE (R336). -/
def execLinkAttestationMessage (n : Fin 32) (m : AttMsg) (s : State) : Out := .next (s.attest n.val m).tick1

/-- REKEY (R337): the exchange is done again, with the peer's message and its signature. -/
def execRekey (n : Fin 32) (m : RekeyMsg) (sig : List (BitVec 8)) (s : State) : Out := .next (s.rekey n.val m sig).tick1

/-- FLIT_RECEIVE (R313 to R315, R343). -/
def execFlitReceive (l : Link) (f : Flit) (s : State) : Out := .next (s.receive l f).tick1

/-- RETRAIN_LOCK (R315, R320): the link is UP again and replays. `peer` holds the counts that the peer sends on MGT; one that breaks its
sum fails the link. -/
def execRetrainLock (l : Link) (peer : LinkCounts) (s : State) : Out :=
  .next (if !s.linkLives l || decide ((s.linkOf l).st ≠ .retraining) then s
    else if !(s.linkOf l).countsHold (linkKind l) peer then ((s.linkBump l 6 1).linkFail l).tick1
    else ((s.onLink l (fun x => { x with st := .up, replays := 0 })).resend l).pumpLink l)

/-- RETRAIN_TIMEOUT (R311): no relock in time. -/
def execRetrainTimeout (l : Link) (s : State) : Out :=
  .next (if (s.linkOf l).st = .retraining then (s.linkFail l).tick1 else s)

/-- CHANNEL_STALL (R322): a channel input makes no progress for 10 ms while it holds flits. -/
def execChannelStall (n : Fin 32) (s : State) : Out :=
  .next (if (s.port n.val).st = .up ∨ (s.port n.val).st = .retraining then (s.bump 0x1C60 4 1).alert 4 else s)

/-- REFERENCE_LOSS (R463): a POWER record names the reference; without REF156 every fabric port and the Hedom link are FAILED. -/
def execReferenceLoss (r : RefClock) (s : State) : Out :=
  .next (
    let n := match r with | .ref100 => 0 | .ref156 => 1 | .ref25 => 2
    if s.pins.refLost.getLsbD n then s
    else
      let s := { s with pins := { s.pins with refLost := s.pins.refLost ||| BitVec.ofNat 3 (2 ^ n) } }.bump 0x2302 0x13 1
      let s := s.error { cls := 8, src := 0x06, munit := BitVec.ofNat 8 n }
      (if n ≠ 1 then s else ((List.range 32).foldl (fun (s : State) p => s.failPort p) s).hedomFail).tick1)

end Sys2Proof.Machine
end

