-- ==== Sys2Proof/Machine/Fabric.lean ====
section
/-!
DEFINITION. Machine/Fabric.lean: the packets of the fabric at their destination: requests with their checks, responses, and the
reduction (14 R326 to R335; 12 R297, R298).
-/
namespace Sys2Proof.Machine
open Sys2Proof

def fsOwner : Nat := 1
def fsAuth : Nat := 2
def fsUncorr : Nat := 3
def fsClosed : Nat := 6
def fsDown : Nat := 7
def fsPartial : Nat := 8
def fsRedfail : Nat := 9

/-- A packet has been taken: it leaves its input buffer. -/
def State.dropInbox (s : State) (p : Packet) : State := { s with fab := { s.fab with inbox := s.fab.inbox.erase p } }.release p.held

/-- The oldest packet of an opcode, where no older request of its source on its channel waits: requests of one channel are
served in order (R314). -/
def nextRequest (l : List Packet) (opc : Nat) : Option Packet :=
  match l.find? (fun p => decide (p.opc = opc)) with
  | none => none
  | some p =>
    match l.find? (fun q => isRequest q.opc && decide (q.spid = p.spid) && q.bulk == p.bulk) with
    | some q => if q = p then some p else none
    | none => none

/-! ### Requests (R327, Table 14.8) -/

/-- The bytes of memory that a request touches. -/
def Packet.span (p : Packet) : Nat :=
  if p.opc = 3 then (match atomRead p.data with | some a => a.2.1 | none => 1) else p.len

def inMemory (a n : Nat) : Bool := (granuleOf a).isSome && (granuleOf (a + n - 1)).isSome

/-- The checks on an arriving request: the status of the first that fails, or the packet opened and the tag that it is
served under. -/
def State.targetCheck (s : State) (p : Packet) : Except Nat (Packet × Nat) :=
  if s.boot.st ≠ .ready ∨ s.obj 0x1C00 2 ≠ 1 then .error fsDown
  else if !inMemory p.addr p.span then .error fsOwner
  else if p.group = 0 then
    if s.obj 0x1C00 5 ≠ 1 ∨ p.sealed then .error fsClosed
    else if !s.reachesAll 0 p.addr p.span then .error fsOwner
    else .ok (p, 0)
  else
    let k := s.memberOf p.group
    match (if k = 0 ∨ !p.sealed then none else (s.cloak k).grpKey) with
    | none => .error fsAuth
    | some key =>
      match p.openWith key with
      | none => .error fsAuth
      | some q => if !s.reachesAll k q.addr q.span then .error fsOwner else .ok (q, k)

/-- A write to a reduction range (check 6): the range of an entry that is not OFF. -/
def State.redCheck (s : State) (p : Packet) : Nat :=
  match s.findRed s.pkg p.addr p.len p.group [1, 2, 3, 4] with
  | none => 0
  | some _ =>
    if p.addr % 256 ≠ 0 ∨ p.len % 256 ≠ 0 then fsPartial
    else if (s.findRed s.pkg p.addr p.len p.group [2, 3, 4]).isSome then fsRedfail else 0

/-- A refusal (R328): counted, answered, and reported where it concerns a granule of a local Cloak and its group, if any, is held here. -/
def State.refuse (s : State) (p : Packet) (st : Nat) : State :=
  let s := s.bump 0x1C60 1 1
  let k := s.cloakAt p.addr
  let s := if st ≠ fsUncorr ∧ k ≠ 0 ∧ (p.group = 0 ∨ s.memberOf p.group ≠ 0) then
      s.error { cls := 3, src := 0x30, cloak := BitVec.ofNat 8 k, kind := BitVec.ofNat 8 (memKind p.addr), munit := BitVec.ofNat 8 (memUnit p.addr)
                cause := BitVec.ofNat 8 st, addr := BitVec.ofNat 64 p.addr }
    else s
  s.answer p 0x13 st []

/-- A request served at the home as node 193 (R298): it waits while its lines are busy or their holders are snooped, and for its charge
(R421). A served one is counted (object 0x1B03). -/
def State.serveRemote (s : State) (p : Packet) (q : Packet) : State :=
  let paid := s.chargeShared (homeCharge q.addr q.span)
  let fin := fun (r : Got × State) (opc : Nat) =>
    match r with
    | (.wait, u) => s.asks u
    | (.bad, u) => (u.dropInbox p).refuse p fsUncorr
    | (.got b, u) => ((u.dropInbox p).bumpShared 0x1B03 1 1).answer p opc 0 b
  if !paid.1 then s
  else match p.opc with
  | 1 => fin (paid.2.cohRead 0xFFFD q.addr q.len) 0x10
  | 2 => fin (paid.2.cohWrite 0xFFFD q.addr false (q.data.take q.len)) 0x11
  | _ =>
    match atomRead q.data with
    | none => (s.dropInbox p).refuse p fsOwner
    | some (op, size, v, cmp) =>
      if q.addr % size ≠ 0 then (s.dropInbox p).refuse p fsOwner
      else fin (paid.2.cohAtomic 0xFFFD q.addr size op v cmp) 0x12

def State.requestIn (s : State) (opc : Nat) : State :=
  match nextRequest s.fab.inbox opc with
  | none => s
  | some p =>
    match s.targetCheck p with
    | .error st => (s.dropInbox p).refuse p st
    | .ok (q, _) =>
      let st := if opc = 2 then s.redCheck q else 0
      if st ≠ 0 then (s.dropInbox p).refuse p st else s.serveRemote p q

/-- RD (R317, R327). -/
def execRd (s : State) : Out := .next (s.requestIn 1).tick1

/-- WR (R317, R327). -/
def execWr (s : State) : Out := .next (s.requestIn 2).tick1

/-- FABRIC_ATOM (R317, R327; 12 R298). -/
def execFabricAtom (s : State) : Out := .next (s.requestIn 3).tick1

/-! ### Responses (R297, R326, R328) -/

/-- A packet opened where it is sealed; none where its tag fails. -/
def State.openResponse (s : State) (p : Packet) : Option Packet :=
  if !p.sealed then some p
  else match (s.cloak (s.memberOf p.group)).grpKey with
    | some key => if s.memberOf p.group = 0 then none else p.openWith key
    | none => none

/-- Whether a response answers a transaction: one of its tag, from its target, sealed for the group that the request carried; an ERR is
any router's on its way, which has no key (R325, R328). -/
def RTxn.takes (x : RTxn) (p : Packet) : Bool :=
  decide (x.tag = p.tag)
    && (decide (p.opc = 0x13 ∧ p.sealed = false) || (decide (x.pkg = p.spid) && (p.opened || decide (p.group = x.group ∧ (p.sealed = true ↔ x.group ≠ 0)))))

/-- A response reaches the requests that its packet carried, in order; each takes its part of the data (R317). One whose consumer has to
wait leaves the rest in the inbox, opened. -/
def State.answerAll (q : Packet) : List RTxn → State → State
  | [], s => s
  | x :: xs, s =>
    let rest : Packet := { q with data := q.data.drop x.len }
    match (s.dropFabTxn x).userAnswer x (if q.opc = 0x13 then none else some (if xs.isEmpty then q.data else q.data.take x.len)) false with
    | .done u => State.answerAll rest xs u
    | .wait u =>
      let s := s.asks u
      { s with fab := { s.fab with inbox := { q with opened := true, sealed := false } :: s.fab.inbox } }

/-- The oldest response of an opcode reaches the access that awaits it; a late one is discarded. -/
def State.responseIn (s : State) (opc : Nat) : State :=
  match s.fab.inbox.find? (fun p => decide (p.opc = opc)) with
  | none => s
  | some p =>
    let gone := s.dropInbox p
    match s.openResponse p with
    | none => gone.bump 0x1C60 2 1
    | some q => State.answerAll q (s.fab.txns.filter (fun x => x.takes p)) gone

/-- RDRSP (R317). -/
def execRdrsp (s : State) : Out := .next (s.responseIn 0x10).tick1

/-- WRACK (R317, R333). -/
def execWrack (s : State) : Out := .next (s.responseIn 0x11).tick1

/-- FABRIC_ATOMRSP (R317). -/
def execFabricAtomrsp (s : State) : Out := .next (s.responseIn 0x12).tick1

/-- FABRIC_ERR (R328): the access faults, whatever the STATUS. -/
def execFabricErr (s : State) : Out := .next (s.responseIn 0x13).tick1

/-- REMOTE_TIMEOUT (R326): the timer of a transaction expires; the requests that its packet carried fail. -/
def execRemoteTimeout (tag : BitVec 16) (s : State) : Out :=
  .next (match s.fab.txns.filter (fun x => decide (x.tag = tag)) with
    | [] => s
    | x :: xs => ((x :: xs).foldl (fun (s : State) x => (s.dropFabTxn x).txnFail x 4 false) s).tick1)

/-! ### Reduction (R330 to R335) -/

/-- The entry that a packet between tree neighbours belongs to. -/
def State.redOf (s : State) (p : Packet) (up : Bool) : Option Nat :=
  (List.range 64).find? (fun i =>
    let e := s.redEntry i
    let t := s.tree (redTree e)
    decide (redState e = 1) && decide (redGroup e = p.group) && decide (p.sealed = true ↔ redGroup e ≠ 0) && decide (redBase e ≤ p.addr) && decide (p.addr < redBase e + redSize e)
      && (if up then (treeChildren t).contains p.spid else decide (field t 115 104 = p.spid) && decide (redRoot e ≠ s.pkg)))

/-- The chunks of a RED added, unless one still holds this child's contribution of an earlier round. -/
def State.redIn (s : State) (i c from_ : Nat) : Nat → Bytes → Option State
  | 0, _ => some s
  | n + 1, b =>
    if s.fab.chunks.any (fun x => decide (x.entry = i) && decide (x.chunk = c) && x.from_.contains from_) then none
    else (s.redAddTo i c from_ (b.take 256)).redIn i (c + 1) from_ n (b.drop 256)

/-- The oldest RED: the contributions of a child are added; a packet that no ACTIVE entry takes is dropped. -/
def State.redCmd (s : State) : State :=
  (match s.fab.inbox.find? (fun p => decide (p.opc = 4)) with
    | none => s
    | some p =>
      let gone := s.dropInbox p
      match s.openResponse p, s.redOf p true with
      | some q, some i =>
        (match gone.redIn i ((q.addr - redBase (s.redEntry i)) / 256) q.spid (q.data.length / 256) q.data with
         | some s => s.redRun
         | none => s)
      | _, _ => gone.bump 0x1C60 2 1)

/-- RED (R331, R332). -/
def execRed (s : State) : Out := .next s.redCmd.tick1

/-- The chunks of a REDRES: written where it carries data, passed to the children, and this member's writes acknowledged. -/
def State.redresIn (s : State) (i c : Nat) : Nat → Bytes → State
  | 0, _ => s
  | n + 1, b =>
    let e := s.redEntry i
    let s := if redOne e then s else s.redWrite e (redBase e + 256 * c) (b.take 256)
    ((s.redDown i c (b.take 256)).redReached i c).redresIn i (c + 1) n (b.drop 256)

/-- The oldest REDRES: it waits while the lines that it writes are busy, or their holders are snooped. -/
def State.redresCmd (s : State) : State :=
  (match s.fab.inbox.find? (fun p => decide (p.opc = 5)) with
    | none => s
    | some p =>
      let gone := s.dropInbox p
      match s.openResponse p, s.redOf p false with
      | some q, some i =>
        if !redOne (s.redEntry i) && !s.free 0xFFFD q.addr q.data.length true false then s.callIn 0xFFFD q.addr q.data.length true false
        else (gone.redresIn i ((q.addr - redBase (s.redEntry i)) / 256) (if redOne (s.redEntry i) then 1 else q.data.length / 256) q.data).redRun
      | _, _ => gone.bump 0x1C60 2 1)

/-- REDRES (R333). -/
def execRedres (s : State) : Out := .next s.redresCmd.tick1

/-- The reduction store that an entry takes, in MiB (R331). -/
def redStore (e : Nat) : Nat := if redFmt e = 3 ∨ redFmt e = 4 then 2 else 1

/-- The configuration of an entry is bad for a writer (R330, R334, R340). -/
def State.redBad (s : State) (p : Principal) (e : Nat) : Bool :=
  let t := redTree e
  let known := (kvGet none s.objs (pairOf (0x1C20 + t / 128) (t % 128 + 1))).isSome && decide (field (s.tree t) 127 116 = redRoot e)
  let fmt := decide (redFmt e = 3 ∨ redFmt e = 4 ∨ redFmt e = 7 ∨ redFmt e = 10)
  let grp := match p with
    | .c k => decide ((s.cloak k).group = some (redGroup e))
    | _ => decide (redGroup e = 0)
  !known || !fmt || !grp

/-- A write of a reduction entry (R330, R331, R335): a bad configuration reads back as BADCFG; else with EN 0 it is OFF, and with EN 1 it
becomes ACTIVE or NOROOM. EN 0 frees the store. An entry that is ACTIVE or FAILED keeps its content until EN is written as 0. -/
def State.writeRed (s : State) (p : Principal) (i : Nat) (v : Nat) : State :=
  let e := v / 2 ^ 37 * 2 ^ 37
  let old := s.redEntry i
  if !bit v 36 then (s.redFail i).setObj 0x1C30 (i + 1) (if s.redBad p e then redWith e false 4 else e)
  else if redState old = 1 ∨ redState old = 3 then s
  else if s.redBad p e then s.setObj 0x1C30 (i + 1) (redWith e false 4)
  else
    let used := sumNat ((List.range 64).map (fun j => if j ≠ i ∧ redState (s.redEntry j) = 1 then redStore (s.redEntry j) else 0))
    if 32 < used + redStore e then s.setObj 0x1C30 (i + 1) (redWith e false 2)
    else s.setObj 0x1C30 (i + 1) (redWith e true 1)

/-- REDUCTION_ENABLE (R331): a write of object 0x1C30. -/
def execReductionEnable (p : Principal) (i : Fin 64) (v : BitVec 128) (s : State) : Out :=
  .next (s.operated p 0x1C30 (i.val + 1) (decide ((s.writeRed p i.val v.toNat).redEntry i.val ≠ v.toNat))
    (fun s => s.guarded p 0x1C30 (i.val + 1) (fun s => s.writeRed p i.val v.toNat))).tick1

/-- REDUCTION_CHUNK_TIMEOUT (R335): a chunk of an ACTIVE entry has stayed unfinished too long. -/
def execReductionChunkTimeout (i : Fin 64) (s : State) : Out :=
  .next (if redState (s.redEntry i.val) = 1 && (s.fab.chunks.any (fun x => decide (x.entry = i.val)) || s.fab.writes.any (fun w => decide (w.entry = i.val)))
    then (s.redFail i.val).tick1 else s)

end Sys2Proof.Machine
end

