-- ==== Sys2Proof/Machine/Identity.lean ====
section
/-!
DEFINITION. Machine/Identity.lean: firmware update, commit and the field-service unlock (16 R374 to R378). A write of an object
gives the status of Table 17.5 and the state after it.
-/
namespace Sys2Proof.Machine
open Sys2Proof

/-! ### Update (R374) -/

def ursOpenH : Nat := 0x01
def ursOpenM : Nat := 0x02
def ursDone : Nat := 0x03
def ursBusy : Nat := 0x10
def ursFlash : Nat := 0x17
def ursStale : Nat := 0x18

def slotBytes : Nat := 16777216

def State.onFw (s : State) (f : Firmware → Firmware) : State := { s with fw := f s.fw }

def State.updBusy (s : State) : Nat × State := (stRefused, s.onFw (fun x => { x with status := ursBusy }))

/-- OPEN: the engine is claimed; the target is the slot that does not run, or with the ROM service the one that the selector
does not prefer. -/
def State.updOpen (s : State) (p : Principal) : Nat × State :=
  match s.fw.holder with
  | some q => if q = p then (stOk, s.onFw (fun x => { x with offset := 0, checking := false, status := if p = .h then ursOpenH else ursOpenM })) else s.updBusy
  | none => (stOk, s.onFw (fun x => { x with
      holder := some p, offset := 0, checking := false, status := if p = .h then ursOpenH else ursOpenM
      target := if x.slot = 2 then 1 - s.preferred else 1 - x.slot }))

/-- The holder alone changes the engine. -/
def State.updHeld (s : State) (p : Principal) (f : Firmware → Firmware) : Nat × State :=
  if s.fw.holder = some p then (stOk, s.onFw f) else s.updBusy

/-- The target slot left without a usable image (R374): the headers of both images are cleared (assumption 76). -/
def Firmware.spoil (x : Firmware) : Firmware :=
  { x with flash := [false, true].foldl (fun (m : Mem) d => kvClear m (imageBase x.target d) (imageBase x.target d + 256)) x.flash }

/-- A write of update control. -/
def State.writeUpdate (s : State) (p : Principal) (v : Nat) : Nat × State :=
  match v with
  | 1 => s.updOpen p
  | 2 => s.updHeld p (fun x => { x with checking := true })
  | _ => s.updHeld p (fun x => { x.spoil with holder := none, checking := false, status := 0 })

/-- A write of the offset, clamped to the slot's end. -/
def State.writeOffset (s : State) (p : Principal) (v : Nat) : Nat × State :=
  s.updHeld p (fun x => { x with offset := Nat.min v slotBytes })

/-- What a data write takes: up to 4 KiB, and no more than reaches the slot's end. -/
def State.imageTaken (s : State) (b : Bytes) : Bytes := b.take (Nat.min 4096 (slotBytes - s.fw.offset))

/-- Data into the target slot at the offset, which advances. `ok` says that the flash accepted the write. A write of no bytes by the
holder stores nothing (DESIGN CHOICE, assumption 91). -/
def State.writeImage (s : State) (p : Principal) (b : Bytes) (ok : Bool) : Nat × State :=
  if s.fw.holder ≠ some p ∨ s.fw.checking then s.updBusy
  else if b.isEmpty then (stOk, s)
  else if !ok then (stRefused, s.onFw (fun x => { x with status := ursFlash }))
  else
    let b := s.imageTaken b
    (stOk, s.onFw (fun x => { x with flash := memWrite x.flash (imageBase x.target false + x.offset) b, offset := x.offset + b.length }))

/-- The copy that an update writes (R372, R374), with its sequence number: the one with the lower number, one above the
other. -/
def State.selectorNext (s : State) : Nat × Nat :=
  match s.governing with
  | none => (0, 1)
  | some i => (1 - i, match s.selector i with | some x => (x.1 + 1).toNat | none => 1)

/-- A selector copy of 16 bytes. -/
def selectorBytes (seq slot : Nat) : Bytes :=
  let b := ascii "LAPS" ++ natLe 4 seq ++ [BitVec.ofNat 8 slot, 0, 0, 0]
  b ++ natLe 4 (crc32c b)

/-- A FINISH ends: both images are checked, the CFW first; one that fails leaves no usable image. -/
def State.finishUpdate (s : State) (ok : Bool) : State :=
  if !s.fw.checking then s
  else
    let free := fun (st : Nat) (s : State) => s.onFw (fun x => { x with holder := none, checking := false, status := st })
    let fail := fun (st : Nat) => free st (s.onFw Firmware.spoil)
    let c := s.imageCheck s.fw.target false
    let d := s.imageCheck s.fw.target true
    if !ok then fail ursFlash
    else if c ≠ 0 then fail c
    else if d ≠ 0 then fail d
    else
      let n := s.selectorNext
      free ursDone (s.onFw (fun x => { x with flash := memWrite x.flash (0x10000 + 0x1000 * n.1) (selectorBytes n.2 x.target) }))

/-- A write of an object of this chapter that has a command of its own: an operation of the engine, whose effect is that of its object
where the dictionary lets it pass. -/
def State.guardedSt (s : State) (p : Principal) (idx sub : Nat) (clamped : Bool) (f : State → Nat × State) : State :=
  s.operated p idx sub clamped (fun s => if s.writeCheck p idx sub = 0 then (f s).2 else s)

/-- UPDATE_OPEN (R374). -/
def execUpdateOpen (p : Principal) (s : State) : Out := .next (s.guardedSt p 0x1F02 1 false (fun s => s.writeUpdate p 1))

/-- UPDATE_DATA_WRITE (R374). -/
def execUpdateDataWrite (p : Principal) (data : List (BitVec 8)) (ok : Bool) (s : State) : Out :=
  .next (s.guardedSt p 0x1F02 3 (decide ((s.writeImage p data ok).1 = stOk ∧ s.imageTaken data ≠ data)) (fun s => s.writeImage p data ok))

/-- FINISH (R374). -/
def execFinish (p : Principal) (s : State) : Out := .next (s.guardedSt p 0x1F02 1 false (fun s => s.writeUpdate p 2))

/-- FINISH_COMPLETE (R374). `ok` says that the flash read back what was written. -/
def execFinishComplete (ok : Bool) (s : State) : Out := .next (s.finishUpdate ok)

/-- UPDATE_ABORT (R374). -/
def execUpdateAbort (p : Principal) (s : State) : Out := .next (s.guardedSt p 0x1F02 1 false (fun s => s.writeUpdate p 3))

/-! ### Commit (R375) -/

/-- A write of object 0x1F01.06: with the ROM service running it does nothing. -/
def State.writeCommit (s : State) (v : Nat) : Nat × State :=
  if v = 0 ∨ s.fw.slot = 2 ∨ s.fw.commit then (stOk, s) else (stOk, s.onFw (fun x => { x with commit := true }))

/-- COMMIT (R375). -/
def execCommit (p : Principal) (s : State) : Out := .next (s.guardedSt p 0x1F01 6 false (fun s => s.writeCommit 1))

/-- The revocation bits that a commit blows: those of the running CFW, but for its own key's. -/
def Firmware.revokes (x : Firmware) : BitVec 4 := x.cfwRevoke &&& ~~~ (BitVec.ofNat 4 (2 ^ x.cfwKeyIdx))

/-- COMMIT_COMPLETE (R375). `fails` names the fuses that failed to blow, with the bits of object 0x1F01.07. -/
def execCommitComplete (fails : BitVec 6) (s : State) : Out :=
  .next (if !s.fw.commit then s
    else
      let c := decide (s.fuses.cfwCounter < s.fw.cfwSvn)
      let d := decide (s.fuses.dfwCounter < s.fw.dfwSvn)
      let r := s.fw.revokes &&& ~~~ s.fuses.revoked
      let bad := flag (c && fails.getLsbD 0) + 2 * flag (d && fails.getLsbD 1) + 4 * (r &&& (fails.extractLsb' 2 4)).toNat
      { s with
        fuses := { s.fuses with
          cfwCounter := if c && !fails.getLsbD 0 then s.fw.cfwSvn else s.fuses.cfwCounter
          dfwCounter := if d && !fails.getLsbD 1 then s.fw.dfwSvn else s.fuses.dfwCounter
          revoked := s.fuses.revoked ||| (r &&& ~~~ (fails.extractLsb' 2 4)) }
        fw := { s.fw with commit := false, commitFail := bad } })

/-! ### Field-service unlock (R376 to R378) -/

/-- A fresh challenge (R377). -/
def State.drawNonce (s : State) : State :=
  { s with unlock := { s.unlock with nonce := some (BitVec.ofNat 256 (randomBits s.freeCtr 24 256)) } }.tick1

/-- UNLOCK_CHALLENGE_READ (R377): a read of object 0x1F03.01 as an operation of the engine; M's draws a fresh nonce. -/
def execUnlockChallengeRead (p : Principal) (s : State) : Out :=
  .next (if s.dictFree then (fun (s : State) => if p = .m then s.drawNonce else s) (s.countedRead p 0x1F03 1) else s)

/-- The result of Table 16.9 for a token (R377): 0 where it passes. -/
def State.tokenCheck (s : State) (b : Bytes) : Nat :=
  let key := (b.drop 72).take 65
  let idx := (b.getD 5 0).toNat
  if b.length ≠ 256 ∨ b.take 4 ≠ ascii "LAPU" ∨ b.getD 4 0 ≠ 1 ∨ 2 ≤ idx then 0x11
  else if s.fuses.fsRevoked.getLsbD idx then 0x12
  else if Crypto.sha256 key ≠ tabGet 0 s.fuses.fsHash idx then 0x13
  else if !Crypto.verify key (b.take 192) (b.drop 192) then 0x14
  else if (b.drop 8).take 32 ≠ natBe 32 s.fw.fingerprint.toNat then 0x19
  else if s.unlock.nonce.map (fun n => natBe 32 n.toNat) ≠ some ((b.drop 40).take 32) then 0x18
  else 0

/-- Step 1 of R378: CREATE commands in the queues complete with DENIED. -/
def State.denyCreates (s : State) : State :=
  let l := s.cloaks.queue.filter (fun q => decide (q.cmd.opcode = 1))
  let s := { s with cloaks := { s.cloaks with queue := s.cloaks.queue.filter (fun q => decide (q.cmd.opcode ≠ 1)) } }
  l.foldl (fun (s : State) q => s.complete q rDenied 0) s

/-- Steps 3 and 4 of R378: the report is rebuilt with UNLOCK, every port goes to ATTESTING, and the scope takes effect. -/
def State.takeScope (s : State) : State :=
  let s := if s.boot.st = .snowplough then s else s.onFw (fun x => { x with report := s.signedReport 0 0 [] })
  let s := s.reattest
  { s with
    unlock := { s.unlock with busy := false, scope := s.unlock.pending }
    pins := { s.pins with debugOpen := s.unlock.pending.getLsbD 1 } }

/-- A token is written (R377): its nonce is spent; where it passes, the steps of R378 begin. -/
def State.writeToken (s : State) (b : Bytes) : Nat × State :=
  if s.unlock.busy then (stRefused, { s with unlock := { s.unlock with result := ursStale } })
  else
    let r := s.tokenCheck b
    let s := { s with unlock := { s.unlock with nonce := none, result := r } }
    if r ≠ 0 then (stRefused, s)
    else
      let s := { s with unlock := { s.unlock with flag := true, busy := true, pending := BitVec.ofNat 2 (b.getD 6 0).toNat, tokenKey := (b.drop 72).take 65 } }
      let s := s.denyCreates
      (stOk, if s.boot.st = .snowplough then s.takeScope
        else s.liveCloaks.foldl (fun (s : State) k => s.deviceDestroy k) s)

/-- UNLOCK_TOKEN_WRITE (R377). -/
def execUnlockTokenWrite (p : Principal) (data : List (BitVec 8)) (s : State) : Out :=
  .next (s.guardedSt p 0x1F03 2 false (fun s => s.writeToken data)).tick1

/-- UNLOCK_SCOPE_EFFECT (R378): after every Cloak is FREE. -/
def execUnlockScopeEffect (s : State) : Out :=
  .next (if s.unlock.busy && s.liveCloaks.isEmpty then s.takeScope.tick1 else s)

end Sys2Proof.Machine
end

