-- ==== Sys2Proof/Machine/EngineCmds.lean ====
section
/-!
DEFINITION. Machine/EngineCmds.lean: engine streams as the C-core and the sequencer run them (03 R70, R73 to R77, R84, R90, R91;
01 R27), and the scalar floating-point and system instructions of the C-core (06 R152; 19 R420).
-/
namespace Sys2Proof.Machine
open Sys2Proof

/-! ### FENCE (R70) -/

def isLoadDest : Dest → Bool
  | .store => false
  | _ => true

def VEntry.isLoad (e : VEntry) : Bool := match e.i.kind with | .load _ => true | _ => false
def VEntry.isStore (e : VEntry) : Bool := match e.i.kind with | .store _ => true | _ => false

/-- Scalar loads and atomics that have no data yet. -/
def State.coreLoadsDue (s : State) (t : Nat) : Bool :=
  (s.tile t).l2.out.any (fun o => isLoadDest o.dest) || (s.coreTxns t).any isLoadDest

/-- Loads that have not been performed, vector loads among them (R112); atomics count on both sides (R295). -/
def State.loadsDue (s : State) (t : Nat) : Bool := s.coreLoadsDue t || (s.tile t).lvu.queue.any VEntry.isLoad

/-- Stores that have not been performed, vector stores among them. -/
def State.storesDue (s : State) (t : Nat) : Bool :=
  !(s.tile t).core.storeQ.isEmpty || (s.coreTxns t).any (fun d => !isLoadDest d || isAtomDest d)
    || (s.tile t).l2.out.any (fun o => isAtomDest o.dest)
    || (s.tile t).lvu.queue.any VEntry.isStore

/-- Atomics that have not been performed. -/
def State.atomsDue (s : State) (t : Nat) : Bool :=
  (s.tile t).l2.out.any (fun o => isAtomDest o.dest) || (s.coreTxns t).any isAtomDest

/-- Some access of a set (LD 8, ST 4, IO 2, EN 1; 16 stands for atomics with acquire, R295) has not been performed. -/
def State.setDue (s : State) (t set : Nat) : Bool :=
  (set.testBit 3 && s.loadsDue t) || (set.testBit 2 && s.storesDue t) || (set.testBit 4 && s.atomsDue t)

/-- A later access of a kind (its bit in the sets) waits for a FENCE. -/
def State.fenced? (s : State) (t kind : Nat) : Bool :=
  (s.tile t).core.fences.any (fun f => f.2.testBit kind && s.setDue t f.1)

/-- FENCE (R70): with an empty set it has no effect; otherwise it holds the later accesses of its successor set until the
earlier ones of its predecessor set have been performed. -/
def execFence (t : TileNo) (pred succ : BitVec 4) (s : State) : Out :=
  .next (if !s.coreRuns t || decide (pred = 0) || decide (succ = 0) then s
    else s.onTile t (fun x => { x with core := { x.core with
      fences := x.core.fences.filter (fun f => s.setDue t f.1) ++ (if s.setDue t pred.toNat then [(pred.toNat, succ.toNat)] else []) } }))

/-! ### Launch, status, wait, stop -/

/-- ELAUNCH (R73): after every older store. It is refused with QFULL where four streams are queued. -/
def execElaunch (t : TileNo) (user : Bool) (rd ra rb : Fin 32) (s : State) : Out :=
  .next (if !s.coreReads t [rd, ra, rb] [] || s.storesDue t || s.fenced? t 0 then s
    else
      let q := (s.tile t).eng.seq
      if 4 ≤ q.queue.length then s.setX t rd.val (statusWord 3 false 7 0 0)
      else
        let st : Stream :=
          { ticket := q.nextTicket, first := field (s.xreg t ra.val).toNat 20 5 * 32, args := field (s.xreg t rb.val).toNat 20 6 * 64
            tctx := (s.tile t).xlat.tctx, kernel := !user }
        let now := q.run.isNone && q.queue.isEmpty
        s.withArray t (fun s => (s.onIsland t (fun i => i.setSeq (fun q =>
          { q with nextTicket := ticketNext q.nextTicket, run := if now then some st else q.run, queue := if now then q.queue else q.queue ++ [st] }))).setX t rd.val
          (statusWord (if now then 1 else 0) false 0 0 st.ticket)))

/-- ESTAT (R75). -/
def execEstat (t : TileNo) (rd ra : Fin 32) (s : State) : Out :=
  .next (if !s.coreReads t [rd, ra] [] then s else s.setX t rd.val ((s.tile t).eng.seq.status ((s.xreg t ra.val).setWidth 16)))

/-- EWAIT (R75): it waits until the stream has ended, and then reads its status. -/
def execEwait (t : TileNo) (rd ra : Fin 32) (s : State) : Out :=
  .next (if !s.coreReads t [rd, ra] [] || (s.tile t).eng.seq.alive ((s.xreg t ra.val).setWidth 16) then s
    else s.setX t rd.val ((s.tile t).eng.seq.status ((s.xreg t ra.val).setWidth 16)))

/-- ESTOP (R76): a queued stream ends at once; the running one issues no further bundle. -/
def execEstop (t : TileNo) (ra : Fin 32) (s : State) : Out :=
  .next (if !s.coreReads t [ra] [] || s.fenced? t 0 then s
    else
      let k : U16 := (s.xreg t ra.val).setWidth 16
      let q := (s.tile t).eng.seq
      match q.queue.find? (fun r => decide (r.ticket = k)) with
      | some st => s.withArray t (fun s => s.onIsland t (fun i => endStream st true 5 (i.setSeq (fun q => { q with queue := q.queue.erase st }))))
      | none =>
        if (match q.run with | some r => decide (r.ticket = k) | none => false) then
          s.withArray t (fun s => s.onIsland t (fun i => i.setSeq (fun q => { q with run := q.run.map (fun r => { r with stopping := true }) })))
        else s)

/-- IFLUSH (R90): younger fetched instructions are fetched again. The model fetches no C-core instruction, so nothing that
the state holds changes. -/
def execIflush (_t : TileNo) (s : State) : Out := .next s

/-- BFLUSH of the C-core (R91): after its older stores, the prefetch queue is emptied at the first bundle boundary; with no
running stream it has no effect, and a stream that has not started counts as none (DESIGN CHOICE, assumption 66). -/
def execBflush (t : TileNo) (s : State) : Out :=
  .next (if !s.coreRuns t || s.storesDue t then s
    else
      let q := (s.tile t).eng.seq
      if !(match q.run with | some r => r.started | none => false) then s
      else s.withArray t (fun s =>
        if q.issuing.isSome then s.onIsland t (fun i => i.setSeq (fun q => { q with bflush := true }))
        else s.onIsland t Isl.flush))

/-! ### The sequencer -/

/-- The sequencer takes a stream and reads its argument block; where the read meets an uncorrectable error the stream faults (R77),
with BUNDLE 0 and neither EVENT nor DONEGATE (DESIGN CHOICE, assumption 66). -/
def takeStream (n : Nat) (bad : Bool) (r : Stream) (i : Isl) : Isl :=
  if bad then faultStream n 4 ((i.setSeq (fun q => { q with run := some { r with started := true, doneGate := 255 } })).tell .badRead)
  else startStream r i

/-- STREAM_START (R73, R74): the sequencer takes the next stream; its island wakes for it (R422). -/
def execStreamStart (r : ArgRead) (s : State) : Out :=
  .next (if !s.engineRuns r.tile then s
    else
      let q := (s.tile r.tile).eng.seq
      match q.run, q.queue with
      | some st, _ => if st.started || st.stopping then s else s.withArray r.tile (fun s => s.onIsland r.tile (takeStream s.freeCtr r.bad st))
      | none, st :: rest =>
        s.withArray r.tile (fun s => s.onIsland r.tile (fun i => takeStream s.freeCtr r.bad st (i.setSeq (fun q => { q with queue := rest }))))
      | none, [] => s)

/-- BUNDLE_FETCH (R84): one bundle into the prefetch queue of four. `bad` says that its Pocket bytes have an uncorrectable
error; the stream then faults when the bundle would issue (R77). Bundles at the head that hold no operation issue, also where the
queue is full. -/
def execBundleFetch (t : TileNo) (bad : Bool) (s : State) : Out :=
  .next (if !s.engineRuns t then s
    else
      let q := (s.tile t).eng.seq
      match q.run with
      | none => s
      | some r =>
        if !r.started || r.ended || r.stopping then s
        else s.withArray t (fun s =>
        if 4 ≤ q.prefetch.length then (s.issueNops t 4).tick1
        else
          let b : BitVec 256 := BitVec.ofNat 256 (leNat (ringRead pocketSize (s.tile t).pocket (32 * q.fetchAt) 32))
          let s := s.onIsland t (fun i => i.setSeq (fun q =>
            { q with prefetch := q.prefetch ++ [(if bad then q.fetchAt + 65536 else q.fetchAt, b)], fetchAt := (q.fetchAt + 1) % 65536 }))
          (s.issueNops t 4).tick1))

/-- STREAM_DONE (R83, R115): after END every issued operation has reached its latency, and the stream ends DONE. Where ESTOP has
been accepted after END, this command and STREAM_STOP_COMPLETE both can end it, and the first decides (DESIGN CHOICE, assumption
66). -/
def execStreamDone (t : TileNo) (s : State) : Out :=
  .next (match (s.tile t).eng.seq.run with
    | some r =>
      if r.ended && (s.tile t).eng.seq.issuing.isNone then
        (s.onIsland t (fun i => let d := drain s.freeCtr i; if d.met then d else endRunning s.freeCtr false 0 d)).tick1
      else s
    | none => s)

/-- STREAM_STOP_COMPLETE (R76, R77): the stopped stream ends FAULTED with STOPPED. -/
def execStreamStopComplete (t : TileNo) (s : State) : Out :=
  .next (match (s.tile t).eng.seq.run with
    | some r =>
      if r.stopping && (s.tile t).eng.seq.issuing.isNone then
        (s.onIsland t (fun i => let d := drain s.freeCtr i; if d.met then d else faultStream s.freeCtr 5 d)).tick1
      else s
    | none => s)

/-- WAITLIMIT_EXPIRY (R74, R77): a Gate wait has lasted 2^WAITLIM cycles. -/
def execWaitlimitExpiry (t : TileNo) (s : State) : Out :=
  .next (
    let i := s.island t
    match headBundle i with
    | some (st, k, b) =>
      if st.waitLim = 0 ∨ i.eng.seq.issuing.isSome ∨ gateMet i.eng.seq b then s
      else (s.onIsland t (fun i =>
        let d := settle s.freeCtr (i.eng.seq.waitFrom.getD i.eng.seq.now + 2 ^ st.waitLim) i
        if d.met then d
        else faultStream s.freeCtr 3 ((d.setSeq (fun q => { q with
          waitFrom := none, run := q.run.map (fun r => { r with bundle := BitVec.ofNat 16 k }) })).count 1 (2 ^ st.waitLim)))).tick1
    | none => s)

/-! ### Results (R87, R124) -/

def InFlight.isTailor (f : InFlight) : Bool := match f.unit with | .tailor => true | .array _ => false

/-- A result that is due after the cycle of the bundle at issue lands once that bundle has issued whole: a QSET or QADD of the bundle is
applied before it (R177). -/
def Isl.landsLater (i : Isl) (f : InFlight) : Bool := match i.eng.seq.issuing with | some x => decide (x.cycle < f.land) | none => false

/-- The earliest result of a unit kind lands; with a parity error (R137, R191) it is lost instead and the stream faults.
`plane` says that the error stands in the accumulator's planes. -/
def landFirst (n : Nat) (tailor : Bool) (parity plane : Bool) (i : Isl) : Isl :=
  let first := fun (i : Isl) => firstLanding (i.eng.seq.flight.filter (fun f => decide (f.isTailor = tailor)))
  match first i with
  | none => i
  | some f =>
    if i.landsLater f then i
    else if parity then
      let i := settle n (f.land - 1) i
      match first i with
      | none => i
      | some f =>
        let i := i.setSeq (fun q => { q with flight := q.flight.erase f })
        let i := match f.unit with
          | .array j => if plane then
              { i with eng := { i.eng with accs := tabSet {} i.eng.accs (accIndex j f.word) { tabGet {} i.eng.accs (accIndex j f.word) with parityFailed := true } } }
              else i
          | .tailor => i
        (settle n f.land i).meet tailor f.bundle
    else settle n f.land i

/-- MATRIX_RESULT (R87, R124): the earliest matrix operation under way reaches its latency. -/
def execMatrixResult (t : TileNo) (parity plane : Bool) (s : State) : Out :=
  .next (s.onIsland t (landFirst s.freeCtr false parity plane)).tick1

/-- TAILOR_RESULT (R87): the earliest Tailor operation under way reaches its latency. -/
def execTailorResult (t : TileNo) (parity : Bool) (s : State) : Out :=
  .next (s.onIsland t (landFirst s.freeCtr true parity false)).tick1

/-- SEAM_ARRIVAL (R27, R79, R85, R210): the oldest transfer in the tile's Seam whose island is awake becomes usable. -/
def execSeamArrival (t : TileNo) (s : State) : Out := .next (s.onTile t Tile.seamArrive)

/-! ### Scalar floating point and system instructions -/

/-- The formats of scalar floating point (R152). -/
def scalarFmt : VFmt → Bool
  | .f64 => true
  | .f32 => true
  | .f16 => true
  | _ => false

/-- The formats that scalar conversions reach (R152). -/
def scalarCvt : VFmt → Bool
  | .f64 => true
  | .f32 => true
  | .f16 => true
  | .bf16 => true
  | .sint w => decide (w.val = 64)
  | .uint w => decide (w.val = 64)
  | _ => false

def isIntFmt : VFmt → Bool
  | .sint _ => true
  | .uint _ => true
  | _ => false

/-- The bits above a narrower result in an f register: the spec does not state them (assumption 1). -/
def State.freeUpper (s : State) (w v : Nat) : U64 := BitVec.ofNat 64 (v + 2 ^ w * freeValue s.freeCtr 6 w)

/-- A scalar operation is one that the spec gives (R66, R152). -/
def scalarLegal (f : VFmt) : FpOp → Bool
  | .cvt a b => scalarCvt a && scalarCvt b
  | _ => scalarFmt f

def fpIsCmp : FpOp → Bool
  | .cmpEq => true
  | .cmpLt => true
  | .cmpLe => true
  | _ => false

/-- SCALAR_FP_OP (R152): under IEEE 754-2019 in the strict column of Table 6.4, rounded by fcsr.FRM, with FFLAGS accumulated. A
comparison and a conversion to an integer write an x register; a conversion from an integer reads one. -/
def execScalarFpOp (t : TileNo) (f : VFmt) (op : FpOp) (rd ra rb rc : Fin 32) (s : State) : Out :=
  let srcInt := match op with | .cvt a _ => isIntFmt a | _ => false
  let dst := match op with | .cvt _ b => b | _ => f
  let toX := isIntFmt dst || fpIsCmp op
  .next (if !s.coreReads t ((if srcInt then [ra.val] else []) ++ (if toX then [rd.val] else []))
        ((if srcInt then [] else [ra.val, rb.val, rc.val]) ++ (if toX then [] else [rd.val])) then s
    else if !scalarLegal f op then s.trap t .illegal
    else
      let a := if srcInt then s.xreg t ra.val else s.freg t ra.val
      let r := fpEval true (VFmt.fmt f) (frmOf (s.tile t).core.fcsr) op a.toNat (s.freg t rb.val).toNat (s.freg t rc.val).toNat
      let s := s.onTile t (fun x => { x with core := { x.core with fcsr := addFlags x.core.fcsr r.fl } })
      if r.truth ∨ isIntFmt dst then s.setX t rd.val (BitVec.ofNat 64 r.bits)
      else (s.setF t rd.val (s.freeUpper (VFmt.width dst) r.bits)).tick1)

/-- FCSR_WRITE (R152): the reserved bits read as zero. -/
def execFcsrWrite (t : TileNo) (ra : Fin 32) (s : State) : Out :=
  .next (if !s.coreReads t [ra] [] then s else s.onTile t (fun x => { x with core := { x.core with fcsr := s.xreg t ra.val &&& fcsrMask } }))

/-- WAIT_FOR_EVENT (R420): the C-core waits until an event arrives. -/
def execWaitForEvent (t : TileNo) (s : State) : Out :=
  .next (if !s.coreRuns t then s else s.onTile t (fun x => { x with core := { x.core with waiting := true } }))

end Sys2Proof.Machine
end

