-- ==== Sys2Proof/Machine/Translation.lean ====
section
/-!
DEFINITION. Machine/Translation.lean: the commands of translation (11_translation R262, R271 to R281).
-/
namespace Sys2Proof.Machine
open Sys2Proof

/-- A TINV instruction of a C-core at kernel privilege (R275): it is performed after every older store, and its removals
complete with INVALIDATION_COMPLETE. At user privilege it raises illegal-instruction. -/
def State.tinv (s : State) (t : Nat) (user : Bool) (regs : List Nat) (i : Inv) : State :=
  if !s.coreReads t regs [] then s
  else if user then s.trap t .illegal
  else if s.storesDue t then s
  else s.onTile t (fun x => { x with core := { x.core with tsync := false }, xlat := { x.xlat with inv := x.xlat.inv ++ [i] } })

/-- TINVA (R275). -/
def execTinva (t : TileNo) (user : Bool) (sa sb : Fin 32) (s : State) : Out :=
  .next (s.tinv t user [sa, sb] ⟨0, s.xreg t sa, BitVec.ofNat 16 (s.xreg t sb).toNat⟩)

/-- TINVS (R275). -/
def execTinvs (t : TileNo) (user : Bool) (sb : Fin 32) (s : State) : Out :=
  .next (s.tinv t user [sb] ⟨1, 0, BitVec.ofNat 16 (s.xreg t sb).toNat⟩)

/-- TINVD (R275). -/
def execTinvd (t : TileNo) (user : Bool) (s : State) : Out := .next (s.tinv t user [] ⟨2, 0, 0⟩)

/-- TSYNC (R276) commits, with no effect of its own, once the C-core's earlier invalidations have completed; until then it
holds the instructions after it, but an event or an exception interrupts it, and it comes again from the start. At user privilege it raises illegal-instruction (R275). -/
def execTsync (t : TileNo) (user : Bool) (s : State) : Out :=
  .next (if !s.coreRuns t then s
    else if user then s.trap t .illegal
    else if (s.tile t).xlat.inv.isEmpty then s
    else s.onTile t (fun x => { x with core := { x.core with tsync := true } }))

/-- An access of a domain is outstanding that a removed entry can have translated (R276, R277): of an L2, to the host or another
package, or of a tile of a Glide stream. -/
def State.xlOutstanding (s : State) (tag : Nat) (l : List Inv) : Bool :=
  (s.tilesOf tag).any (fun u => !(s.tile u).l2.out.isEmpty
      || (s.tile u).glide.streams.any (fun x => x.flight.any (fun j => j.xl.any (fun e => l.any (fun i => i.removes e)))))
    || (s.fab.txns ++ s.hedom.txns).any (fun x => match x.user.tile? with | some u => decide (s.tag u = tag) | none => false)

/-- INVALIDATION_COMPLETE (R276, R277): the oldest invalidation of a tile takes effect, once no access of the domain that it concerns is
outstanding; walks under way begin again from ROOT. -/
def execInvalidationComplete (t : TileNo) (s : State) : Out :=
  .next (match (s.tile t).xlat.inv with
    | [] => s
    | i :: r =>
      if s.xlOutstanding (s.tag t) [i] then s
      else (s.onTile t (fun x => { x with xlat := { x.xlat with inv := r } })).invalidateXl (s.tag t) i)

/-- TCTX_WRITE (R262): at kernel privilege, after every earlier vector instruction; PRIV and the reserved bits read as
zero. -/
def execTctxWrite (t : TileNo) (user : Bool) (sa : Fin 32) (s : State) : Out :=
  .next (if !s.coreReads t [sa] [] then s
    else if user then s.trap t .illegal
    else if !s.vectorIdle t then s
    else s.onTile t (fun x => { x with xlat := { x.xlat with tctx := s.xreg t sa &&& 0x8FFFFFFFFFFFFFFF } }))

/-- ETCTX_WRITE (R262): as TCTX, with PRIV. -/
def execEtctxWrite (t : TileNo) (user : Bool) (sa : Fin 32) (s : State) : Out :=
  .next (if !s.coreReads t [sa] [] then s
    else if user then s.trap t .illegal
    else s.onTile t (fun x => { x with xlat := { x.xlat with etctx := s.xreg t sa &&& 0xCFFFFFFFFFFFFFFF } }))

/-- The Cuff that the misses of a row of Table 11.6 are of. Group copies translate through the LVU's (R271). -/
def rowCuff : WalkRow → CuffId
  | .core => .core
  | .lvu => .lvu
  | .copies => .lvu
  | .stream _ => .glide
  | .prefetch _ => .glide

/-- The walkers of a row (Table 11.6). -/
def rowWalkers : WalkRow → Nat
  | .core => 4
  | .lvu => 4
  | _ => 1

/-- CUFF_MISS (R273): an access that its Cuff does not cover goes to the Collar; it is counted (object 0x1A10). -/
def execCuffMiss (t : TileNo) (w : WalkRow) (va ctx : U64) (kernel : Bool) (k : XKind) (s : State) : Out :=
  .next (if !s.runs t || pocketWindow (vaOf va) || !ctxEn ctx
      || (s.cuff t (rowCuff w)).entries.any (fun e => e.hits (ctxAsid ctx) (vaOf va)) then s
    else s.onTile t (fun x => Tile.countXl { x with xlat := { x.xlat with misses := x.xlat.misses ++ [{ row := w, va := va, tctx := ctx, kernel := kernel, kind := k, walking := false }] } } 0))

/-- The misses of a tile with one removed. -/
def Tile.dropMiss (x : Tile) (m : Miss) : Tile := { x with xlat := { x.xlat with misses := x.xlat.misses.erase m } }

/-- The walks under way of a row (R274). -/
def Xlat.walks (x : Xlat) (w : WalkRow) : List Miss := x.misses.filter (fun m => decide (m.row = w) && m.walking)

/-- The oldest miss of a row on its way to the Collar. -/
def Xlat.asking (x : Xlat) (w : WalkRow) : Option Miss := x.misses.find? (fun m => decide (m.row = w) && !m.walking)

/-- COLLAR_RESPONSE (R273, R274): the oldest miss of a row hits in the Collar and is installed in its Cuff, or its walk begins; it waits
for a walker of its own row only. -/
def execCollarResponse (r : RowAt) (s : State) : Out :=
  let t := r.t
  let w := r.row
  .next (match (s.tile t).xlat.asking w with
    | none => s
    | some m =>
      match s.collarFind t (ctxAsid m.tctx) (vaOf m.va) with
      | some o => (s.onTile t (fun x => x.dropMiss m)).collarTake t (rowCuff w) o
      | none =>
        if rowWalkers w ≤ ((s.tile t).xlat.walks w).length then s
        else s.onTile t (fun x => Tile.countXl { x with xlat := { x.xlat with misses := x.xlat.misses.erase m ++ [{ m with walking := true }] } } 1))

/-- A translation fault of a C-core access raises its exception (R270). -/
def State.coreXlFault (s : State) (t : Nat) (va : U64) : Xl → State
  | .page => s.trap t (.page va)
  | .owner => s.trap t (.owner va)
  | .uncorr => s.trap t (.machineCheck va)
  | _ => s

/-- WALK_COMPLETE (R273, R274, R268, R269): the `n`-th walk of a row ends. On a C-core access a fault is counted (object 0x1A12) and
raises its exception. The other engines report it, and it is counted, when the access that missed meets it; a prefetch raises
nothing (R223). A walk that has to wait for an entry asks for it and goes on. -/
def execWalkComplete (r : WalkAt) (s : State) : Out :=
  let t := r.t
  let w := r.row
  .next (match ((s.tile t).xlat.walks w)[r.n.val]? with
    | none => s
    | some m =>
      match (s.onTile t (fun x => x.dropMiss m)).walk t (rowCuff w) m.tctx m.kernel m.kind (vaOf m.va) with
      | (some (.wait a), _) => s.askEntry (walkReader t (rowCuff w)) a
      | (none, s) => s.tick1
      | (some x, s) =>
        (if w = WalkRow.core then
          (if x = Xl.page ∨ x = Xl.owner then s.onTile t (fun y => y.countXl 2) else s).coreXlFault t m.va x
         else s).tick1)

/-! ### The shoot-down ring (R278, R279, R281) -/

/-- A write of the tail, clamped so that it never exceeds the completed epoch plus SIZE (serial arithmetic). A tail ahead of the epoch
sets the device to work. -/
def State.writeTail (s : State) (v : U32) : State :=
  let ep : U32 := BitVec.ofNat 32 (s.obj 0x1A01 4)
  let size := s.obj 0x1A01 2
  let d := v - ep
  let ahead := decide (0 < d.toNat) && decide (d.toNat < 0x80000000)
  let s := s.setObj 0x1A01 3 (if ahead && decide (size < d.toNat) then ep + BitVec.ofNat 32 size else v).toNat
  if s.obj 0x1A01 5 = 1 ∧ ahead then { s with collars := { s.collars with shooting := true } } else s

/-- SHOOTDOWN_TAIL_WRITE (R279). -/
def execShootdownTailWrite (p : Principal) (v : U32) (s : State) : Out :=
  .next (s.operated p 0x1A01 3 (decide ((s.writeTail v).obj 0x1A01 3 ≠ v.toNat)) (fun s => s.guarded p 0x1A01 3 (fun s => s.writeTail v)))

/-- The enable written: enabling sets the completed epoch equal to the tail. -/
def State.writeShootEnable (s : State) (b : Bool) : State :=
  let was := s.obj 0x1A01 5
  let s := s.setObj 0x1A01 5 (flag b)
  if b && decide (was = 0) then s.setObj 0x1A01 4 (s.obj 0x1A01 3) else s

/-- SHOOTDOWN_RING_ENABLE (R281). -/
def execShootdownRingEnable (p : Principal) (b : Bool) (s : State) : Out :=
  .next (s.operated p 0x1A01 5 false (fun s => s.guarded p 0x1A01 5 (fun s => s.writeShootEnable b)))

/-- The local address of a record of the ring. -/
def State.shootAt (s : State) (n : Nat) : Nat := s.obj 0x1A01 1 + 16 * (n % s.obj 0x1A01 2)

/-- The 16 bytes of a record, read coherently as the open domain (R279, R268), or what the read waits for. A record that the open domain does
not reach, or on which a read meets an uncorrectable error, is a value that the model does not hold. -/
def State.shootRecord (s : State) (n : Nat) : Except Nat Bytes :=
  let a := s.shootAt n
  let free := (List.range 16).map (fun i => BitVec.ofNat 8 (freeValue s.freeCtr 4 (16 * n + i)))
  if !s.tableOk 0 (s.pkg * 2 ^ 44 + a) then .ok free
  else match (s.readEntry 0xFFFE a).1, (s.readEntry 0xFFFE (a + 8)).1 with
    | .due w, _ => .error w
    | _, .due w => .error w
    | .is lo, .is hi => .ok (natLe 8 lo ++ natLe 8 hi)
    | _, _ => .ok free

/-- The invalidations that a record asks for (Table 11.9). -/
def recordInvs (b : Bytes) : List Inv :=
  let va := leNat (b.take 8)
  let asid : U16 := BitVec.ofNat 16 (leNat ((b.drop 8).take 2))
  let n := leNat ((b.drop 12).take 4)
  match (b.getD 10 0).toNat with
  | 0 => [⟨0, BitVec.ofNat 64 va, asid⟩]
  | 1 => [⟨1, 0, asid⟩]
  | 3 =>
    if n = 0 ∨ 512 < n then [⟨1, 0, asid⟩]
    else (List.range n).map (fun i => ⟨0, BitVec.ofNat 64 (va + 4096 * i), asid⟩)
  | _ => [⟨2, 0, 0⟩]

/-- The invalidations of `k` records from one on, in order, or what the read of one waits for. -/
def State.shootRecords (s : State) : Nat → Nat → Except Nat (List Inv)
  | _, 0 => .ok []
  | n, k + 1 =>
    match s.shootRecord (n % 2 ^ 32), s.shootRecords (n + 1) k with
    | .error w, _ => .error w
    | _, .error w => .error w
    | .ok b, .ok l => .ok (recordInvs b ++ l)

/-- The lines of `k` records from one on have been read (R251), and what the reads of host memory had brought is used. -/
def State.shootRead (s : State) (n k : Nat) : State :=
  let l := (((List.range k).map (fun i => s.shootAt ((n + i) % 2 ^ 32))).filter (fun a => s.tableOk 0 (s.pkg * 2 ^ 44 + a))).map (fun a => a / 64 * 64)
  (l.eraseDups.foldl (fun (s : State) a => (s.readEntry 0xFFFE a).2) s).dropFetched (fun a => l.contains (a / 64 * 64))

/-- The completion word, which follows the ring, written (R278). -/
def State.shootDone (s : State) (a tail : Nat) : State :=
  if s.reaches 0 a then (s.cohWriteLines 0xFFFE a false (List.replicate 8 true) (natLe 8 tail) (List.range (linesOf a 8))).2
  else if s.hostIn a then s.hostPost .device (s.hostPa a) (natLe 8 tail)
  else s

/-- SHOOTDOWN_EPOCH_COMPLETE (R279): the records from the completed epoch up to the tail are applied to the open domain, in order; once
no access that they concern is outstanding (R276), the epoch and the completion word are written, and the event is raised to the
host. Where a read, or the write of the word, has to wait, it asks for what it needs. -/
def execShootdownEpochComplete (s : State) : Out :=
  .next (
    let ep := s.obj 0x1A01 4
    let tail := s.obj 0x1A01 3
    let a := s.obj 0x1A01 1 + 16 * s.obj 0x1A01 2
    let d := (tail + 2 ^ 32 - ep) % 2 ^ 32
    let k := if d < 2 ^ 31 then d else 0
    if !s.collars.shooting then s
    else if s.reaches 0 a && !s.sReady a 8 then s.callIn 0xFFFE a 8 true false
    else match s.shootRecords ep k with
      | .error w => s.askEntry 0xFFFE w
      | .ok l =>
        if s.xlOutstanding 0 l then s
        else
          let u := (((l.foldl (fun (s : State) i => s.invalidateXl 0 i) (s.shootRead ep k)).setObj 0x1A01 4 tail).shootDone a tail).raiseSource 1
          { u with collars := { u.collars with shooting := false } }.tick1)

end Sys2Proof.Machine
end

