-- ==== Sys2Proof/Machine/Dict.lean ====
section
/-!
DEFINITION. Machine/Dict.lean: the objects of the dictionary as values: what a read gives and what a write does (17 R379 to
R394, R397; the object tables of every chapter).
-/
namespace Sys2Proof.Machine
open Sys2Proof

/-- The number of a source (R391): S is 0, side-band session slots are 1 to 5, mailbox slot `n` is 8 + n. -/
def srcNo : Source → Nat
  | .s => 0
  | .session i => i.val + 1
  | .slot n => 8 + n.val

/-- The principal that a source's operations are attributed to (R34, R395, R404). -/
def State.srcPrincipal (s : State) : Source → Principal
  | .s => .s
  | .session i => if (tabGet ({} : Session) s.sb.sessions i.val).kindF then .f else .m
  | .slot n => if n.val ≤ 1 then .h else .c (n.val - 1)

/-! ### Values (R380, R382) -/

/-- The counters that a tile keeps: unit and place. -/
def tileCounter (x : Tile) (idx : Nat) : Option Nat :=
  if 0x1310 ≤ idx ∧ idx ≤ 0x1313 then some (tabGet 0 x.eng.cnt (idx - 0x1310))
  else if 0x1410 ≤ idx ∧ idx ≤ 0x1413 then some (tabGet 0 x.lvu.cnt (idx - 0x1410))
  else if 0x1510 ≤ idx ∧ idx ≤ 0x1512 then some (tabGet 0 x.eng.cnt (idx - 0x1510 + 4))
  else if 0x1610 ≤ idx ∧ idx ≤ 0x1612 then some (tabGet 0 x.eng.cnt (idx - 0x1610 + 7))
  else if 0x1710 ≤ idx ∧ idx ≤ 0x1713 then some (tabGet 0 x.grp.cnt (idx - 0x1710))
  else if 0x1810 ≤ idx ∧ idx ≤ 0x1815 then some (tabGet 0 x.glide.cnt (idx - 0x1810))
  else if 0x1A10 ≤ idx ∧ idx ≤ 0x1A12 then some (tabGet 0 x.xlat.cnt (idx - 0x1A10))
  else if 0x1B10 ≤ idx ∧ idx ≤ 0x1B11 then some (tabGet 0 x.xlat.cnt (idx - 0x1B10 + 3))
  else none

/-- A counter of a tile set (R389). -/
def Tile.setCounter (x : Tile) (idx v : Nat) : Tile :=
  if 0x1310 ≤ idx ∧ idx ≤ 0x1313 then { x with eng := { x.eng with cnt := tabSet 0 x.eng.cnt (idx - 0x1310) v } }
  else if 0x1410 ≤ idx ∧ idx ≤ 0x1413 then { x with lvu := { x.lvu with cnt := tabSet 0 x.lvu.cnt (idx - 0x1410) v } }
  else if 0x1510 ≤ idx ∧ idx ≤ 0x1512 then { x with eng := { x.eng with cnt := tabSet 0 x.eng.cnt (idx - 0x1510 + 4) v } }
  else if 0x1610 ≤ idx ∧ idx ≤ 0x1612 then { x with eng := { x.eng with cnt := tabSet 0 x.eng.cnt (idx - 0x1610 + 7) v } }
  else if 0x1710 ≤ idx ∧ idx ≤ 0x1713 then { x with grp := { x.grp with cnt := tabSet 0 x.grp.cnt (idx - 0x1710) v } }
  else if 0x1810 ≤ idx ∧ idx ≤ 0x1815 then { x with glide := { x.glide with cnt := tabSet 0 x.glide.cnt (idx - 0x1810) v } }
  else if 0x1A10 ≤ idx ∧ idx ≤ 0x1A12 then { x with xlat := { x.xlat with cnt := tabSet 0 x.xlat.cnt (idx - 0x1A10) v } }
  else if 0x1B10 ≤ idx ∧ idx ≤ 0x1B11 then { x with xlat := { x.xlat with cnt := tabSet 0 x.xlat.cnt (idx - 0x1B10 + 3) v } }
  else x

/-- An error record of 32 bytes (Table 20.7). -/
def ErrRec.bytes (r : ErrRec) : Bytes :=
  natLe 4 r.seq.toNat ++ natLe 8 r.time.toNat ++ [r.cls, r.src, r.cloak, r.flags] ++ natLe 2 r.tile.toNat
    ++ [r.kind, r.munit, r.cause] ++ natLe 3 r.detail.toNat ++ natLe 8 r.addr.toNat

/-- Slot `n` of a log, from 1; an empty one reads as zeros. -/
def ErrLog.slot (l : ErrLog) (n : Nat) : Bytes := match l.recs[n - 1]? with | some r => r.bytes | none => List.replicate 32 0

/-- An entry of the refusal log as a principal reads it (Table 15.6, R349). -/
def Refused.view (r : Refused) (p : Principal) : Nat :=
  let mine := decide (r.state = 1 ∧ r.owner ≠ 0)
  let low := r.owner.toNat * 2 ^ 17 + r.state.toNat * 2 ^ 15 + r.kind.toNat * 2 ^ 7 + r.unit_.toNat * 2 ^ 3
  let full := r.addr.toNat * 2 ^ 64 + r.time.toNat * 2 ^ 24 + r.opc.toNat * 2 ^ 9 + low
  match p with
  | .s => full
  | .c k => if mine ∧ r.owner.toNat = k then full else 0
  | _ => if mine then low else full

/-- A session slot (Table 18.5). -/
def Session.word (x : Session) : Nat :=
  (match x.st with | .free => 0 | .setup => 1 | .opened => 2) * 2 ^ 126 + flag x.kindF * 2 ^ 125 + x.cred * 2 ^ 120 + x.sid.toNat * 2 ^ 96 + x.mac.toNat


/-- The group table (Table 14.13): entry `k` is that of Cloak `k`. -/
def State.groupWord (s : State) (k : Nat) : Nat :=
  match (s.cloak k).group with
  | some g => g.toNat * 2 ^ 16 + k * 2 ^ 8 + flag (s.cloak k).grpKey.isSome
  | none => 0

/-- The trace output owns TRACE_D0 and TRACE_D1 (R465): the UART does in BOOT and in Snowplough, and while the trace output is off. -/
def State.traceOwns (s : State) : Bool :=
  decide (s.boot.st ≠ .snowplough) && decide (s.boot.st ≠ .boot) && decide (s.obj 0x2304 2 = 1)

/-- The numeric value of an object, as it stands. -/
def State.objNum (s : State) (p : Principal) (src idx sub : Nat) : Nat :=
  let own := match p with | .c k => k | _ => 0
  match idx with
  | 0x0000 => if sub = 2 then catIndices else if sub = 3 then catObjects else 1
  | 0x0001 => kvGet 0 s.dict.query src
  | 0x0003 => countIf (fun (x : Nat × Bool) => x.2) s.dict.hold
  | 0x0004 => s.dict.parity
  | 0x1000 =>
    if sub = 2 then sumNat ((List.range 192).map (fun t => popcount8 (s.ident.atSort t))) else if sub = 3 then s.arraysUsable
    else if sub = 4 then 192 - countIf (fun t => s.fenced t) (List.range 192) else 256
  | 0x1100 => field s.ident.fenced.toNat (32 * sub - 1) (32 * (sub - 1))
  | 0x1200 =>
    if sub = 1 then s.liveCloaks.length else if sub = 2 then flag s.cloaks.coarse.active
    else if sub = 3 then 64 else flag s.unlock.flag
  | 0x1201 => (s.cloak sub).state.code
  | 0x1203 =>
    if sub = 1 then own else if sub = 2 then (s.cloak own).state.code else if sub = 3 then s.obj 0x1202 own
    else if sub = 4 then (s.tilesOf own).length
    else countIf (fun (g : Nat × BitVec 16) => decide (g.2 = entAssigned own)) s.cloaks.granules
  | 0x1500 => (s.ident.atSort (sub - 1)).toNat
  | 0x1501 => (s.ident.usableOf (sub - 1)).toNat
  | 0x1502 => (tabGet 0 s.ident.spares (sub - 1)).toNat
  | 0x1503 => (tabGet 0 s.ident.soft (sub - 1)).toNat
  | 0x1C01 => (s.port (sub - 1)).st.code + 8 * (s.port (sub - 1)).lanes
  | 0x1C40 => s.groupWord sub
  | 0x1E00 => if sub = 1 then s.hedom.link.st.code + 8 * s.hedom.link.lanes else s.obj idx sub
  | 0x1E02 => if sub = 2 then countIf (fun (e : Nat × LedgerEntry) => decide (e.2.st ≠ .free)) s.hedom.ledger else 262144
  | 0x1E04 => countIf (fun (e : Nat × LedgerEntry) => decide (e.2.st ≠ .free) && decide (e.2.owner.toNat = sub)) s.hedom.ledger
  | 0x1E12 => match s.hedom.refusals[sub - 1]? with | some r => r.view p | none => 0
  | 0x1F00 => s.fw.chainStatus
  | 0x1F01 =>
    match sub with
    | 1 => s.fw.cfwSvn
    | 2 => s.fw.dfwSvn
    | 3 => s.fuses.cfwCounter
    | 4 => s.fuses.dfwCounter
    | 5 => s.fw.slot
    | 6 => flag s.fw.commit
    | _ => s.fw.commitFail
  | 0x1F02 => if sub = 2 then s.fw.offset else s.fw.status
  | 0x1F03 => if sub = 3 then s.unlock.scope.toNat else s.unlock.result
  | 0x2000 =>
    if sub = 2 then (match kvGet none s.objs (pairOf 0x2000 2) with | some v => v | none => Nat.max 1 s.pins.sbNode.toNat)
    else if sub = 6 then s.sb.phy.toNat else s.obj idx sub
  | 0x2002 => (tabGet ({} : Session) s.sb.sessions (sub - 1)).word
  | 0x2004 => (tabGet ({} : Session) s.sb.sessions (sub - 1)).subs.length
  | 0x2200 =>
    match sub with
    | 1 => s.boot.st.code
    | 2 => s.boot.record.toNat
    | 3 => s.boot.starts
    | 6 => s.boot.alert.toNat
    | 8 => s.boot.readyMs
    | 9 => flag s.boot.degraded
    | _ => flag s.boot.railsWanted
  | 0x2201 => tabGet 0 s.boot.results sub
  | 0x2202 => if sub = 33 then s.boot.unstored else match s.boot.fails[sub - 1]? with | some r => r.toNat | none => 0
  | 0x2204 => s.logs.h.lost
  | 0x2205 => s.logs.m.lost
  | 0x2207 => tabGet 0 s.logs.byClass sub
  | 0x2300 => if sub = 1 then s.pins.pkgId.toNat else if sub = 2 then s.pins.sbNode.toNat else flag s.pins.sbEnrol
  | 0x2304 => if sub = 3 then flag s.traceOwns else if sub = 4 then flag s.pins.debugOpen else s.obj idx sub
  | _ => match tileCounter (s.tile (sub - 1)) idx with | some v => v | none => s.obj idx sub

/-- The Default of an object that is a number of its own (R382): the number, what the running firmware fixes, or what the straps give. -/
def State.rowDefault (s : State) (r : ObjRow) (idx sub : Nat) : Nat :=
  match r.dk with
  | .num => r.dflt
  | .firmware => if idx = 0 ∧ sub = 2 then catIndices else if idx = 0 ∧ sub = 3 then catObjects else 0
  | .start => if idx = 0x1C00 ∧ sub = 1 then s.pins.pkgId.toNat else if idx = 0x2000 ∧ sub = 2 then Nat.max 1 s.pins.sbNode.toNat else 0
  | _ => 0

/-- The numeric value as a principal reads it: with the main rails off, the Default of a unit on them (R385), which for a value fused per package is that value; while coarsening
is active, the figure shown (R56 to R59). -/
def State.objRead (s : State) (p : Principal) (src : Nat) (r : ObjRow) (idx sub : Nat) : Nat :=
  let hmc := decide (p ≠ .s) && decide (p ≠ .f)
  if !s.mainUp && !(decide (r.persist = 1) || decide (r.dk = .package) || servedOff idx) then s.rowDefault r idx sub
  else if s.cloaks.coarse.active && hmc && heldPairs.contains (pairOf idx sub) then
    ofSigned (8 * r.ty.size) (kvGet 0 s.cloaks.coarse.shown (pairOf idx sub))
  else if s.cloaks.coarse.active && decide (p = .h ∨ p = .m) && sharedCounter (pairOf idx sub) then 0
  else s.objNum p src idx sub

/-! ### Descriptors (R397, Table 17.7) -/

def descBytes (s : State) (pair : Nat) (ty persist acc flags size lo hi dflt : Nat) : Bytes :=
  natLe 4 pair ++ [BitVec.ofNat 8 ty, BitVec.ofNat 8 persist] ++ natLe 2 acc
    ++ [BitVec.ofNat 8 (flags + 8 * flag (kvGet false s.dict.hold pair))] ++ natLe 3 size ++ [0, 0, 0, 0]
    ++ natLe 16 lo ++ natLe 16 hi ++ natLe 16 dflt

/-- The descriptor of a pair; 64 zero bytes where it is absent. The bounds are the type's own bytes, zero-extended. -/
def State.descriptor (s : State) (pair : Nat) : Bytes :=
  match catRow (pair / 256) (pair % 256) with
  | some r => descBytes s pair r.ty.code r.persist r.acc r.flags r.ty.size
      (ofSigned (8 * r.ty.size) r.lo) (ofSigned (8 * r.ty.size) r.hi) (s.rowDefault r (pair / 256) (pair % 256))
  | none =>
    match (if pair % 256 = 0 then catHighest (pair / 256) else none) with
    | some h => descBytes s pair 2 0 0x155 0 1 0 255 h
    | none => List.replicate 64 0

/-- The pairs of a row. -/
def ObjRow.pairs (r : ObjRow) : List Nat :=
  (rangeFrom r.idxLo (r.idxHi + 1 - r.idxLo)).flatMap (fun i => (rangeFrom r.subLo (r.subHi + 1 - r.subLo)).map (fun k => pairOf i k))

/-- The catalogue digest (R397): over every descriptor, with HOLD taken as zero. -/
def State.digest (s : State) : Bytes :=
  natBe 32 (Crypto.sha256 (catalogue.flatMap (fun r => r.pairs.flatMap (fun q => { s with dict := { s.dict with hold := [] } }.descriptor q)))).toNat

/-! ### Reads (R383 to R385, R390) -/

/-- The octets of an object of an octet or string type. -/
def State.objOctets (s : State) (p : Principal) (src idx sub : Nat) : Bytes :=
  match idx with
  | 0x0000 => s.digest
  | 0x0001 => s.descriptor (kvGet 0 s.dict.query src)
  | 0x1000 => padTo 16 (ascii (if s.ident.sGrade then "LAP96-S" else "LAP96-F"))
  | 0x1F00 =>
    if sub = 1 then natBe 32 s.fw.fingerprint.toNat else if sub = 2 then s.fw.chain
    else if s.boot.st = .snowplough then List.replicate 1616 0 else s.fw.report
  | 0x1F03 => (match s.unlock.nonce with | some n => natBe 32 n.toNat | none => List.replicate 32 0) ++ List.replicate 32 0
  | 0x1F10 => if s.boot.st = .snowplough then List.replicate 1616 0 else padTo 1616 (s.cloak sub).report
  | 0x1F11 => (match p with | .c k => if s.boot.st = .snowplough then List.replicate 1616 0 else padTo 1616 (s.cloak k).report | _ => [])
  | 0x2000 => natBe 6 s.fuses.mac.toNat
  | 0x2001 => (match tabGet none s.dict.creds (sub - 1) with | some h => natBe 32 h.toNat | none => [])
  | 0x2204 => s.logs.h.slot sub
  | 0x2205 => s.logs.m.slot sub
  | 0x2206 => (match p with | .c k => (tabGet ({} : ErrLog) s.logs.c k).slot sub | _ => [])
  | _ => []

/-- The whole value of an object. -/
def State.objValue (s : State) (p : Principal) (src : Nat) (r : ObjRow) (idx sub : Nat) : Bytes :=
  match r.ty with
  | .oct _ => s.objOctets p src idx sub
  | .str _ => s.objOctets p src idx sub
  | ty => natLe ty.size (s.objRead p src r idx sub)

/-- An aon object takes its Default. -/
def State.aonDefault (s : State) (idx sub : Nat) : State :=
  match idx with
  | 0x0003 => { s with dict := { s.dict with hold := [] } }
  | 0x0004 => { s with dict := { s.dict with parity := 0 } }
  | 0x2001 => { s with dict := { s.dict with creds := tabSet none s.dict.creds (sub - 1) none } }
  | 0x2200 => { s with boot := { s.boot with starts := 0 } }
  | _ => { s with objs := kvSet none s.objs (pairOf idx sub) none }

/-- A parity failure of the aon store at a read (R390): the Default is read and written back, and counted. -/
def State.aonParity (s : State) (r : ObjRow) (idx sub : Nat) (bad : Bool) : State :=
  if bad && decide (r.persist = 1) then
    let s := s.aonDefault idx sub
    { s with dict := { s.dict with parity := Nat.min (s.dict.parity + 1) (2 ^ 32 - 1) } }
  else s

/-- A read: its status, the value, and the state after it (R379, R383, R384). `bad` says that the store of the value fails its
check: an object of the aon store then reads as its Default, and of any other nothing is delivered (UNCORR, Table 17.5), which is
an error (R452, assumption 77). An object whose Default is a dash cannot be read, whatever the code of its column (R382; DENIED, DESIGN
CHOICE, assumption 90). -/
def State.dictRead (s : State) (p : Principal) (src idx sub : Nat) (bad : Bool) : Nat × Bytes × State :=
  match catRow idx sub with
  | none => (match (if sub = 0 then catHighest idx else none) with
    | some h => (stOk, [BitVec.ofNat 8 h], s)
    | none => (stNoObj, [], s))
  | some r =>
    if !mayRead (s.code p r sub) || !s.ownEntry p idx sub || decide (r.dk = .none) then (stDenied, [], s)
    else if bad && decide (r.persist ≠ 1) then (stUncorr, [], s.error { cls := 2, src := 0x01, flags := 1 })
    else
      let s := if idx = 0x1F03 ∧ sub = 1 ∧ p = .m then s.drawNonce else s
      let s := s.aonParity r idx sub bad
      (stOk, s.objValue p src r idx sub, s)

/-! ### Writes (R386, R387, R389) -/

/-- Every aon object takes its Default, and HOLD is cleared (R390, R394). -/
def State.restoreAon (s : State) : State :=
  { s with
    objs := s.objs.filter (fun p => match catRow (p.1 / 256) (p.1 % 256) with | some r => decide (r.persist ≠ 1) | none => true)
    dict := { s.dict with hold := [], creds := [], parity := 0 }
    boot := { s.boot with starts := 0 }
    pins := { s.pins with setPending := List.range 8 } }

/-- The bounds of an ordered object (R394's worked example; R260): its range and its neighbours. -/
def State.ordered (s : State) (r : ObjRow) (idx sub first last v : Nat) : Nat :=
  let lo := if sub = first then r.lo.toNat else Nat.max r.lo.toNat (s.obj idx (sub - 1))
  let hi := if sub = last then r.hi.toNat else Nat.min r.hi.toNat (s.obj idx (sub + 1))
  clampNat lo hi v

/-- A tree as it is stored (Table 14.10). -/
def treeClamp (v : Nat) : Nat :=
  field v 127 104 * 2 ^ 104 + Nat.min 8 (field v 103 100) * 2 ^ 100 + field v 95 0

/-- A quota as it is stored (R360). -/
def State.quotaClamp (s : State) (k v : Nat) : Nat :=
  let others := sumNat (((rangeFrom 1 64).filter (fun j => decide (j ≠ k))).map (fun j => s.obj 0x1E01 j))
  Nat.max (s.objNum .s 0 0x1E04 k) (Nat.min v (262144 - others))

/-- The largest power of two that does not exceed a number, at most 4,096. -/
def powBelow (v : Nat) : Nat := (rangeFrom 0 13).foldl (fun b i => if 2 ^ i ≤ v then 2 ^ i else b) 1

/-- S installs what C chose (R49, R51): entry `k` of the group table gives Cloak `k` its group ID and, with bit 0, a group key in its
reduction slot and in the Glide key slots of its tiles; with bit 0 clear, or group 0, the key is removed. The key is C's: a free
value. A Cloak that is not RUNNING, and a group that another Cloak of this package is the member of, are IGNORED (assumption 63). -/
def State.writeGroup (s : State) (k v : Nat) : Nat × State :=
  let g := BitVec.ofNat 16 (field v 31 16)
  if (s.cloak k).state ≠ .running ∨ (g ≠ 0 ∧ s.memberOf g ≠ 0 ∧ s.memberOf g ≠ k) then (stIgnored, s)
  else
    let key : Option (BitVec 256) := if g ≠ 0 ∧ bit v 0 then some (BitVec.ofNat 256 (randomBits s.freeCtr 28 256)) else none
    let s := (s.onCloak k (fun c => { c with group := if g = 0 then none else some g, grpKey := key })).newSealKey k
    (stOk, (s.tilesOf k).foldl (fun (s : State) t => s.onTile t (fun x => { x with glide := { x.glide with grpKey := key } })) s)

/-- The base of the shoot-down ring (Table 11.10): a whole line of the Lining, the HBM or the host window. An address between or beyond
them is clamped to the line below (DESIGN CHOICE, assumption 89). -/
def ringBase (v : Nat) : Nat :=
  let a := v / 64 * 64
  if a < 0x0D000000000 then a
  else if a < 0x40000000000 then 0x0D000000000 - 64
  else if a < 0x80000000000 then a
  else 0x80000000000 - 64

/-- A numeric object stored, with the action that its own table gives; the status is OK, or one that the object's rule names. -/
def State.writeNum (s : State) (p : Principal) (src : Nat) (r : ObjRow) (idx sub v : Nat) : Nat × State :=
  let c := r.clamp v
  let put := fun (x : Nat) => (stOk, s.setObj idx sub x)
  if 0x1D00 ≤ idx ∧ idx ≤ 0x1D1F then put (c / 512 * 512) else
  match idx with
  | 0x0001 => (stOk, { s with dict := { s.dict with query := kvSet 0 s.dict.query src c } })
  | 0x0003 => (stOk, if v = 0 then s else { s with dict := { s.dict with hold := [] } })
  | 0x0004 => (stOk, if v = 0 then s else s.restoreAon)
  | 0x1202 => put (s.shareClamp sub c)
  | 0x1901 => put (s.ordered r idx sub 1 4 c)
  | 0x1A01 =>
    match sub with
    | 1 => if s.obj 0x1A01 5 = 1 then (stIgnored, s) else put (ringBase v)
    | 2 => if s.obj 0x1A01 5 = 1 then (stIgnored, s) else put (powBelow c)
    | 3 => (stOk, s.writeTail (BitVec.ofNat 32 v))
    | _ => (stOk, s.writeShootEnable (decide (v ≠ 0)))
  | 0x1C00 =>
    match sub with
    | 1 => if s.obj 0x1C00 2 = 1 then (stIgnored, s) else (stOk, (s.setObj 0x1C00 1 c).onFw (fun x => { x with reportDue := true }))
    | 2 => (stOk, s.writeFabricEnable c)
    | 3 => (stOk, (s.setObj 0x1C00 3 c).onFw (fun x => { x with reportDue := true }))
    | _ => put c
  | 0x1C02 => (stOk, s.writeControl (.port (Fin.ofNat 32 (sub - 1))) c)
  | 0x1C20 => put (treeClamp v)
  | 0x1C21 => put (treeClamp v)
  | 0x1C30 => (stOk, s.writeRed p (sub - 1) (v % 2 ^ 128))
  | 0x1C40 => s.writeGroup sub v
  | 0x1E00 =>
    match sub with
    | 2 => (stOk, s.writeControl .hedom c)
    | 3 => if s.obj 0x1E00 5 = 1 then (stIgnored, s) else put (c / 0x200000 * 0x200000)
    | 4 => if s.obj 0x1E00 5 = 1 then (stIgnored, s) else put c
    | _ => put c
  | 0x1E01 => put (s.quotaClamp sub c)
  | 0x1F01 => s.writeCommit c
  | 0x1F02 => if sub = 1 then s.writeUpdate p c else s.writeOffset p v
  | 0x2002 =>
    (stOk, match (List.range 5).find? (fun i => decide ((tabGet ({} : Session) s.sb.sessions i).st = .opened) && decide ((tabGet ({} : Session) s.sb.sessions i).sid.toNat = c)) with
      | some i => s.sbClose i 7
      | none => s)
  | 0x2101 => if sub = 1 then put (stepBelow c) else if v = 0 then (stOk, s) else if s.gov.markBusy then (stIgnored, s) else (stOk, s.timeMark p)
  | 0x2103 => if sub ≤ 3 then put (s.ordered r idx sub 1 3 c) else put c
  | 0x2200 =>
    match sub with
    | 4 => (stOk, if v = 0 then s else s.coldResetWrite p)
    | 5 => (stOk, s.mainRailsWrite p (decide (c ≠ 0)))
    | _ => (stOk, s.alertAck p (BitVec.ofNat 16 v))
  | 0x2204 => (stOk, if v = 0 then s else s.clearHLog p)
  | 0x2205 => (stOk, if v = 0 then s else s.clearMLog p)
  | 0x2301 => (stOk, s.setPointWrite p (Fin.ofNat 8 (sub - 1)) (BitVec.ofNat 16 (Nat.min v 65535)))
  | 0x2303 => if sub ≤ 8 ∧ s.boot.rails ≠ 0 then (stIgnored, s) else put c
  | 0x2304 => if sub = 2 then (stOk, s.traceWrite p (decide (v ≠ 0))) else put c
  | _ =>
    match tileCounter (s.tile (sub - 1)) idx with
    | some _ => (stOk, s.onTile (sub - 1) (fun x => x.setCounter idx c))
    | none => put c

/-- An octet object stored. -/
def State.writeOctets (s : State) (p : Principal) (idx sub : Nat) (b : Bytes) (flash : Bool) : Nat × State :=
  match idx with
  | 0x1F00 => (stOk, s.onFw (fun x => { x with report := b.take 1616 }))
  | 0x1F02 => s.writeImage p b flash
  | 0x1F03 => s.writeToken b
  | 0x2001 =>
    let h : Option (BitVec 256) := if b.length < 32 then none else some (BitVec.ofNat 256 (leNat (b.take 32).reverse))
    (stOk, { s with dict := { s.dict with creds := tabSet none s.dict.creds (sub - 1) h } })
  | _ => (stOk, s)

/-- The value that a response to a write shows: what the object now holds. An object that cannot be read shows what was
taken, of the bytes `b`. -/
def State.readBack (s : State) (p : Principal) (src : Nat) (r : ObjRow) (idx sub : Nat) (b : Bytes) : Bytes :=
  match r.ty with
  | .oct n => if idx = 0x2001 ∨ idx = 0x1F00 then s.objOctets p src idx sub else b.take n
  | .str _ => []
  | ty => if r.dk = .none then natLe ty.size (r.clamp (leNat (b.take ty.size))) else natLe ty.size (s.objNum p src idx sub)

/-- A write: its status, the stored value, and the state after it (R386). Bytes of a number beyond those given are zero, and
bytes beyond its type are ignored (R396). -/
def State.dictWrite (s : State) (p : Principal) (src idx sub : Nat) (b : Bytes) (flash : Bool) : Nat × Bytes × State :=
  match catRow idx sub with
  | none => (s.writeCheck p idx sub, [], s)
  | some r =>
    let st := s.writeCheck p idx sub
    let taken := if idx = 0x1F02 ∧ sub = 3 then s.imageTaken b else b
    if st = stIgnored ∨ st = stHeld then (st, s.readBack p src r idx sub b, s)
    else if st ≠ 0 then (st, [], s)
    else
      let res : Nat × State := match r.ty with
        | .oct _ => s.writeOctets p idx sub b flash
        | .str _ => (stOk, s)
        | ty => s.writeNum p src r idx sub (leNat (b.take ty.size))
      if res.1 ≠ stOk then (res.1, res.2.readBack p src r idx sub b, res.2)
      else
        let v := res.2.readBack p src r idx sub taken
        let same := match r.ty with | .oct _ => decide (v = b) | ty => decide (leNat v = leNat (b.take ty.size))
        (if same then stOk else stClamped, v, res.2.setHold p idx sub)

/-! ### The commands -/

/-- A source can present an operation (R391): a session that is open, and a mailbox slot that awaits no response. -/
def State.presents (s : State) : Source → Bool
  | .s => true
  | .session i => decide ((tabGet ({} : Session) s.sb.sessions i.val).st = .opened)
  | .slot n => (tabGet ({} : MSlot) s.dict.slots n.val).busy.isNone

/-- The mailbox slot of a source; 66 is none. -/
def srcSlot : Source → Nat
  | .slot n => n.val
  | _ => 66

/-- An operation of a source ends (R397, R427). -/
def State.servedFor (s : State) (src : Source) (st : Nat) : State := (s.countOp (s.srcPrincipal src) st true).otherServed (srcSlot src)

/-- OBJECT_WRITE (R386, R391, R392). -/
def execObjectWrite (src : Source) (idx : BitVec 16) (sub : BitVec 8) (data : List (BitVec 8)) (s : State) : Out :=
  .next (if !s.dictFree || !s.presents src then s
    else
      let r := s.dictWrite (s.srcPrincipal src) (srcNo src) idx.toNat sub.toNat data true
      (r.2.2.servedFor src r.1).tick1)

/-- HOLD_RELEASE (R394): a write of 1 to object 0x0003.01. -/
def execHoldRelease (p : Principal) (s : State) : Out :=
  .next (s.operated p 0x0003 1 false (fun s => s.guarded p 0x0003 1 (fun s => { s with dict := { s.dict with hold := [] } })))

/-- AON_RESTORE (R390): a write of 1 to object 0x0004.01. -/
def execAonRestore (p : Principal) (s : State) : Out :=
  .next (s.operated p 0x0004 1 false (fun s => s.guarded p 0x0004 1 State.restoreAon))

/-- DESCRIPTOR_QUERY (R397): a write of object 0x0001.01 by a source. -/
def execDescriptorQuery (src : Source) (pair : BitVec 24) (s : State) : Out :=
  .next (if !s.dictFree || !s.presents src then s
    else
      let st := s.writeCheck (s.srcPrincipal src) 0x0001 1
      (if st = 0 then { s with dict := { s.dict with query := kvSet 0 s.dict.query (srcNo src) pair.toNat } } else s).servedFor src st)

end Sys2Proof.Machine
end

