-- ==== Sys2Proof/Machine/Mailbox.lean ====
section
/-!
DEFINITION. Machine/Mailbox.lean: the dictionary mailbox: its slots, and the operations that it serves (17 R391 to R396).
-/
namespace Sys2Proof.Machine
open Sys2Proof

def State.mslot (s : State) (n : Nat) : MSlot := tabGet ({} : MSlot) s.dict.slots n

def State.setMslot (s : State) (n : Nat) (x : MSlot) : State := { s with dict := { s.dict with slots := tabSet ({} : MSlot) s.dict.slots n x } }

/-- DRESP (Table 17.4). -/
def MSlot.dresp (x : MSlot) : Nat :=
  flag x.busy.isSome * 2 ^ 63 + flag x.lost * 2 ^ 62 + x.seq.toNat * 2 ^ 48 + x.len.toNat * 2 ^ 32 + x.status.toNat * 2 ^ 16

/-- The DATA area of a slot, 256 bytes. -/
def MSlot.area (x : MSlot) : Bytes := x.data.take 256 ++ List.replicate (256 - x.data.length) 0

/-- The 512 bytes of a slot as its issuer reads them; DCMD and the reserved bytes read as zero. -/
def MSlot.image (x : MSlot) : Bytes :=
  List.replicate 8 0 ++ natLe 8 x.dresp ++ natLe 8 x.dbuf.toNat ++ List.replicate 232 0 ++ x.area

/-- A write of DCMD (Table 17.3): it issues the operation, or is lost while one is in progress. -/
def MSlot.issue (x : MSlot) (v : U64) (by_ : Nat) : MSlot :=
  if x.busy.isSome then { x with lost := true } else { x with busy := some v, lost := false, by_ := by_, seen := 0 }

/-- A write into a slot at an offset: the eight-byte registers take whole words, DATA takes bytes. -/
def MSlot.write (x : MSlot) (off : Nat) (b : Bytes) (by_ : Nat) : MSlot :=
  if off = 0 ∧ b.length = 8 then x.issue (BitVec.ofNat 64 (leNat b)) by_
  else if off = 0x10 ∧ b.length = 8 then { x with dbuf := BitVec.ofNat 64 (leNat b % 2 ^ 44 / 64 * 64) }
  else if 0x100 ≤ off then { x with data := (bytesPut x.area (off - 0x100) b).take 256 }
  else x

/-- The mailbox slots in the order of R392: slot 0, slot 1, then the Cloaks' in rotation. -/
def State.slotOrder (s : State) : List Nat := 0 :: 1 :: (rangeFrom (s.dict.lastC + 1) 64).map (fun j => (j - 1) % 64 + 2)

/-- The mailbox slot whose operation the engine takes next (R392); one that has seen eight operations of other sources goes ahead
of the order (R427). -/
def State.nextSlot (s : State) : Option Nat :=
  let busy := fun (n : Nat) => (s.mslot n).busy.isSome
  match s.slotOrder.find? (fun n => busy n && decide (8 ≤ (s.mslot n).seen)) with
  | some n => some n
  | none => s.slotOrder.find? busy

def slotSource (n : Nat) : Source := .slot (Fin.ofNat 66 n)

/-- The domain tag of a slot's issuer. -/
def slotTag (n : Nat) : Nat := if n ≤ 1 then 0 else n - 1

/-- An operation ends: DRESP is set, and the issuer is told (R396, R354). -/
def State.endOp (s : State) (n : Nat) (c : Nat) (st len : Nat) : State :=
  let x := s.mslot n
  let s := s.setMslot n { x with busy := none, seq := BitVec.ofNat 8 (field c 55 48), status := BitVec.ofNat 8 st, len := BitVec.ofNat 16 len }
  let s := (if 2 ≤ n then { s with dict := { s.dict with lastC := n - 1 } } else s).otherServed n
  if n = 0 then s.raiseSource 4 else s.coreEvent x.by_ .mailbox

/-- The size of an object, which bounds the length of an operation on it (R386). -/
def objSize (idx sub : Nat) : Nat := match catRow idx sub with | some r => r.ty.size | none => 1

/-- An object of octets, whose length is part of its value (R381). -/
def octets (idx sub : Nat) : Bool := match catRow idx sub with | some r => (match r.ty with | .oct _ => true | _ => false) | none => false

def dcmdIdx (c : Nat) : Nat := field c 23 8
def dcmdSub (c : Nat) : Nat := field c 7 0

/-- LEN clamped (R386): at most 256 inline, at most 4,096 through the buffer, and at most the object's size. -/
def dcmdLen (c : Nat) : Nat := Nat.min (Nat.min (field c 47 32) (if bit c 31 then 4096 else 256)) (objSize (dcmdIdx c) (dcmdSub c))

/-- The status of a WRITE that stored what it took: a length cut short changed a value of octets. -/
def dcmdSt (c st : Nat) : Nat :=
  if st = stOk ∧ octets (dcmdIdx c) (dcmdSub c) = true ∧ dcmdLen c < field c 47 32 then stClamped else st

/-- The buffer of an operation lies in the host-memory window (R347). -/
def State.bufHost (s : State) (n len : Nat) : Bool :=
  decide (0 < len) && s.hostIn (s.mslot n).dbuf.toNat && s.hostIn ((s.mslot n).dbuf.toNat + len - 1)

/-- The buffer of an operation passes R40 for the slot's issuer, or lies in the host-memory window. -/
def State.bufOk (s : State) (n len : Nat) : Bool :=
  decide (len = 0) || s.reachesAll (slotTag n) (s.mslot n).dbuf.toNat len || s.bufHost n len

/-- The stage of the operation whose buffer lies in host memory. -/
def State.setXfer (s : State) (x : Option Xfer) : State := { s with dict := { s.dict with xfer := x } }

/-- A buffer in host memory read: `len` bytes with RDNC. -/
def State.bufFetch (s : State) (n len : Nat) : State :=
  (s.hostTxn .mailbox 4 (s.hostPa (s.mslot n).dbuf.toNat) len []).setXfer (some ⟨n, .fetch⟩)

/-- A buffer in host memory written with WRNC: the operation ends with status `st` once CMP has come. -/
def State.bufPut (s : State) (n st : Nat) (d b : Bytes) : State :=
  (s.hostTxn .mailbox 5 (s.hostPa (s.mslot n).dbuf.toNat) d.length d).setXfer (some ⟨n, .put st d.length b⟩)

/-- The bytes delivered to DATA or to the buffer. -/
def State.opDeliver (s : State) (n c : Nat) (b : Bytes) : Got × State :=
  if b.isEmpty then (.got [], s)
  else if !bit c 31 then (.got [], s.setMslot n ((s.mslot n).write 0x100 b 0))
  else s.cohWrite 0xFFFE (s.mslot n).dbuf.toNat false b

/-- The bytes that a WRITE takes. -/
def State.opTake (s : State) (n c len : Nat) : Got × State :=
  if !bit c 31 then (.got ((s.mslot n).area.take len), s) else s.cohRead 0xFFFE (s.mslot n).dbuf.toNat len

/-- The READ of a slot (R396): the first min(LEN, size) bytes of the value are delivered; while the buffer's lines are busy it waits, and
where the buffer is refused or fails nothing is. -/
def State.mailRead (s : State) (n c : Nat) (bad : Bool) : State :=
  let p := s.srcPrincipal (slotSource n)
  let r := s.dictRead p (8 + n) (dcmdIdx c) (dcmdSub c) bad
  let b := r.2.1.take (dcmdLen c)
  let st := if r.1 = stOk ∧ dcmdLen c < r.2.1.length then stShort else r.1
  if bit c 31 && !s.bufOk n b.length then (s.endOp n c stBufFault 0).countOp p stBufFault false
  else if bit c 31 && s.bufHost n b.length then r.2.2.bufPut n st b []
  else match r.2.2.opDeliver n c b with
    | (.wait, u) => s.asks u
    | (.bad, u) => (u.endOp n c stBufFault 0).countOp p stBufFault false
    | (.got _, u) => (u.endOp n c st b.length).countOp p st false

/-- The WRITE of a slot: the stored value is written back over the bytes that were taken. The buffer's lines are called in for that first;
where the buffer fails, nothing is stored. -/
def State.mailWrite (s : State) (n c : Nat) : State :=
  let p := s.srcPrincipal (slotSource n)
  let len := dcmdLen c
  let fault := fun (s : State) => (s.endOp n c stBufFault 0).countOp p stBufFault true
  if bit c 31 && !s.bufOk n len then fault s
  else if bit c 31 && s.bufHost n len then s.bufFetch n len
  else if bit c 31 && decide (0 < len) && !s.free 0xFFFE (s.mslot n).dbuf.toNat len true false then s.callIn 0xFFFE (s.mslot n).dbuf.toNat len true false
  else match s.opTake n c len with
    | (.wait, u) => s.asks u
    | (.bad, u) => fault u
    | (.got b, u) =>
      let r := u.dictWrite p (8 + n) (dcmdIdx c) (dcmdSub c) b true
      let back := r.2.1.take b.length
      match u.opDeliver n c back with
      | (.wait, _) => s
      | (.bad, v) => fault v
      | (.got _, v) =>
        let w := v.dictWrite p (8 + n) (dcmdIdx c) (dcmdSub c) b true
        (w.2.2.endOp n c (dcmdSt c w.1) back.length).countOp p (dcmdSt c w.1) true

/-- An operation whose buffer lies in host memory goes on: a WRITE whose bytes have come sends the value to be stored back, and
stores it once that has its CMP; a READ ends when its bytes have theirs; an access that failed ends the operation with BUFFAULT. -/
def State.mailGo (s : State) (x : Xfer) (write : Bool) : State :=
  let n := x.slot
  match (s.mslot n).busy with
  | none => s.setXfer none
  | some v =>
    let c := v.toNat
    let p := s.srcPrincipal (slotSource n)
    let store := fun (b : Bytes) => s.dictWrite p (8 + n) (dcmdIdx c) (dcmdSub c) b true
    if write ≠ decide (field c 63 60 = 2) then s
    else match x.stage with
      | .fetch => s
      | .put _ _ _ => s
      | .failed => ((s.setXfer none).endOp n c stBufFault 0).countOp p stBufFault write
      | .fetched b =>
        let r := store b
        let back := r.2.1.take b.length
        if back.isEmpty then ((r.2.2.setXfer none).endOp n c (dcmdSt c r.1) 0).countOp p (dcmdSt c r.1) true
        else s.bufPut n r.1 back b
      | .done st len b =>
        if write then
          let r := store b
          ((r.2.2.setXfer none).endOp n c (dcmdSt c r.1) len).countOp p (dcmdSt c r.1) true
        else ((s.setXfer none).endOp n c st len).countOp p st false

/-- The next operation of the mailbox, where it is of the kind given; a reserved OP ends with BADOP. One whose buffer lies in host
memory is served until it has ended. -/
def State.mailServe (s : State) (write bad : Bool) : State :=
  match s.dict.xfer with
  | some x => if s.dictRuns then s.mailGo x write else s
  | none =>
  match s.nextSlot with
  | none => s
  | some n =>
    match (s.mslot n).busy with
    | none => s
    | some c =>
      let op := field c.toNat 63 60
      if !s.dictRuns then s
      else if op = 1 then (if write then s else s.mailRead n c.toNat bad)
      else if op = 2 then (if write then s.mailWrite n c.toNat else s)
      else (s.endOp n c.toNat stBadOp 0).countOp (s.srcPrincipal (slotSource n)) stBadOp write

/-- MAILBOX_READ (R396). `bad` says that the aon store's parity failed at the read (R390). -/
def execMailboxRead (bad : Bool) (s : State) : Out := .next (s.mailServe false bad).tick1

/-- MAILBOX_WRITE (R396). -/
def execMailboxWrite (s : State) : Out := .next (s.mailServe true false).tick1

end Sys2Proof.Machine
end

