-- ==== Sys2Proof/Machine/Windows.lean ====
section
/-!
DEFINITION. Machine/Windows.lean: the register windows, and the work rings, doorbells and vectors behind the link window
(10 R239, R240; 02 R39; 15 R351 to R355).
-/
namespace Sys2Proof.Machine
open Sys2Proof

/-! ### Rings, doorbells and vectors -/

def State.ring (s : State) (r : Nat) : Ring := tabGet ({} : Ring) s.hedom.rings r

def State.setRing (s : State) (r : Nat) (x : Ring) : State := { s with hedom := { s.hedom with rings := tabSet ({} : Ring) s.hedom.rings r x } }

def Ring.en (x : Ring) : Bool := x.rcfg.getLsbD 63
def Ring.dir (x : Ring) : Bool := x.rcfg.getLsbD 62
def Ring.tile (x : Ring) : Nat := field x.rcfg.toNat 55 48
def Ring.vec (x : Ring) : Nat := field x.rcfg.toNat 47 37
def Ring.ven (x : Ring) : Bool := x.rcfg.getLsbD 36
def Ring.size (x : Ring) : Nat := field x.rcfg.toNat 31 0

/-- RCFG as it is stored (Table 15.7). -/
def rcfgClamp (v : Nat) : Nat :=
  field v 63 62 * 2 ^ 62 + Nat.min 191 (field v 55 48) * 2 ^ 48 + field v 47 36 * 2 ^ 36 + clampNat 1 (2 ^ 31) (field v 31 0)

/-- A write of RCFG (R351). -/
def Ring.writeCfg (x : Ring) (v : Nat) : Ring :=
  if bit v 63 then (if x.en then x else { rcfg := BitVec.ofNat 64 (rcfgClamp v), hidx := 0, didx := 0 })
  else { x with rcfg := BitVec.ofNat 64 (rcfgClamp v) }

/-- A tail write clamped in serial arithmetic (R352). -/
def tailClamp (size : Nat) (head v : U32) : U32 :=
  let d := (v - head).toNat
  if d ≤ size then v else if 2 ^ 31 ≤ d then head else head + BitVec.ofNat 32 size

/-- A head write clamped: it never passes the tail. -/
def headClamp (tail v : U32) : U32 :=
  let d := (v - tail).toNat
  if d = 0 ∨ 2 ^ 31 ≤ d then v else tail

/-- A write of an index: with DIR 0, HIDX is the tail and DIDX the head; with DIR 1 the other way round. -/
def Ring.writeHidx (x : Ring) (v : U32) : Ring :=
  { x with hidx := if x.dir then headClamp x.didx v else tailClamp x.size x.didx v }

def Ring.writeDidx (x : Ring) (v : U32) : Ring :=
  { x with didx := if x.dir then tailClamp x.size x.hidx v else headClamp x.hidx v }

/-- HIDX written (R352): bit `r` of DBPEND of the ring's TILE is set, and its doorbell event is raised. -/
def State.writeHidx (s : State) (r : Nat) (v : U32) : State :=
  let x := s.ring r
  let i := 4 * x.tile + r / 64
  let s := s.setRing r (x.writeHidx v)
  let s := { s with hedom := { s.hedom with dbpend := tabSet 0 s.hedom.dbpend i (tabGet 0 s.hedom.dbpend i ||| BitVec.ofNat 64 (2 ^ (r % 64))) } }
  s.coreEvent x.tile .doorbell

/-- DIDX written (R352): with VEN it sends vector VEC. -/
def State.writeDidx (s : State) (r : Nat) (v : U32) : State :=
  let x := s.ring r
  let s := s.setRing r (x.writeDidx v)
  if x.ven then s.raiseVec x.vec else s

/-- Doorbell pending bits cleared by writing 1. -/
def State.clearDb (s : State) (i : Nat) (v : U64) : State :=
  { s with hedom := { s.hedom with dbpend := tabSet 0 s.hedom.dbpend i (tabGet 0 s.hedom.dbpend i &&& ~~~ v) } }

def State.vec (s : State) (v : Nat) : Vec := tabGet ({} : Vec) s.hedom.vectors v

def State.setVec (s : State) (v : Nat) (x : Vec) : State := { s with hedom := { s.hedom with vectors := tabSet ({} : Vec) s.hedom.vectors v x } }

/-- VCTL written (R353): DATA and MASK; clearing MASK sends a pending vector once. -/
def State.writeVctl (s : State) (v w : Nat) : State :=
  let x := s.vec v
  let y : Vec := { x with data := BitVec.ofNat 32 w, mask := bit w 32 }
  if !y.mask && y.pend then (s.setVec v { y with pend := false }).raiseVec v else s.setVec v y

def Vec.ctl (x : Vec) : Nat := x.data.toNat + flag x.mask * 2 ^ 32 + flag x.pend * 2 ^ 33

/-! ### Access codes of the link window (R355, Table 15.8) -/

/-- The registers of the link window. -/
inductive LinkReg where
  | rcfg (r : Nat)
  | hidx (r : Nat)
  | didx (r : Nat)
  | dbpend (i : Nat)
  | vaddr (v : Nat)
  | vctl (v : Nat)
  | reserved
  deriving DecidableEq, Repr

def linkReg (off : Nat) : LinkReg :=
  let o := off / 8 * 8
  if o < 0x2000 then
    (match o % 0x20 with | 0 => .rcfg (o / 0x20) | 8 => .hidx (o / 0x20) | 16 => .didx (o / 0x20) | _ => .reserved)
  else if o < 0x3800 then .dbpend ((o - 0x2000) / 8)
  else if o < 0x4000 then .reserved
  else if o < 0xC000 then (if o % 16 = 0 then .vaddr ((o - 0x4000) / 16) else .vctl ((o - 0x4000) / 16))
  else .reserved

/-- The code of the tables' columns: 1 r, 3 rw. -/
def columnCode (p : Principal) (h c s f : Nat) : Nat :=
  match p with
  | .h => h
  | .m => 0
  | .c _ => c
  | .s => s
  | .f => f

/-- The code that applies for a principal (0 none, 1 r, 3 rw): the table's while the tile is open; otherwise R355's. -/
def State.linkCode (s : State) (p : Principal) (g : LinkReg) : Nat :=
  let f := if s.unlock.scope = 0 then 0 else 3
  let byTile := fun (t h hc c : Nat) =>
    let k := s.tag t
    if k = 0 then columnCode p h c 1 f
    else match p with
      | .h => hc
      | .c j => if j = k then c else 0
      | .s => 1
      | _ => 0
  match g with
  | .rcfg r => byTile (s.ring r).tile 3 1 1
  | .hidx r => byTile (s.ring r).tile 3 3 1
  | .didx r => byTile (s.ring r).tile 3 1 3
  | .dbpend i => byTile (i / 4) 3 0 3
  | .vaddr _ => columnCode p 3 0 1 f
  | .vctl _ => columnCode p 3 0 1 f
  | .reserved => 3

def State.linkRead (s : State) : LinkReg → Nat
  | .rcfg r => (s.ring r).rcfg.toNat
  | .hidx r => (s.ring r).hidx.toNat
  | .didx r => (s.ring r).didx.toNat
  | .dbpend i => (tabGet 0 s.hedom.dbpend i).toNat
  | .vaddr v => (s.vec v).vaddr.toNat
  | .vctl v => (s.vec v).ctl
  | .reserved => 0

def State.linkWrite (s : State) (g : LinkReg) (v : Nat) : State :=
  match g with
  | .rcfg r => s.setRing r ((s.ring r).writeCfg v)
  | .hidx r => s.writeHidx r (BitVec.ofNat 32 v)
  | .didx r => s.writeDidx r (BitVec.ofNat 32 v)
  | .dbpend i => s.clearDb i (BitVec.ofNat 64 v)
  | .vaddr w => s.setVec w { s.vec w with vaddr := BitVec.ofNat 64 (v / 4 * 4) }
  | .vctl w => s.writeVctl w v
  | .reserved => s

/-- A register of the link window written by a principal that may. -/
def State.linkWriteBy (s : State) (p : Principal) (g : LinkReg) (v : Nat) : State :=
  if s.linkCode p g = 3 then s.linkWrite g v else s

/-! ### Windows (R239, R240) -/

/-- The principal and the mailbox slot of an issuer: the host over the link, or a tile. -/
def State.issuer (s : State) : Option Nat → Principal × Nat
  | none => (.h, 0)
  | some t => if s.tag t = 0 then (.h, 1) else (.c (s.tag t), 1 + s.tag t)

/-- The code of a register of a Glide window for those who reach the window (Table 9.11): 1 r, 2 w, 3 rw; a reserved one reads
as zero and ignores writes. -/
def glideCode (off : Nat) : Nat :=
  if off < 0x400 then (match off % 0x40 / 8 with | 0 => 2 | 1 => 1 | 2 => 1 | 3 => 1 | _ => 3) else 3

/-- The code of a register of a mailbox slot for its own issuer (Table 17.2). -/
def mailCode (off : Nat) : Nat := match off / 8 with | 0 => 2 | 1 => 1 | _ => 3

/-- Whether a code allows a read or a write (R7). -/
def codeAllows (c : Nat) (write : Bool) : Bool := c.testBit (if write then 1 else 0)

/-- Whether an issuer may access a window's register (R7, R236, R395); a reserved part refuses. -/
def State.winOk (s : State) (iss : Option Nat) (w : Window) (write : Bool) : Bool :=
  let p := s.issuer iss
  match w with
  | .glide t off => s.glideAccess p.1 t write && codeAllows (glideCode off) write
  | .ownership _ => !write
  | .mailbox off => decide (off / 512 = p.2) && codeAllows (mailCode (off % 512)) write
  | .hedom off => if write then decide (s.linkCode p.1 (linkReg off) = 3) else decide (s.linkCode p.1 (linkReg off) ≠ 0)
  | .reserved => false

/-- Eight bytes of a window at an offset that is a multiple of eight. -/
def State.winCell (s : State) (w : Window) : Nat × State :=
  match w with
  | .glide t off => s.glideRead t off
  | .ownership off => (leNat ((rangeFrom (off / 2) 4).flatMap (fun g => natLe 2 (s.granule g).toNat)), s)
  | .mailbox off => (leNat (((s.mslot (off / 512)).image.drop (off % 512)).take 8), s)
  | .hedom off => (s.linkRead (linkReg off), s)
  | .reserved => (0, s)

/-- Every eight-byte cell that `n` bytes from a local address touch. -/
def cellsOf (a n : Nat) : List Nat := (rangeFrom (a / 8) ((a + n - 1) / 8 + 1 - a / 8)).map (fun i => 8 * i)

/-- The upper half of the cell of a 32-bit index register: an offset that Table 15.8 does not list (R355). -/
def unlisted (w : Window) (off : Nat) : Bool :=
  match w with
  | .hedom o => (match linkReg o with | .hidx _ => decide (4 ≤ off) | .didx _ => decide (4 ≤ off) | _ => false)
  | _ => false

/-- A read of a window by an issuer: none where it is refused. -/
def State.winRead (s : State) (iss : Option Nat) (a n : Nat) : Option (Bytes × State) :=
  if !(cellsOf a n).all (fun c => unlisted (windowOf c) (a - c) || s.winOk iss (windowOf c) false) then none
  else
    let r := (cellsOf a n).foldl (fun (r : Bytes × State) c =>
      let x := r.2.winCell (windowOf c)
      (r.1 ++ natLe 8 x.1, x.2)) ([], s)
    some ((r.1.drop (a % 8)).take n, r.2)

/-- The part of a write that falls into a cell: its first byte's place, and the bytes. -/
def cellPart (a : Nat) (b : Bytes) (c : Nat) : Nat × Bytes :=
  if a ≤ c then (0, (b.drop (c - a)).take 8) else (a - c, b.take (8 - (a - c)))

/-- A cell of a window written: a register takes the bytes given, and zeros for those that are not. -/
def State.winPut (s : State) (iss : Option Nat) (c off : Nat) (b : Bytes) : State :=
  let v := leNat (List.replicate off 0 ++ b)
  match windowOf c with
  | .glide t o => s.glideWrite t o v
  | .mailbox o => s.setMslot (o / 512) ((s.mslot (o / 512)).write (o % 512 + off) b (match iss with | some t => t | none => 0))
  | .hedom o => if unlisted (windowOf c) off then s else s.linkWrite (linkReg o) v
  | _ => s

/-- A write of a window by an issuer: none where it is refused. -/
def State.winWrite (s : State) (iss : Option Nat) (a : Nat) (b : Bytes) : Option State :=
  if !(cellsOf a b.length).all (fun c => unlisted (windowOf c) (a - c) || s.winOk iss (windowOf c) true) then none
  else some ((cellsOf a b.length).foldl (fun (s : State) c => s.winPut iss c (cellPart a b c).1 (cellPart a b c).2) s)

/-! ### The commands -/

/-- RCFG_WRITE (R351). -/
def execRcfgWrite (p : Principal) (r : Fin 256) (v : BitVec 64) (s : State) : Out := .next (s.linkWriteBy p (.rcfg r.val) v.toNat)

/-- HIDX_WRITE (R352). -/
def execHidxWrite (p : Principal) (r : Fin 256) (v : BitVec 32) (s : State) : Out := .next (s.linkWriteBy p (.hidx r.val) v.toNat)

/-- DIDX_WRITE (R352). -/
def execDidxWrite (p : Principal) (r : Fin 256) (v : BitVec 32) (s : State) : Out := .next (s.linkWriteBy p (.didx r.val) v.toNat)

/-- DBPEND_CLEAR (R352): 64 rings' bits of a tile. -/
def execDbpendClear (p : Principal) (t : TileNo) (w : Fin 4) (v : BitVec 64) (s : State) : Out :=
  .next (s.linkWriteBy p (.dbpend (4 * t.val + w.val)) v.toNat)

/-- VCTL_WRITE (R353). -/
def execVctlWrite (p : Principal) (n : Fin 2048) (v : BitVec 64) (s : State) : Out := .next (s.linkWriteBy p (.vctl n.val) v.toNat)

end Sys2Proof.Machine
end

