-- ==== Sys2Proof/Machine/HostOps.lean ====
section
/-!
DEFINITION. Machine/HostOps.lean: packets of the Hedom link at the device: requests of the host with their refusals, snoops of the
host, and host lines in the L2s (12 R298, R299; 15 R345 to R350, R359).
-/
namespace Sys2Proof.Machine
open Sys2Proof

/-! ### Packets -/

/-- A message to the host as a packet: an answer that a tile supplies carries the tag of the request in hand. -/
def State.hostPacket (s : State) (m : Msg) : Packet :=
  let tag := if m.src < 192 then (match s.handOf m.line with | some x => x.msg.tag | none => 0) else m.tag
  { opc := m.kind.opcode, len := m.data.length, tag := tag, addr := 64 * m.line + m.off, data := m.data
    status := if m.kind = .err then (if m.refused then fsOwner else fsUncorr) else 0 }

/-- The messages under way to the host leave by the link. -/
def State.flushHost (s : State) : State :=
  let l := s.coh.net.filter (fun m => decide (m.dst = 192))
  l.foldl (fun (s : State) m => s.hedomSend (s.hostPacket m)) (s.setNet (s.coh.net.filter (fun m => decide (m.dst ≠ 192))))

/-- A packet has been taken: it leaves its input buffer. -/
def State.dropHost (s : State) (p : Packet) : State := { s with hedom := { s.hedom with inbox := s.hedom.inbox.erase p } }.release p.held

/-- The packet of an opcode that stands first on its channel (R346). -/
def State.nextHost (s : State) (opc : Nat) : Option Packet :=
  match s.hedom.inbox.find? (fun p => decide (p.opc = opc)) with
  | none => none
  | some p =>
    match s.hedom.inbox.find? (fun q => decide (q.vc hedomLink = p.vc hedomLink)) with
    | some q => if q = p then some p else none
    | none => none

/-- A response to a request of the host. -/
def State.hostReply (s : State) (p : Packet) (opc status : Nat) (data : Bytes) : State :=
  (s.dropHost p).hedomSend { opc := opc, len := data.length, tag := p.tag, addr := p.addr, data := data, status := status, bulk := p.bulk }

/-! ### Refusals (R349) -/

def hostAddr (p : Packet) : Nat := p.addr % 2 ^ 44

/-- The bytes that a request touches. -/
def hostSpan (p : Packet) : Nat :=
  if p.opc = 4 then p.len
  else if p.opc = 5 then p.data.length
  else if p.opc = 6 then (match atomRead p.data with | some a => a.2.1 | none => 8)
  else 64

/-- An entry of the refusal log: one that concerns a granule of a Cloak waits while coarsening is active. -/
def State.logRefusal (s : State) (r : Refused) : State :=
  if s.cloaks.coarse.active ∧ r.state = 1 then { s with hedom := { s.hedom with heldRefusals := s.hedom.heldRefusals ++ [r] } }
  else { s with hedom := { s.hedom with refusals := (r :: s.hedom.refusals).take 64 } }.raiseSource 5

/-- The byte of a request whose granule refuses it: its first, unless that passes. -/
def State.refusedAt (s : State) (p : Packet) : Nat := if s.reaches 0 (hostAddr p) then hostAddr p + hostSpan p - 1 else hostAddr p

/-- A request refused: answered with all ones or discarded, counted and logged. -/
def State.hostRefuse (s : State) (p : Packet) (kind : Nat) : State :=
  let a := hostAddr p
  let e := match granuleOf (s.refusedAt p) with | some g => s.granule g | none => 0
  let r : Refused := { addr := BitVec.ofNat 44 a, time := BitVec.ofNat 40 s.now, owner := BitVec.ofNat 7 (if kind ≤ 1 then entOwner e else 0)
                       state := BitVec.ofNat 2 (if kind ≤ 1 then entState e else 0), opc := BitVec.ofNat 6 p.opc, kind := BitVec.ofNat 2 kind
                       unit_ := BitVec.ofNat 4 (if kind ≤ 1 then memUnit (s.refusedAt p) else 0) }
  let s := (s.bump 0x1E11 1 1).logRefusal r
  let ones := List.replicate (hostSpan p) (0xFF : Byte)
  match p.opc with
  | 3 => s.hostReply p 0x12 fsOwner []
  | 5 => s.hostReply p 0x12 fsOwner []
  | 6 => s.hostReply p 0x17 fsOwner ones
  | _ => s.hostReply p 0x10 fsOwner ones

/-! ### Requests of the host (R348 to R350) -/

/-- A host write, line by line: every line that can be is written; whether all were. -/
def State.hostWriteLines (s : State) (a : Nat) (b : Bytes) : List Nat → Bool × State
  | [] => (true, s)
  | i :: is =>
    let x := lineSlice a i (b.map (fun _ => true)) b
    match s.cohWriteLine 0xFFFF (lineOf a + i) false x.1 x.2 with
    | (ok, s) => match s.hostWriteLines a b is with
      | (rest, s) => (ok && rest, s)

/-- A request to memory of OPEN granules is served; it waits while its lines are busy or their holders are snooped. -/
def State.hostServe (s : State) (p : Packet) : State :=
  let a := hostAddr p
  let ask := fun (k : MsgKind) => ((s.dropHost p).enter { kind := k, line := lineOf a, src := 192, dst := homeNode, tag := p.tag }).flushHost
  match p.opc with
  | 1 => ask .rds
  | 2 => ask .rdx
  | 3 => ask .upg
  | 4 =>
    (match s.cohRead 0xFFFF a p.len with
     | (.wait, u) => s.asks u
     | (.bad, s) => s.hostReply p 0x18 fsUncorr []
     | (.got b, s) => s.hostReply p 0x10 0 b)
  | 5 =>
    let n := p.data.length
    if !s.free 0xFFFF a n true false then s.callIn 0xFFFF a n true false
    else if s.heldByCap (writeLoad a n (List.replicate n true)) then s
    else match s.hostWriteLines a p.data (List.range (linesOf a p.data.length)) with
      | (true, s) => s.hostReply p 0x12 0 []
      | (false, s) => s.hostReply p 0x18 fsUncorr []
  | _ =>
    match atomRead p.data with
    | none => s.hostReply p 0x18 fsUncorr []
    | some (op, size, v, cmp) =>
      if a % size ≠ 0 then s.hostReply p 0x18 fsUncorr []
      else match s.cohAtomic 0xFFFF a size op v cmp with
        | (.wait, u) => s.asks u
        | (.bad, s) => s.hostReply p 0x18 fsUncorr []
        | (.got b, s) => s.hostReply p 0x17 0 b

/-- The charge of a request of the host (R421); a line is asked for whole. -/
def hostCharge (p : Packet) : Nat := homeCharge (if p.opc ≤ 3 then hostAddr p / 64 * 64 else hostAddr p) (hostSpan p)

/-- A request to memory that has met its charge on the shared pool (R421) is served. -/
def State.hostMem (s : State) (p : Packet) : State :=
  match s.chargeShared (hostCharge p) with
  | (false, _) => s
  | (true, t) =>
    let u := t.hostServe p
    if u.hedom.inbox.length = s.hedom.inbox.length then s.asks u else u

/-- A request to a register window. -/
def State.hostWin (s : State) (p : Packet) : State :=
  let a := hostAddr p
  let kind := if p.opc ≠ 6 && (cellsOf a (hostSpan p)).any (fun c => decide (windowOf c = .reserved)) then 2 else 3
  match p.opc with
  | 4 => (match s.winRead none a p.len with
    | some (b, s) => s.hostReply p 0x10 0 b
    | none => s.hostRefuse p kind)
  | 5 => (match s.winWrite none a p.data with
    | some s => s.hostReply p 0x12 0 []
    | none => s.hostRefuse p kind)
  | _ => s.hostRefuse p kind

/-- A request waits for the host's earlier writes where order is promised (R346): a read, cached or not, and a write of a register
window. -/
def State.hostOrdered (s : State) (p : Packet) : Bool :=
  let earlier := s.hedom.inbox.takeWhile (fun q => decide (q ≠ p))
  let writes := earlier.any (fun q => decide (q.opc = 5 ∨ q.opc = 6))
  !(writes && ([1, 2, 4, 6].contains p.opc || decide (place (hostAddr p) = .window)))

/-- The dictionary mailbox is served in Snowplough too (R359). -/
def toMailbox (a : Nat) : Bool := match windowOf a with | .mailbox _ => decide (place a = .window) | _ => false

/-- The oldest request of an opcode of the host is served as node 192, with domain tag 0. -/
def State.hostRequest (s : State) (opc : Nat) : State :=
  match s.nextHost opc with
  | none => s
  | some p =>
    let a := hostAddr p
    if !s.hostOrdered p then s
    else if s.boot.st = .snowplough ∧ !toMailbox a then s.hostReply p 0x18 fsDown []
    else if s.boot.st ≠ .ready ∧ s.boot.st ≠ .snowplough then s
    else match place a with
      | .window => s.hostWin p
      | .host => s.hostRefuse p 2
      | .reserved => s.hostRefuse p 2
      | pl => if s.reachesAll 0 a (hostSpan p) then s.hostMem p else s.hostRefuse p (if pl = .lining then 0 else 1)

/-! ### Lines in the L2s: eviction (R284, R290) and host lines (R299) -/

/-- A write-back of an M line: the line stands in the write-back buffer until WBACK; a host line's goes to the host. -/
def State.evict (s : State) (t line : Nat) : State :=
  let l := s.l2 t line
  if l.st ≠ .m then s.setL2 t line {}
  else
    let s := (s.setL2 t line {}).onTile t (fun x => { x with l2 := { x.l2 with wb := x.l2.wb ++ [(line, l.data)] } })
    if lineHost line then s.hedomSend { opc := 0x15, len := 64, addr := s.hostPa (64 * line), data := l.data }
    else s.send { kind := .wb, line := line, src := t, dst := homeNode, data := l.data }

/-- A line put into an L2 of 16,384 lines; the least recently used one that no access awaits leaves (R287: a granted line is used
before it is given up). -/
def State.fill (s : State) (t line : Nat) (l : L2Line) : State :=
  let s := s.setL2 t line l
  let x := (s.tile t).l2
  if x.lines.length ≤ 16384 then s
  else match (x.lines.filter (fun p => !x.out.any (fun o => decide (o.line = p.1)))).getLast? with
    | some p => s.evict t p.1
    | none => s

/-- A host line recalled from every L2 that holds it. -/
def State.recallHostLine (s : State) (line : Nat) : State :=
  (List.range 192).foldl (fun (s : State) t => if (s.l2 t line).st = .i then s else (s.countSnoop t).evict t line) s

/-- An access of some L2 awaits a line. -/
def State.awaited (s : State) (line : Nat) : Bool := s.tiles.any (fun (x : Tile) => x.l2.out.any (fun o => decide (o.line = line)))

/-- The host-line tracker records that a tile holds a line; a full set recalls its least recently used line (object 0x1B02), of those that
no L2 awaits where there is one (assumption 30). -/
def State.track (s : State) (line t : Nat) : State :=
  let old : BitVec 192 := match s.coh.tracker.find? (fun p => decide (p.1 = line)) with | some p => p.2 | none => 0
  let rest := s.coh.tracker.filter (fun p => decide (p.1 ≠ line))
  let set := rest.filter (fun p => decide (filterSet p.1 % 32768 = filterSet line % 32768))
  let new := (line, old ||| BitVec.ofNat 192 (2 ^ t))
  if rest.length < 16 ∨ set.length < 16 then { s with coh := { s.coh with tracker := new :: rest } }
  else match (set.filter (fun p => !s.awaited p.1)).getLast?.orElse (fun _ => set.getLast?) with
    | some p => ({ s with coh := { s.coh with tracker := new :: rest.erase p } }.recallHostLine p.1).bumpShared 0x1B02 1 1
    | none => { s with coh := { s.coh with tracker := new :: rest } }

/-- A snoop of the host for a host line: every L2 that holds it answers (R299). It waits where a holder has still to use its grant, and
where no L2 holds the line and a grant of it is due (R287). -/
def State.hostSnoopIn (s : State) (p : Packet) (k : MsgKind) : State :=
  let line := lineOf (hostAddr p)
  let holders := (List.range 192).filter (fun t => decide ((s.l2 t line).st ≠ .i))
  let due := fun (t : Nat) => (s.tile t).l2.out.any (fun o => decide (o.line = line) && !isAtomDest o.dest && (o.granted || holders.isEmpty))
  let wb := (List.range 192).any (fun t => (s.wbOf t line).isSome)
  if (List.range 192).any due then s
  else
    let dirty := (s.dirtyTile line).map (fun t => (s.l2 t line).data)
    let s' := holders.foldl (fun (s : State) t =>
      let s := s.countSnoop t
      match k with
      | .snps => s.setL2 t line { s.l2 t line with st := .s }
      | .snpcur => s
      | _ => s.setL2 t line {}) s
    let s' := if k = .snps ∨ k = .snpcur then s' else { s' with coh := { s'.coh with tracker := s'.coh.tracker.filter (fun q => decide (q.1 ≠ line)) } }
    if k = .inv then s'.hostReply p 0x13 0 []
    else if wb then s.hostReply p 0x14 3 []
    else match dirty with
      | some d => s'.hostReply p 0x14 2 d
      | none => s'.hostReply p 0x14 (if holders.isEmpty then 0 else 1) []

/-! ### Answers of the host -/

/-- The device's request that an answer names by its tag. -/
def State.hostTxnOf (s : State) (tag : U16) : Option RTxn := s.hedom.txns.find? (fun x => decide (x.tag = tag))

/-- A host line granted to an L2: in S for a read, in E for a write. -/
def State.hostGrant (s : State) (t line : Nat) (b : Bytes) (write : Bool) : State :=
  ((s.fill t line { st := if write then .e else .s, data := b }).track line t).performLine t line write

/-- An answer of the host reaches the transaction that its tag names: its consumer, or the L2 that asked for a line. A late one
is discarded. An L2 that has lost the copy that it asked to upgrade asks for the line (R289). -/
def State.hostAnswer (s : State) (p : Packet) : State :=
  let gone := s.dropHost p
  match s.hostTxnOf p.tag with
  | none => gone
  | some x =>
    match x.user with
    | .cache t line =>
      let s := gone.dropHostTxn x
      if !((s.tile t).l2.out.any (fun o => decide (o.line = line))) then s
      else if p.opc = 0x12 then
        (if (s.l2 t line).st = .i then s.hostTxn (.cache t line) 2 x.addr 0 [] else (s.hostGrant t line (s.l2 t line).data true).drainVecs)
      else (s.hostGrant t line p.data (decide (p.opc = 0x11))).drainVecs
    | _ =>
      match (gone.dropHostTxn x).userAnswer x (some p.data) true with
      | .done s => s.drainVecs
      | .wait u => s.asks { u with hedom := { u.hedom with inbox := s.hedom.inbox, txns := x :: u.hedom.txns } }

/-- ERR of the host: the consumer faults as an uncorrectable error does (R350). -/
def State.hostErr (s : State) (p : Packet) : State :=
  let gone := s.dropHost p
  match s.hostTxnOf p.tag with
  | none => gone
  | some x => gone.hostFail x 2

/-- HOST_TIMEOUT (R350): a request of the device goes unanswered. -/
def execHostTimeout (tag : BitVec 16) (s : State) : Out :=
  .next (match s.hostTxnOf tag with
    | none => s
    | some x => (s.hostFail x 4).tick1)

end Sys2Proof.Machine
end

