-- ==== Sys2Proof/Machine/Coherence.lean ====
section
/-!
DEFINITION. Machine/Coherence.lean: the messages of the coherence protocol, at the home agents and at the caches (12 R286 to R299;
15 R345). A command names the node that a message comes from, or goes to, and its line; node 192 is the host, whose messages are
packets of the Hedom link.
-/
namespace Sys2Proof.Machine
open Sys2Proof

/-- The oldest message of a kind that satisfies a condition. -/
def State.pick (s : State) (k : MsgKind) (line : Nat) (p : Msg → Bool) : Option (Msg × State) :=
  match takeMsg (fun m => decide (m.kind = k) && decide (m.line = line) && p m) s.coh.net with
  | some (m, r) => some (m, s.setNet r)
  | none => none

/-! ### Requests at the home -/

/-- A request of a tile reaches its home (R288): one that R40 refuses is answered ERR. One that a transaction in hand does not hold
is served, its line meeting the fault that its read finds (R251); a home under a cap delays it (R254). Where no message waits, the
command is the transfer of an access that waits at its unit, and of it the fault that it meets on the line (R247, R251, R258; DESIGN
CHOICE, assumption 30). -/
def State.homeRequest (s : State) (k : MsgKind) (n line : Nat) (found : Option LineFault) : State :=
  match s.pick k line (fun m => decide (m.src = n) && decide (m.dst = homeNode)) with
  | none => s.meet line found (decide (k = .wrnc))
  | some (m, s1) =>
    if !s.reachesAll (s.nodeTag n) (64 * line) 64 then s1.send { reply m .err [] false with refused := true }
    else if (s.handOf line).isSome then (s1.enter m).flushHost
    else if s.capped (64 * line) then s
    else ((s1.meet line found (decide (k = .wrnc))).enter m).flushHost

/-- The host's request reaches memory of this package. -/
def State.hostServes (s : State) (p : Packet) : Bool :=
  s.hostOrdered p && decide (s.boot.st = .ready) && (decide (place (hostAddr p) = .lining) || decide (place (hostAddr p) = .hbm))
    && s.reachesAll 0 (hostAddr p) (hostSpan p)

/-- A request at the home, of a tile or of the host. -/
def State.requestCmd (s : State) (k : MsgKind) (n line : Nat) (found : Option LineFault) : State :=
  if n = 192 then
    match s.nextHost k.opcode with
    | none => s
    | some p =>
      if !s.hostServes p then s.hostRequest k.opcode
      else if s.capped (64 * lineOf (hostAddr p)) || decide (s.gov.shared < hostCharge p) then s
      else (s.meet (lineOf (hostAddr p)) found (decide (k = .wrnc))).hostRequest k.opcode
  else s.homeRequest k n line found

/-- RDS (R289). -/
def execRds (n : Fin 195) (line : LineRead) (s : State) : Out := .next (s.requestCmd .rds n.val line.line.toNat line.found).tick1

/-- RDX (R289). -/
def execRdx (n : Fin 195) (line : LineRead) (s : State) : Out := .next (s.requestCmd .rdx n.val line.line.toNat line.found).tick1

/-- UPG (R289). -/
def execUpg (n : Fin 195) (line : LineRead) (s : State) : Out := .next (s.requestCmd .upg n.val line.line.toNat line.found).tick1

/-- RDNC (R292). -/
def execRdnc (n : Fin 195) (line : LineRead) (s : State) : Out := .next (s.requestCmd .rdnc n.val line.line.toNat line.found).tick1

/-- WRNC (R292). -/
def execWrnc (n : Fin 195) (line : LineRead) (s : State) : Out := .next (s.requestCmd .wrnc n.val line.line.toNat line.found).tick1

/-- ATOM (R293). -/
def execAtom (n : Fin 195) (line : LineRead) (s : State) : Out := .next (s.requestCmd .atom n.val line.line.toNat line.found).tick1

/-! ### Snoops at a holder (R287, R299) -/

/-- A snoop from the home reaches a tile's L2; one from the host reaches every L2 that holds its line. -/
def State.snoopCmd (s : State) (k : MsgKind) (n line : Nat) : State :=
  if n = 192 then (match s.nextHost k.opcode with | none => s | some p => s.hostSnoopIn p k)
  else match s.pick k line (fun m => decide (m.dst = n)) with
    | none => s
    | some (m, s) => (s.snoop n line k m.req).flushHost

/-- SNPS (R287). -/
def execSnps (n : Fin 193) (line : BitVec 38) (s : State) : Out := .next (s.snoopCmd .snps n.val line.toNat)

/-- SNPX (R287). -/
def execSnpx (n : Fin 193) (line : BitVec 38) (s : State) : Out := .next (s.snoopCmd .snpx n.val line.toNat)

/-- SNPCUR (R287). -/
def execSnpcur (n : Fin 193) (line : BitVec 38) (s : State) : Out := .next (s.snoopCmd .snpcur n.val line.toNat)

/-- SNPINV (R287). -/
def execSnpinv (n : Fin 193) (line : BitVec 38) (s : State) : Out := .next (s.snoopCmd .snpinv n.val line.toNat)

/-- INV (R287). -/
def execInv (n : Fin 193) (line : BitVec 38) (s : State) : Out := .next (s.snoopCmd .inv n.val line.toNat)

/-! ### Responses at a cache -/

/-- An access of the tile for the line is outstanding. -/
def State.awaits (s : State) (t line : Nat) : Bool := (s.tile t).l2.out.any (fun o => decide (o.line = line))

/-- Data granting S or E reaches an L2 (Table 12.4); data for an access of the tile's engines is put by for it (R292). -/
def State.dataIn (s : State) (t line : Nat) : State :=
  match s.pick .data line (fun m => decide (m.dst = t)) with
  | none => s
  | some (m, s) =>
    if m.unit_ ≠ 0 then s.lend line t (some m.data)
    else if !s.awaits t line then s
    else ((s.fill t line { st := if m.excl then .e else .s, data := m.data }).performLine t line false).flushHost

/-- Data granting E for a write: where INVACKs are due, CMP follows (R289). -/
def State.dataxIn (s : State) (t line : Nat) : State :=
  match s.pick .datax line (fun m => decide (m.dst = t)) with
  | none => s
  | some (m, s) =>
    if !s.awaits t line then s
    else
      let s := s.fill t line { st := .e, data := m.data }
      if m.excl && !(s.tile t).l2.out.any (fun o => decide (o.line = line) && o.done) then s.onTile t (fun x => { x with l2 := { x.l2 with out := x.l2.out.map (fun (o : Outstanding) => if o.line = line then { o with granted := true } else o) } })
      else (s.performLine t line true).flushHost

/-- The transaction is complete: the store of a granted or upgraded line is performed. Where DATAX has still to arrive, the L2 notes
that CMP has: a response is always taken (R22). -/
def State.cmpIn (s : State) (t line : Nat) : State :=
  match s.pick .cmp line (fun m => decide (m.dst = t)) with
  | none => s
  | some (_, s) =>
    let l := s.l2 t line
    if !s.awaits t line then s
    else if l.st = .i then
      s.onTile t (fun x => { x with l2 := { x.l2 with out := x.l2.out.map (fun (o : Outstanding) => if o.line = line then { o with done := true } else o) } })
    else ((s.setL2 t line { l with st := if l.st = .s then .e else l.st }).performLine t line true).flushHost

/-- A host packet of an opcode that answers the device: data that the host supplies for a request in hand goes to its
requester. -/
def State.hostResponse (s : State) (opc : Nat) : State :=
  match s.nextHost opc with
  | none => s
  | some p =>
    let line := lineOf (hostAddr p)
    match s.handOf line with
    | some x =>
      if x.snoop ∧ x.inner ∧ (s.filterOf line).owner = some 192 ∧ opc = 0x10 then (s.dropHost p).lend line x.msg.src (some p.data)
      else if x.snoop ∧ x.msg.src < 192 ∧ (s.filterOf line).owner = some 192 ∧ (opc = 0x10 ∨ opc = 0x11) then
        (s.dropHost p).send { kind := if opc = 0x10 then .data else .datax, line := line, src := 192, dst := x.msg.src, data := p.data }
      else s.hostAnswer p
    | none => s.hostAnswer p

/-- DATA (R289). -/
def execData (n : Fin 193) (line : BitVec 38) (s : State) : Out :=
  .next (if n = 192 then s.hostResponse 0x10 else s.dataIn n.val line.toNat).tick1

/-- DATAX (R289). -/
def execDatax (n : Fin 193) (line : BitVec 38) (s : State) : Out :=
  .next (if n = 192 then s.hostResponse 0x11 else s.dataxIn n.val line.toNat).tick1

/-- CMP (R289). -/
def execCmp (n : Fin 193) (line : BitVec 38) (s : State) : Out :=
  .next (if n = 192 then s.hostResponse 0x12 else s.cmpIn n.val line.toNat).tick1

/-- The old value of an atomic reaches the C-core that issued it. -/
def State.atomIn (s : State) (t line : Nat) : State :=
  match s.pick .atomrsp line (fun m => decide (m.dst = t)) with
  | none => s
  | some (m, s) =>
    match (s.tile t).l2.out.find? (fun o => decide (o.line = line)) with
    | none => s
    | some o => ((s.onTile t (fun x => { x with l2 := { x.l2 with out := x.l2.out.erase o } })).deliver t o.dest m.data).releaseHeld t line

/-- ATOMRSP (R293). -/
def execAtomrsp (n : Fin 193) (line : BitVec 38) (s : State) : Out :=
  .next (if n = 192 then s.hostResponse 0x17 else s.atomIn n.val line.toNat).tick1

/-- ERR (R286): the consumer faults (R40, R251; R350 for the host). -/
def execErr (n : Fin 193) (line : BitVec 38) (s : State) : Out :=
  .next (if n = 192 then (match s.nextHost 0x18 with | some p => s.hostErr p | none => s)
    else match s.pick .err line.toNat (fun m => decide (m.dst = n.val)) with
      | none => s
      | some (m, s) => s.lineFail n.val line.toNat m.refused).tick1

/-! ### Responses at the home -/

/-- INVACK (R289). -/
def execInvack (n : Fin 193) (line : BitVec 38) (s : State) : Out :=
  .next (if n = 192 then
      (match s.nextHost 0x13 with | none => s | some p => ((s.dropHost p).ackIn 192 (lineOf (hostAddr p))).flushHost)
    else match s.pick .invack line.toNat (fun m => decide (m.src = n.val)) with
      | none => s
      | some (_, s) => (s.ackIn n.val line.toNat).flushHost).tick1

/-- The response that a packet's STATUS names (Table 15.4). -/
def snpRspOf (status : Nat) : SnpRsp := match status with | 0 => .miss | 1 => .clean | 2 => .dirty | _ => .wbpend

/-- SNPRSP (R290). -/
def execSnprsp (n : Fin 193) (line : BitVec 38) (s : State) : Out :=
  .next (if n = 192 then
      (match s.nextHost 0x14 with | none => s | some p => ((s.dropHost p).rspIn 192 (lineOf (hostAddr p)) (snpRspOf p.status) p.data).flushHost)
    else match s.pick .snprsp line.toNat (fun m => decide (m.src = n.val)) with
      | none => s
      | some (m, s) => (s.rspIn n.val line.toNat m.rsp m.data).flushHost).tick1

/-- An L2 evicts a dirty line (R290). -/
def State.startWb (s : State) (n line : Nat) : State :=
  match (s.l2 n line).st with
  | .m => s.evict n line
  | _ => s

/-- WB (R290): a write-back under way reaches the home. Where none is under way, the L2 evicts the line. -/
def execWb (n : Fin 193) (line : BitVec 38) (s : State) : Out :=
  .next (if n = 192 then
      (match s.nextHost 0x15 with | none => s | some p => ((s.dropHost p).wbIn 192 (lineOf (hostAddr p)) p.data).flushHost)
    else match s.pick .wb line.toNat (fun m => decide (m.src = n.val)) with
      | some (m, s) => (s.wbIn n.val line.toNat m.data).flushHost
      | none => s.startWb n.val line.toNat).tick1

/-- The write-back buffer of a tile gives a line up. -/
def State.freeWb (s : State) (t line : Nat) : State :=
  s.onTile t (fun x => { x with l2 := { x.l2 with wb := x.l2.wb.filter (fun p => decide (p.1 ≠ line)) } })

/-- WBACK (R290). -/
def execWback (n : Fin 193) (line : BitVec 38) (s : State) : Out :=
  .next (if n = 192 then
      (match s.nextHost 0x16 with
       | none => s
       | some p => (List.range 192).foldl (fun (s : State) t => if (s.wbOf t (lineOf (hostAddr p))).isSome then s.freeWb t (lineOf (hostAddr p)) else s) (s.dropHost p))
    else match s.pick .wback line.toNat (fun m => decide (m.dst = n.val)) with
      | none => s
      | some (_, s) => s.freeWb n.val line.toNat)

end Sys2Proof.Machine
end

