-- ==== Sys2Proof/Machine/CoreMem.lean ====
section
/-!
DEFINITION. Machine/CoreMem.lean: loads, stores and atomics of a C-core (03 R69 to R72; 04 R112; 11 R263, R270; 12 R284 to R297).
A command is one instruction; it waits (it leaves the state as it is) where an older access, a FENCE or a charge holds it.
-/
namespace Sys2Proof.Machine
open Sys2Proof

/-! ### Order -/

/-- Two byte ranges share an address of 57 bits. -/
def meetVa (a n b m : Nat) : Bool :=
  decide ((vaOf' b + 2 ^ 57 - vaOf' a) % 2 ^ 57 < n) || decide ((vaOf' a + 2 ^ 57 - vaOf' b) % 2 ^ 57 < m)
where vaOf' (v : Nat) : Nat := v % 2 ^ 57

/-- Two byte ranges share a page offset: only such ranges can share a byte at different addresses. -/
def meetInPage (a n b m : Nat) : Bool := decide ((b + 4096 - a % 4096) % 4096 < n) || decide ((a + 4096 - b % 4096) % 4096 < m)

/-- Where the bytes of a translated access stand: a space (the Pocket, this package, another one), and an address in it. -/
def Side.spot : Side → Option (Nat × Nat)
  | .pocket o => some (0, o)
  | .mem a _ => some (1, a)
  | .host a => some (1, a)
  | .window a => some (1, a)
  | .remote pa _ => some (2, pa)
  | _ => none

/-- Two ranges of translated bytes share a byte. -/
def spotsMeet (a b : Nat × Nat) (n m : Nat) : Bool := decide (a.1 = b.1) && decide (a.2 < b.2 + m) && decide (b.2 < a.2 + n)

/-- An element of a vector access and a scalar access share a byte: at one address, or at two that translate to one place. While a
translation awaits a table in host memory they count as sharing one, unless the queue has stopped on a fault. -/
def State.elemMeets (s : State) (t : Nat) (x : Lvu) (e : VEntry) (va : U64) (n : Nat) (at_ : U64) : Bool :=
  let w := x.sew / 8
  meetVa va.toNat n at_.toNat w ||
  (meetInPage va.toNat n at_.toNat w &&
    (let a := s.resolve t .core (s.tile t).xlat.tctx true .read va n
     let b := s.resolve t .lvu e.tctx e.kernel .read at_ w
     match a.spot, b.spot with
     | some p, some q => spotsMeet p q n w
     | _, _ => (a.walking?.isSome || b.walking?.isSome) && !x.faulted))

/-- A vector access meets a range: an indexed one that is outstanding meets every range (R112). Where the queue has stopped on a fault
none is outstanding, and of the head the elements from VSTART on count. -/
def State.vMeets (s : State) (t : Nat) (va : U64) (n : Nat) (x : Lvu) (head : Bool) (e : VEntry) (m : VMode) : Bool :=
  if m = .indexed ∧ !x.faulted then true
  else (List.range x.len).any (fun k =>
    (!(x.faulted && head) || (decide (x.cur ≤ k) && (x.pred e.i.pg).testBit k)) && s.elemMeets t x e va n (elemVa x e m k))

/-- A vector access of the queue that has not been performed meets a range; the SETVLs before it count. -/
def State.vqMeets (s : State) (t : Nat) (va : U64) (n : Nat) : Lvu → Bool → List VEntry → Bool
  | _, _, [] => false
  | x, head, e :: es =>
    match e.i.kind with
    | .setvl c =>
      s.vqMeets t va n { x with vtype := BitVec.ofNat 2 c.val, vl := BitVec.ofNat 16 (Nat.min e.xa.toNat (vlmax (sewBits c.val))) } false es
    | .load m => s.vMeets t va n x head e m || s.vqMeets t va n x false es
    | .store m => s.vMeets t va n x head e m || s.vqMeets t va n x false es
    | _ => s.vqMeets t va n x false es

/-- A scalar access waits for an earlier vector access that meets it and has not been performed (R112), also where the queue has
stopped on a fault: the handler's other accesses run. -/
def State.vectorHolds (s : State) (t : Nat) (va : U64) (n : Nat) : Bool := s.vqMeets t va n (s.tile t).lvu true (s.tile t).lvu.queue

/-- Two ranges of global physical addresses share a byte. -/
def rangesMeet (a n b m : Nat) : Bool := decide (a < b + m) && decide (b < a + n)

/-- The stores of the queue that overlap a range, oldest first (R71). -/
def State.storesOver (s : State) (t pa n : Nat) : List PendStore :=
  (s.tile t).core.storeQ.filter (fun p => rangesMeet pa n p.addr p.data.length)

/-- What a load takes from the store queue: nothing overlaps; the youngest overlapping store holds every byte; or it waits. -/
inductive Forward where
  | clear
  | from_ (b : Bytes)
  | wait
  deriving DecidableEq, Repr

/-- R71. -/
def State.forward? (s : State) (t pa n : Nat) : Forward :=
  match (s.storesOver t pa n).getLast? with
  | none => .clear
  | some p => if p.addr ≤ pa ∧ pa + n ≤ p.addr + p.data.length then .from_ ((p.data.drop (pa - p.addr)).take n) else .wait

/-- A scalar access: a load with its destination, or a store of some bytes, which may be the second part of a store over two lines. -/
inductive CoreAcc where
  | load (d : Dest)
  | store (b : Bytes) (tail : Bool)
  deriving DecidableEq, Repr

def CoreAcc.isStore : CoreAcc → Bool
  | .store _ _ => true
  | _ => false

/-! ### A line of this package's memory or of host memory -/

/-- The accesses of an L2 that await a line. -/
def State.lineOut (s : State) (t line : Nat) : List Outstanding := (s.tile t).l2.out.filter (fun o => decide (o.line = line))

def State.pushOut (s : State) (t : Nat) (o : Outstanding) : State :=
  s.onTile t (fun x => { x with l2 := { x.l2 with out := x.l2.out ++ [o] } })

def State.pushStore (s : State) (t pa : Nat) (b : Bytes) (tail : Bool) : State :=
  s.onTile t (fun x => { x with core := { x.core with storeQ := x.core.storeQ ++ [⟨pa, b, tail⟩] } })

/-- A charge that must be met. -/
def State.pay (s : State) (t cost : Nat) : Option State :=
  match s.charge t .memory cost with
  | (true, s) => some s
  | (false, _) => none

/-- A request for a line (R289): RDS for a load; RDX, or UPG of an S copy, for a store. A host line's goes over the link. -/
def State.askLine (s : State) (t line : Nat) (k : MsgKind) (host : Bool) : State :=
  if host then s.hostTxn (.cache t line) k.opcode (s.hostPa (64 * line)) 0 []
  else s.send { kind := k, line := line, src := t, dst := homeNode }

/-- The outstanding access of a tile joins the request under way for its line, or makes one, which is charged. -/
def State.awaitLine (s : State) (t : Nat) (o : Outstanding) (k : MsgKind) (host : Bool) (cost : Nat) : Option State :=
  if (s.lineOut t o.line).isEmpty then (s.pay t cost).map (fun s => (s.askLine t o.line k host).pushOut t o)
  else some (s.pushOut t o)

/-- A load of `n` bytes of one line: forwarded, taken from the L2, or awaited. -/
def State.lineLoad (s : State) (t pa line n : Nat) (d : Dest) (host : Bool) (cost : Nat) : Option State :=
  match s.forward? t pa n with
  | .wait => none
  | .from_ b => some (s.deliver t d b)
  | .clear =>
    let l := s.l2 t line
    if (s.wbOf t line).isSome || (s.lineOut t line).any (fun o => isAtomDest o.dest) then none
    else if l.st ≠ .i then some (s.deliver t d ((l.data.drop (pa % 64)).take n))
    else if 96 ≤ (s.tile t).l2.out.length then none
    else s.awaitLine t { line := line, write := false, addr := pa, size := n, dest := d } .rds host cost

/-- A store of bytes of one line: performed in an L2 that holds it in E or M, or put into the store queue of 72 while it is
awaited. An older load of the line that has not been performed holds it (R69). -/
def State.lineStore (s : State) (t pa line : Nat) (b : Bytes) (tail host : Bool) (cost : Nat) : Option State :=
  let l := s.l2 t line
  let out := s.lineOut t line
  if (s.wbOf t line).isSome || out.any (fun o => !o.write) then none
  else if out.isEmpty && (decide (l.st = .e) || decide (l.st = .m)) then
    some (s.l2Write t pa b)
  else if 72 ≤ (s.tile t).core.storeQ.length then none
  else (s.awaitLine t { line := line, write := true, addr := pa, size := b.length, dest := .store }
      (if l.st = .s then .upg else .rdx) host cost).map (fun s => s.pushStore t pa b tail)

def State.lineAccess (s : State) (t pa : Nat) (n : Nat) (c : CoreAcc) (host : Bool) (cost : Nat) : Option State :=
  let line := localOf pa / 64
  match c with
  | .load d => s.lineLoad t pa line n d host cost
  | .store b tail => s.lineStore t pa line b tail host cost

/-! ### Another package (R297) -/

/-- An access of the C-core to one of the remote lines of a range is outstanding. -/
def State.remoteBusy (s : State) (t pa n : Nat) : Bool :=
  s.fab.txns.any (fun x => (match x.user with | .core u _ => decide (u = t) | _ => false)
    && decide (x.pkg = pkgOf pa) && decide (x.addr / 64 ≤ (localOf pa + n - 1) / 64) && decide (localOf pa / 64 ≤ (x.addr + x.len - 1) / 64))

/-- A remote access: at most one outstanding for a 64-byte line. A store stands in the store queue until it is acknowledged. -/
def State.remoteAccess (s : State) (t pa n : Nat) (va : U64) (c : CoreAcc) (shr : Bool) (cost : Nat) : Option State :=
  let go := fun (f : State → Remote) =>
    if s.remoteBusy t pa n then none
    else match s.pay t cost with
      | none => none
      | some s => match f s with
        | .sent s => some s
        | .fault => some (s.trap t (.owner va))
  match c with
  | .load d =>
    match s.forward? t pa n with
    | .wait => none
    | .from_ b => some (s.deliver t d b)
    | .clear => go (fun s => s.remote t (.core t d) 1 pa n [] shr false)
  | .store b tail =>
    if 72 ≤ (s.tile t).core.storeQ.length then none
    else go (fun s => (s.pushStore t pa b tail).remote t (.core t .store) 2 pa n b shr false)

/-- A store to a range whose reduction has its root here (R331): the home agent passes it to the router, and it stands in the store queue
until its chunk is finished (assumption 33). -/
def State.reducedStore (s : State) (t e a : Nat) (b : Bytes) (tail : Bool) (cost : Nat) : Option State :=
  if 72 ≤ (s.tile t).core.storeQ.length then none
  else (s.pay t cost).map (fun s => (s.pushStore t (s.pkg * 2 ^ 44 + a) b tail).redTake e (.core t .store) 2 a b s.pkg)

/-! ### One access -/

/-- A register window: an IO access (R70), performed at once; refused, it faults (R40). -/
def State.windowAccess (s : State) (t a n : Nat) (va : U64) (c : CoreAcc) : Option State :=
  if s.fenced? t 1 then none
  else match c with
    | .load d => match s.winRead (some t) a n with
      | some (b, s) => some (s.deliver t d b)
      | none => some (s.trap t (.owner va))
    | .store b _ => match s.winWrite (some t) a b with
      | some s => some s
      | none => some (s.trap t (.owner va))

/-- An access on the side to which its address leads; none where it waits. A walk that waits asks for its entry, and the access comes
again. -/
def State.sideAccess (s : State) (t : Nat) (x : Side) (va : U64) (n : Nat) (c : CoreAcc) : Option State :=
  match x with
  | .pocket o => match c with
    | .load d => some (s.deliver t d (ringRead pocketBytes (s.tile t).pocket o n))
    | .store b _ => some (s.pocketWrite t o b)
  | .mem a shr =>
    (match s.ownRed t a shr, c with
     | some e, .store b tail => s.reducedStore t e a b tail ((Side.mem a shr).charge s.pkg n)
     | _, _ => s.lineAccess t (s.pkg * 2 ^ 44 + a) n c false ((Side.mem a shr).charge s.pkg n))
  | .host a => s.lineAccess t (s.pkg * 2 ^ 44 + a) n c true ((Side.host a).charge s.pkg n)
  | .window a => s.windowAccess t a n va c
  | .remote pa shr => s.remoteAccess t pa n va c shr ((Side.remote pa shr).charge s.pkg n)
  | .page => some (s.trap t (.page va))
  | .owner => some (s.trap t (.owner va))
  | .uncorr => some (s.trap t (.machineCheck va))
  | .walk a => some (s.askEntry (256 + t) a)

def Side.traps : Side → Bool
  | .page => true
  | .owner => true
  | .uncorr => true
  | _ => false

/-- The two parts of an access over two lines. -/
def CoreAcc.part (c : CoreAcc) (m : Nat) (first : Bool) : CoreAcc :=
  match c with
  | .load (.xreg r n sg) => .load (.half r false n sg (if first then 0 else m))
  | .load (.freg r) => .load (.half r true 8 false (if first then 0 else m))
  | .load d => .load d
  | .store b _ => .store (if first then b.take m else b.drop m) (!first)

/-- The halves of earlier loads into a register, of which a part failed, are dropped. -/
def State.dropHalves (s : State) (t : Nat) (c : CoreAcc) : State :=
  match c with
  | .load (.xreg r _ _) => s.onTile t (fun x => { x with core := { x.core with halves := x.core.halves.filter (fun h => !(decide (h.r = r) && !h.fp)) } })
  | .load (.freg r) => s.onTile t (fun x => { x with core := { x.core with halves := x.core.halves.filter (fun h => !(decide (h.r = r) && h.fp)) } })
  | _ => s

/-- The youngest store of the queue that overlaps a range, with its place. -/
def State.youngestOver (s : State) (t pa n : Nat) : Option (PendStore × Nat) :=
  (((s.tile t).core.storeQ.zipIdx).filter (fun p => rangesMeet pa n p.1.addr p.1.data.length)).getLast?

/-- A load over two lines waits for older stores that overlap it (R71), but for one that holds every byte of it: such a store stands in
the queue as two parts, one after the other. -/
def State.loadHeld (s : State) (t pa n pb m : Nat) : Bool :=
  match s.youngestOver t pa n, s.youngestOver t pb m with
  | none, none => false
  | some (p, i), some (q, j) =>
    !(q.tail && decide (j = i + 1) && decide (p.addr ≤ pa) && decide (pa + n ≤ p.addr + p.data.length) && decide (q.addr = pb) && decide (m ≤ q.data.length))
  | _, _ => true

/-- The physical address of a side that stores can be queued for. -/
def State.sidePa (s : State) : Side → Option Nat
  | .mem a _ => some (s.pkg * 2 ^ 44 + a)
  | .host a => some (s.pkg * 2 ^ 44 + a)
  | .remote pa _ => some pa
  | _ => none

def State.partsHeld (s : State) (t : Nat) (a b : Side) (m n : Nat) (c : CoreAcc) : Bool :=
  !c.isStore && (match s.sidePa a, s.sidePa b with | some pa, some pb => s.loadHeld t pa m pb n | _, _ => false)

/-- A scalar access of `n` bytes: within one line it is one access; over two lines it is two, unless they join. A part that
faults keeps both from being performed. -/
def State.coreAccess (s : State) (t : Nat) (kernel : Bool) (va : U64) (n : Nat) (c : CoreAcc) : Option State :=
  let k : XKind := if c.isStore then .write else .read
  let ctx := (s.tile t).xlat.tctx
  let m := firstPart va.toNat n
  let s0 := s
  let s := s.translated t .core ctx kernel k va
  let a := s.resolve t .core ctx kernel k va m
  if a.walking?.isSome then s0.sideAccess t a va m c
  else if a.traps then (s.xlFault t .core ctx kernel k va).sideAccess t a va m c
  else if n ≤ m then s.sideAccess t a va n c
  else
    let vb := va + BitVec.ofNat 64 m
    let s := s.translated t .core ctx kernel k vb
    let b := s.resolve t .core ctx kernel k vb (n - m)
    if b.walking?.isSome then s0.sideAccess t b vb (n - m) c
    else if b.traps then (s.xlFault t .core ctx kernel k vb).sideAccess t b vb (n - m) c
    else if a.joins b m then s.sideAccess t a va n c
    else if s.partsHeld t a b m (n - m) c then none
    else match (s.dropHalves t c).sideAccess t a va m (c.part m true) with
      | none => none
      | some s => s.sideAccess t b vb (n - m) (c.part m false)

/-- The value to be stored: of an x register, of two above 8 bytes, or of an f register. -/
def State.storeData (s : State) (t : Nat) (fp : Bool) (r n : Nat) : Bytes :=
  if fp then natLe n (s.freg t r).toNat
  else natLe n ((s.xreg t r).toNat + if 8 < n then 2 ^ 64 * (s.xreg t (r + 1)).toNat else 0)

/-- The x registers that an operand of `n` bytes takes. -/
def pairRegs (r n : Nat) : List Nat := if 8 < n then [r, r + 1] else [r]

/-- A load or store of an unassigned form: no size; above 8 bytes an f register or an odd x register. -/
def memIllegal (fp : Bool) (r n : Nat) : Bool := decide (n = 0) || (decide (8 < n) && (fp || decide (r % 2 = 1)))

/-- C_CORE_LOAD (R69 to R71): `size` bytes from `base + off` into an x register, two x registers, or an f register. -/
def execCCoreLoad (t : TileNo) (user : Bool) (size : Fin 17) (signed fp : Bool) (rd base : Fin 32) (off : BitVec 16) (s : State) : Out :=
  .next (
    let va := s.xreg t base.val + off.signExtend 64
    if !s.coreReads t (base.val :: (if fp then [] else pairRegs rd.val size.val)) (if fp then [rd.val] else []) || s.fenced? t 3 then s
    else if memIllegal fp rd.val size.val then s.trap t .illegal
    else if s.vectorHolds t va size.val then s
    else (s.coreAccess t (!user) va size.val (.load (if fp then .freg rd else .xreg rd size.val signed))).getD s)

/-- C_CORE_STORE (R69): `size` bytes of a register to `base + off`. -/
def execCCoreStore (t : TileNo) (user : Bool) (size : Fin 17) (fp : Bool) (rs base : Fin 32) (off : BitVec 16) (s : State) : Out :=
  .next (
    let va := s.xreg t base.val + off.signExtend 64
    if !s.coreReads t (base.val :: (if fp then [] else pairRegs rs.val size.val)) (if fp then [rs.val] else []) || s.fenced? t 2 then s
    else if memIllegal fp rs.val size.val then s.trap t .illegal
    else if s.vectorHolds t va size.val then s
    else (s.coreAccess t (!user) va size.val (.store (s.storeData t fp rs.val size.val) false)).getD s)

/-! ### Atomics (R293 to R297) -/

/-- An atomic is issued: counted, and with acquire it holds later accesses until it has been performed (R295). -/
def State.issued (s : State) (t : Nat) (acquire : Bool) : State :=
  let s := s.countAtomic t
  if acquire then s.onTile t (fun x => { x with core := { x.core with fences := x.core.fences ++ [(16, 15)] } }) else s

/-- An atomic at the home of a line of this package or of the host: an access of the C-core's own that awaits the line, or a
store of it that is queued, holds it. -/
def State.atomAt (s : State) (t pa : Nat) (o : AtomOp) (size v cmp : Nat) (d : Dest) (host acquire : Bool) (cost : Nat) : Option State :=
  let line := localOf pa / 64
  if !(s.lineOut t line).isEmpty || (s.wbOf t line).isSome || !(s.storesOver t (pa / 64 * 64) 64).isEmpty then none
  else (s.pay t cost).map (fun s =>
    if host then (s.hostTxn (.core t d) 6 (s.hostPa (localOf pa)) (atomData o size v cmp).length (atomData o size v cmp)).issued t acquire
    else ((s.send { kind := .atom, line := line, src := t, dst := homeNode, op := some o, a := v, b := cmp, off := pa % 64, size := size }).pushOut t
      { line := line, write := false, addr := pa, size := size, dest := d }).issued t acquire)

/-- An atomic where its location lies (Table 12.6); none where it waits. -/
def State.atomSide (s : State) (t : Nat) (x : Side) (va : U64) (o : AtomOp) (size v cmp : Nat) (d : Dest) (acquire : Bool) : Option State :=
  match x with
  | .pocket p =>
    let old := leNat (ringRead pocketBytes (s.tile t).pocket p size)
    some (((s.pocketWrite t p (natLe size (atomNew o size old v cmp))).countAtomic t).deliver t d (natLe size old))
  | .mem a shr => s.atomAt t (s.pkg * 2 ^ 44 + a) o size v cmp d false acquire ((Side.mem a shr).charge s.pkg size)
  | .host a => s.atomAt t (s.pkg * 2 ^ 44 + a) o size v cmp d true acquire ((Side.host a).charge s.pkg size)
  | .remote pa shr =>
    if s.remoteBusy t pa size || !(s.storesOver t pa size).isEmpty then none
    else match s.pay t ((Side.remote pa shr).charge s.pkg size) with
      | none => none
      | some s => match s.remote t (.core t d) 3 pa (atomData o size v cmp).length (atomData o size v cmp) shr false with
        | .sent s => some (s.issued t acquire)
        | .fault => some (s.trap t (.owner va))
  | .window _ => some (s.trap t (.access va))
  | .page => some (s.trap t (.page va))
  | .owner => some (s.trap t (.owner va))
  | .uncorr => some (s.trap t (.machineCheck va))
  | .walk a => some (s.askEntry (256 + t) a)

/-- The x registers that an atomic names: pairs for 128 bits. -/
def atomRegs (rd ra rb size : Nat) : List Nat := ra :: (pairRegs rd size ++ pairRegs rb size)

/-- An operand of an atomic. -/
def State.atomOperand (s : State) (t r size : Nat) : Nat := leNat (s.storeData t false r size)

/-- An atomic instruction of a major opcode (R294, R295). An encoding that Table 12.7 does not list is illegal; a misaligned
address faults; with release it waits for every earlier access. -/
def State.atomCmd (s : State) (t : Nat) (user : Bool) (major : Nat) (func : BitVec 11) (rd ra rb : Fin 32) : State :=
  match atomOf (major * 2 ^ 26 + func.toNat) with
  | none => if s.coreRuns t then s.trap t .illegal else s
  | some (o, size) =>
    let va := s.xreg t ra.val
    if !s.coreReads t (atomRegs rd.val ra.val rb.val size) [] || s.fenced? t 3 || s.fenced? t 2 then s
    else if 8 < size ∧ (rd.val % 2 = 1 ∨ rb.val % 2 = 1) then s.trap t .illegal
    else if va.toNat % size ≠ 0 then s.trap t (.misaligned va)
    else if (func.getLsbD 3 && (s.loadsDue t || s.storesDue t)) || s.vectorHolds t va size then s
    else
      let ctx := (s.tile t).xlat.tctx
      let s' := s.translated t .core ctx (!user) .atomic va
      let a := s'.resolve t .core ctx (!user) .atomic va size
      ((if a.walking?.isSome then s else if a.traps then s'.xlFault t .core ctx (!user) .atomic va else s').atomSide t a va o size (s.atomOperand t rb.val size)
        (s.atomOperand t rd.val size) (.atom rd size) (func.getLsbD 2)).getD s

/-- AMO_RMW (R294, Table 12.8). -/
def execAmoRmw (t : TileNo) (user : Bool) (func : BitVec 11) (rd ra rb : Fin 32) (s : State) : Out :=
  .next (s.atomCmd t user 0x20 func rd ra rb)

/-- CAS (R294). -/
def execCas (t : TileNo) (user : Bool) (func : BitVec 11) (rd ra rb : Fin 32) (s : State) : Out :=
  .next (s.atomCmd t user 0x21 func rd ra rb)

/-- CAS128 (R294): on register pairs. -/
def execCas128 (t : TileNo) (user : Bool) (func : BitVec 11) (rd ra rb : Fin 32) (s : State) : Out :=
  .next (s.atomCmd t user 0x22 func rd ra rb)

/-- AMO_FP (R296). -/
def execAmoFp (t : TileNo) (user : Bool) (func : BitVec 11) (rd ra rb : Fin 32) (s : State) : Out :=
  .next (s.atomCmd t user 0x23 func rd ra rb)

end Sys2Proof.Machine
end

