-- ==== Sys2Proof/Machine/Groups.lean ====
section
/-!
DEFINITION. Machine/Groups.lean: thread groups: launch and control by the C-core, the life of blocks, the instructions of group
programs, copies and barriers (08 R193 to R213).
-/
namespace Sys2Proof.Machine
open Sys2Proof

/-! ### Control by the C-core (R196 to R201) -/

/-- GLAUNCH (R197, R198): after every older store; the descriptor's fields as used are written back before the status word. A block that
could never fit, met while eight are queued, is refused with QFULL, the first of R198's two cases (DESIGN CHOICE, assumption 87). -/
def execGlaunch (t : TileNo) (user : Bool) (rd ra : Fin 32) (s : State) : Out :=
  .next (if !s.coreReads t [rd, ra] [] || s.storesDue t then s
    else
      let x := s.tile t
      let off := field (s.xreg t ra).toNat 20 6 * 64
      let b := x.descriptor off (!user)
      let flags := (memGet x.pocket (off + 22)).toNat
      let s := s.pocketWrite t (off + 16) (b.usedBytes flags)
      if 8 ≤ x.grp.queue.length then s.setX t rd (gstatus 4 false false 0x10 0 0 0)
      else if 1024 < b.ngroups * b.nregu * 8 ∨ 16 * x.grp.areaSize < b.pocket then s.setX t rd (gstatus 4 false false 0x11 0 0 0)
      else
        let b := { b with ticket := x.grp.nextTicket }
        (s.onGrp t (fun y => { y.count 0 1 with queue := y.queue ++ [b], nextTicket := ticketNext y.nextTicket })).setX t rd (gstatus 0 false false 0 0 0 b.ticket))

/-- GSTAT (R200). -/
def execGstat (t : TileNo) (rd ra : Fin 32) (s : State) : Out :=
  .next (if !s.coreReads t [rd, ra] [] then s else s.setX t rd ((s.tile t).grp.status ((s.xreg t ra).setWidth 16)))

/-- GJOIN (R196): it waits until the block has ended or a group of it is parked. -/
def execGjoin (t : TileNo) (rd ra : Fin 32) (s : State) : Out :=
  .next (if !s.coreReads t [rd, ra] [] || (s.tile t).grp.joinWaits ((s.xreg t ra).setWidth 16) then s
    else s.setX t rd ((s.tile t).grp.status ((s.xreg t ra).setWidth 16)))

/-- GKILL (R201). -/
def execGkill (t : TileNo) (ra : Fin 32) (s : State) : Out :=
  .next (if !s.coreReads t [ra] [] then s
    else match ((s.tile t).grp.resident ++ (s.tile t).grp.queue).find? (fun b => decide (b.ticket = (s.xreg t ra).setWidth 16)) with
      | some b => s.endBlock t b true
      | none => s)

/-- A parked group resumes at the point of Table 8.7, with the copy that it parked for (R211, R213). -/
def State.replay (s : State) (t : Nat) (ticket : U16) (g : Nat) : State :=
  match s.group t g with
  | none => s
  | some x =>
    match x.park with
    | none => s
    | some p =>
      if p.cause = gcStopped then s
      else
        let s := s.onGroup t g (fun x => { x with park := none, wdog := 0 })
        s.onGrp t (fun y => { y with copies := y.copies.map (fun (c : GCopyJob) => if c.ticket = ticket ∧ c.slot = g ∧ p.copy = some c.id then { c with fault := none } else c) })

/-- GREPLAY (R213): each parked group that the mask names, but those parked with STOPPED. -/
def execGreplay (t : TileNo) (ra rb : Fin 32) (s : State) : Out :=
  .next (if !s.coreReads t [ra, rb] [] then s
    else match (s.tile t).grp.resident.find? (fun b => decide (b.ticket = (s.xreg t ra).setWidth 16)) with
      | some b => ((List.range b.slots.length).zip b.slots).foldl (fun (s : State) q =>
          if (s.xreg t rb).getLsbD q.1 then s.replay t b.ticket q.2 else s) s
      | none => s)

/-- GPARKRD (R212): the record of a group that exists is written to the Pocket. -/
def execGparkrd (t : TileNo) (rd ra rb : Fin 32) (s : State) : Out :=
  .next (if !s.coreReads t [rd, ra, rb] [] then s
    else
      let k : U16 := (s.xreg t ra).setWidth 16
      let v := (s.xreg t rb).toNat
      let s' := match (s.tile t).grp.resident.find? (fun b => decide (b.ticket = k)) with
        | some b =>
          match b.slots[field v 3 0]? with
          | some g =>
            match s.group t g with
            | some x => s.pocketWrite t (field v 20 6 * 64) (x.record s.freeCtr)
            | none => s
          | none => s
        | none => s
      (s'.setX t rd ((s'.tile t).grp.status k)).tick1)

/-- GAREA (R196): BUSY while a block is queued or resident; a size is clamped to 32 less the base. -/
def execGarea (t : TileNo) (rd ra : Fin 32) (s : State) : Out :=
  .next (if !s.coreReads t [rd, ra] [] then s
    else
      let x := (s.tile t).grp
      if !x.queue.isEmpty ∨ !x.resident.isEmpty then s.setX t rd 1
      else
        let v := (s.xreg t ra).toNat
        let base := field v 4 0
        (s.onGrp t (fun y => { y with areaBase := base, areaSize := Nat.min (field v 10 5) (32 - base) })).setX t rd 0)

/-! ### Life of a block (R198, R199, R201) -/

/-- BLOCK_RESIDENT (R198, R199): the head of the queue receives its resources; its Gates are set to zero and its groups start. -/
def execBlockResident (t : TileNo) (s : State) : Out :=
  .next (if !s.vectorRuns t then s
    else match (s.tile t).grp.canReside with
      | none => s
      | some b =>
        let s := s.onGrp t (fun x => { x with
          queue := x.queue.tail, resident := x.resident ++ [b]
          slots := ((List.range b.ngroups).zip b.slots).foldl (fun l q => tabSet none l q.2 (some (b.group q.1))) x.slots })
        (rangeFrom b.gateBase b.ngates).foldl (fun (s : State) g => s.gateZero t g) s)

/-- A resident block whose threads have all exited and whose copies have all completed. -/
def Groups.blockOver (x : Groups) (b : Block) : Bool :=
  b.slots.all (fun g => match x.slot g with | some y => decide (y.live = 0) | none => true)
    && !x.copies.any (fun c => decide (c.ticket = b.ticket))

/-- BLOCK_DONE (R201): the oldest resident block that is over ends as DONE. -/
def execBlockDone (t : TileNo) (s : State) : Out :=
  .next (if !s.runs t then s
    else match (s.tile t).grp.resident.find? (fun b => (s.tile t).grp.blockOver b) with
      | some b => s.endBlock t b false
      | none => s)

/-! ### Arithmetic (R202) -/

/-- The registers of an operand of a format. -/
def fmtRegs (f : VFmt) : Nat := if 32 < VFmt.width f then 2 else 1

/-- The rounding direction and mode of a block stand for vcsr's (R199). -/
def Block.rm (b : Block) : Rm := rmOfBits b.frm

/-- Operations across elements have no form in one thread. -/
def gintOk : VIntOp → Bool
  | .toScalar => false
  | .slideUp => false
  | .slideDown => false
  | .gather => false
  | _ => true

/-- The formats of group arithmetic: FP32, FP16, BF16 and FP64. -/
def gfpFmt : VFmt → Bool
  | .f64 => true
  | .f32 => true
  | .f16 => true
  | .bf16 => true
  | _ => false

/-- An operation of class 0x35 that exists; FP64 stands on even-odd pairs. -/
def garithOk (o : GArith) (rd ra rb rc : GReg) : Bool :=
  let even := fun (f : VFmt) (r : GReg) => decide (fmtRegs f = 1) || decide (r.val % 2 = 0)
  match o with
  | .int op _ => gintOk op
  | .fx fn sew => !(decide (fn.val = 0xC ∨ fn.val = 0xD) && decide (sew.val = 2) && decide (ra.val % 2 = 1))
  | .fp _ (.cvt a b) => cvtOk a b && even a ra && even b rd
  | .fp f _ => gfpFmt f && even f rd && even f ra && even f rb && even f rc
  | .reserved _ _ => false

/-- The registers that it names: a destination, and up to three sources. -/
def garithRegs (o : GArith) (rd ra rb rc : GReg) : List Nat :=
  match o with
  | .int _ _ => [rd.val, ra.val, rb.val]
  | .fx fn sew => [rd.val, rb.val] ++ (if (fn.val = 0xC ∨ fn.val = 0xD) ∧ sew.val = 2 then [ra.val, ra.val + 1] else [ra.val])
  | .fp _ (.cvt a b) => spanOf ra (fmtRegs a) ++ spanOf rd (fmtRegs b)
  | .fp f _ => spanOf rd (fmtRegs f) ++ spanOf ra (fmtRegs f) ++ spanOf rb (fmtRegs f) ++ spanOf rc (fmtRegs f)
  | .reserved _ _ => []

/-- The rounding mode of fixed-point work of groups. A group has no FXRND and the spec names no mode in its place, but the work is exact
and reproducible (R143): it is one mode of R106, the same for every thread, tile and time, which a constant chooses (DESIGN CHOICE,
assumption 85). -/
def groupFxMode : Nat := freePick 0 17 0 4

/-- The result of one thread, with its width. The bits above a narrower result the spec does not state (assumption 1). -/
def garith (b : Block) (x : Group) (o : GArith) (rd ra rb rc : GReg) (l : Nat) : Nat × Nat :=
  match o with
  | .int op sew =>
    let w := sewBits sew.val
    let a := x.lanes ra l 1 % 2 ^ w
    let c := x.lanes rb l 1 % 2 ^ w
    match intCmp op w a c with
    | some v => (flag v, 32)
    | none => (intOp op w a c, w)
  | .fx fn sew =>
    let w := sewBits sew.val
    let mode := groupFxMode
    let c := x.lanes rb l 1 % 2 ^ w
    if fn.val = 0xC ∨ fn.val = 0xD then ((fxNarrow (decide (fn.val = 0xC)) mode w (x.lanes ra l 2 % 2 ^ (2 * w)) c).1, w)
    else ((fxOp fn.val mode w (x.lanes ra l 1 % 2 ^ w) c (x.lanes rd l 1 % 2 ^ w)).1, w)
  | .fp _ (.cvt p q) => ((fpCvt b.strict b.rm p q (x.lanes ra l (fmtRegs p) % 2 ^ VFmt.width p)).bits, VFmt.width q)
  | .fp f op =>
    let w := VFmt.width f
    let v := fun (r : GReg) => x.lanes r l (fmtRegs f) % 2 ^ w
    let r := fpEval b.strict (VFmt.fmt f) b.rm op (v ra) (v rb) (v rc)
    (r.bits, if r.truth then 32 else w)
  | .reserved _ _ => (0, 32)

/-- The registers of a result, with the bits above a narrower one free. -/
def garithVal (n : Nat) (r : Nat × Nat) (l : Nat) : Nat := if r.2 < 32 then r.1 % 2 ^ r.2 + 2 ^ r.2 * freeValue n 19 l else r.1

def garithSpan (o : GArith) : Nat :=
  match o with
  | .fp _ (.cvt _ b) => fmtRegs b
  | .fp f op => if fpIsCmp op then 1 else fmtRegs f
  | _ => 1

/-- The quarter's occupancy: two cycles for FP64 (R195). -/
def garithOcc : GArith → Nat
  | .fp _ (.cvt .f64 _) => 2
  | .fp _ (.cvt _ .f64) => 2
  | .fp _ (.cvt _ _) => 1
  | .fp .f64 _ => 2
  | _ => 1

/-- GROUP_ARITH (R202): in each running thread. -/
def execGroupArith (t : TileNo) (g : Fin 32) (o : GArith) (rd ra rb rc : GReg) (s : State) : Out :=
  .next (match s.gready t g with
    | none => s
    | some _ =>
      if !garithOk o rd ra rb rc then s.gissue t g 1 [] (fun s _ _ => s.parkWith t g gcIllegal)
      else s.gissue t g (garithOcc o) (garithRegs o rd ra rb rc) (fun s x b =>
        s.onGroup t g (fun _ => (x.put rd x.running (fun l => garithVal s.freeCtr (garith b x o rd ra rb rc l) l) (garithSpan o)).next)))

/-! ### Memory (R203, R204, R210) -/

/-- GROUP_LOAD (R203). -/
def execGroupLoad (t : TileNo) (g : Fin 32) (size : Fin 4) (signed : Bool) (rd base : GReg) (pair : Bool) (off : BitVec 16) (s : State) : Out :=
  .next (s.gmem t g ⟨.load size signed rd, base, pair, off⟩)

/-- GROUP_STORE (R203). -/
def execGroupStore (t : TileNo) (g : Fin 32) (size : Fin 4) (rs base : GReg) (pair : Bool) (off : BitVec 16) (s : State) : Out :=
  .next (s.gmem t g ⟨.store size rs, base, pair, off⟩)

/-- GROUP_ATOMIC (R203): once for each running thread, in increasing lane order. -/
def execGroupAtomic (t : TileNo) (g : Fin 32) (op : AtomOp) (size : Fin 5) (rd rs base : GReg) (rc : Option GReg) (pair : Bool) (off imm : BitVec 16) (s : State) : Out :=
  .next (s.gmem t g ⟨.atomic op size rd rs rc imm, base, pair, off⟩)

/-- A control instruction whose effect is a change of its group. -/
def State.gcontrol (s : State) (t g occ : Nat) (regs : List Nat) (f : Group → Block → Group) : State :=
  s.gissue t g occ regs (fun s x b => s.onGroup t g (fun _ => f x b))

/-- GFENCE (R203): a group's accesses are performed before its next instruction issues, so it has no effect of its own. -/
def execGfence (t : TileNo) (g : Fin 32) (s : State) : Out := .next (s.gcontrol t g 1 [] (fun x _ => x.next))

/-- GCOPY (R210): operands of the lowest-numbered running thread; it waits while Glide holds 32 copies. Its encoding stands in the separate
reference: the direction and the Gate index are fields of the instruction, and the address, the offset and the length come from registers
(DESIGN CHOICE, assumption 88). -/
def execGcopy (t : TileNo) (g : Fin 32) (addr off len : GReg) (store : Bool) (gate : BitVec 16) (s : State) : Out :=
  .next (if 32 ≤ (s.tile t).grp.copies.length then s
    else s.gissue t g 1 (spanOf addr 2 ++ [off.val, len.val]) (fun s x b =>
      if b.ngates ≤ gate.toNat then s.parkWith t g gcBadgate
      else
        let l := x.low
        let o := x.lanes off l 1
        let n := Nat.min (Nat.min (x.lanes len l 1) 65536) (4096 * b.pocket - o)
        let c : GCopyJob := { id := (s.tile t).grp.nextCopy, ticket := b.ticket, slot := g, va := BitVec.ofNat 64 (x.lanes addr l 2)
                              off := b.base + o, len := n, store := store, gate := b.gateBase + gate.toNat, tctx := b.tctx, kernel := b.kernel }
        (s.onGrp t (fun y => { y with copies := y.copies ++ [c], nextCopy := y.nextCopy + 1 })).onGroup t g Group.next))

/-- GROUP_COPY_COMPLETE (R210): the oldest copy that is wholly delivered leaves; its Gate increases unless its block was killed. -/
def execGroupCopyComplete (t : TileNo) (s : State) : Out :=
  .next (match (s.tile t).grp.copies.find? (fun c => !c.busy && (decide (c.len ≤ c.cursor) || (c.killed && c.fault.isSome))) with
    | none => s
    | some c =>
      let s := s.onGrp t (fun y => { y with copies := y.copies.filter (fun d => decide (d.id ≠ c.id)) })
      if c.killed then s else s.gateAdd t c.gate 1)

/-- The group of a copy is at an instruction boundary and not parked. -/
def State.copyParks (s : State) (t : Nat) (c : GCopyJob) : Bool :=
  c.fault.isSome && !c.killed &&
    (match s.group t c.slot with
     | some x => x.park.isNone && decide (x.ticket = c.ticket) && x.mem.isNone
     | none => false)

/-- GROUP_COPY_FAULT (R211): a copy that has met a fault stands at its last complete 1 KiB unit, and its group parks at its next
instruction boundary. -/
def execGroupCopyFault (t : TileNo) (s : State) : Out :=
  .next (match (s.tile t).grp.copies.find? (fun c => s.copyParks t c) with
    | none => s
    | some c =>
      match c.fault with
      | none => s
      | some (cause, va) =>
        let k := c.cursor / 1024 * 1024
        let s := s.onCopy t c.id (fun d => { d with cursor := k })
        s.park t c.slot { cause := if cause = 3 then gcUncorr else gcCopypage, addr := va, copyCur := BitVec.ofNat 64 k, copy := some c.id })

/-! ### Branches and paths (R205, R206) -/

/-- GBRA (R202). -/
def execGbra (t : TileNo) (g : Fin 32) (imm : BitVec 16) (s : State) : Out :=
  .next (s.gcontrol t g 1 [] (fun x _ => { x with pc := pcBranch x.pc imm }))

/-- The threads whose register is not zero. -/
def Group.nonzero (x : Group) (r : GReg) : U64 :=
  (lanesOf x.running).foldl (fun m l => if x.lanes r l 1 = 0 then m else m ||| laneBit l) 0

/-- GBRC (R205). -/
def execGbrc (t : TileNo) (g : Fin 32) (ra : GReg) (imm : BitVec 16) (s : State) : Out :=
  .next (s.gissue t g 1 [ra.val] (fun s x _ =>
    let m := x.nonzero ra
    if m = 0 then s.onGroup t g (fun _ => x.next)
    else if m = x.running then s.onGroup t g (fun _ => { x with pc := pcBranch x.pc imm })
    else if 16 ≤ x.stack.length then s.parkWith t g gcStackovf
    else s.onGroup t g (fun _ => { x with pc := pcBranch x.pc imm, running := m, stack := .path (pcNext x.pc) (x.running &&& ~~~m) :: x.stack })))

/-- GMARK (R205). -/
def execGmark (t : TileNo) (g : Fin 32) (imm : BitVec 16) (s : State) : Out :=
  .next (s.gissue t g 1 [] (fun s x _ =>
    if 16 ≤ x.stack.length then s.parkWith t g gcStackovf
    else s.onGroup t g (fun _ => { x.next with stack := .mark (pcBranch x.pc imm) x.running :: x.stack })))

/-- GSYNC (R205): with neither a path entry nor a mark to run, the path goes on at the next instruction. -/
def execGsync (t : TileNo) (g : Fin 32) (s : State) : Out :=
  .next (s.gcontrol t g 1 [] (fun x _ =>
    let p := pathSet x.stack
    if (popPath p.1).isNone && p.2.isEmpty then x.next else x.resync))

/-- SPIN (R206): with another path entry in the path set, it asks for a switch; otherwise it has no effect. -/
def execSpin (t : TileNo) (g : Fin 32) (s : State) : Out :=
  .next (s.gcontrol t g 1 [] (fun x _ => { x.next with spin := (popPath (pathSet x.stack).1).isSome }))

/-- SPIN_SWITCH (R206): the spinning path becomes the deepest path entry of its set, and the topmost one runs. -/
def execSpinSwitch (t : TileNo) (g : Fin 32) (s : State) : Out :=
  .next (match s.group t g with
    | none => s
    | some x =>
      if !x.spin ∨ x.park.isSome ∨ !s.runs t then s
      else s.onGroup t g (fun _ =>
        let p := pathSet x.stack
        match popPath p.1 with
        | some (pc, m, q) => { x with spin := false, pc := pc, running := m, stack := q ++ (.path x.pc x.running :: p.2) }
        | none => { x with spin := false }))

/-- GEXIT (R205): the exiting threads leave the live mask and every entry, and the group continues as GSYNC does. -/
def execGexit (t : TileNo) (g : Fin 32) (s : State) : Out :=
  .next (s.gcontrol t g 1 [] (fun x _ =>
    Group.resync { x with live := x.live &&& ~~~x.running, stack := dropThreads x.running x.stack, running := 0 }))

/-- GTRAP (R202): the group parks and resumes at the next instruction. -/
def execGtrap (t : TileNo) (g : Fin 32) (s : State) : Out :=
  .next (s.gissue t g 1 [] (fun s x _ => (s.onGroup t g (fun _ => x.next)).parkWith t g gcTrap))

/-! ### Barriers (R207, R208) -/

/-- A path reaches a barrier: in a converged group GBAR completes at once and BBAR waits; in a diverged one the path becomes a
barrier entry. -/
def State.barrier (s : State) (t g : Nat) (block : Bool) : State :=
  s.gissue t g 1 [] (fun s x _ =>
    if x.converged then s.onGroup t g (fun _ => if block then { x with bbar := true } else x.next)
    else
      match x.bar block (s.tile t).grp.arrivals with
      | none => s.parkWith t g gcStackovf
      | some y => (s.onGroup t g (fun _ => y)).onGrp t (fun z => { z with arrivals := z.arrivals + 1 }))

/-- GBAR (R207). -/
def execGbar (t : TileNo) (g : Fin 32) (s : State) : Out := .next (s.barrier t g false)

/-- BBAR (R207). -/
def execBbar (t : TileNo) (g : Fin 32) (s : State) : Out := .next (s.barrier t g true)

/-- A group's live threads all wait at the block's barrier; a group without live threads has none that is missing. -/
def Groups.blockWaits (x : Groups) (b : Block) : Bool :=
  b.slots.all (fun g => match x.slot g with | some y => decide (y.live = 0) || y.allWait true | none => true)

/-- BARRIER_COMPLETE (R207): every live thread of the group waits at GBAR, or every one of its block at BBAR. -/
def execBarrierComplete (t : TileNo) (g : Fin 32) (s : State) : Out :=
  .next (match s.group t g, (s.tile t).grp.blockOf g with
    | some x, some b =>
      if x.live = 0 ∨ !s.runs t then s
      else if x.allWait false then s.onGroup t g (fun _ => x.release false)
      else if (s.tile t).grp.blockWaits b then
        s.onGrp t (fun y => b.slots.foldl (fun (y : Groups) k => y.setSlot k ((y.slot k).map (fun z => z.release true))) y)
      else s
    | _, _ => s)

/-- WATCHDOG_EXPIRY (R208): a group with a pending barrier parks with DEADLOCK. -/
def execWatchdogExpiry (t : TileNo) (g : Fin 32) (s : State) : Out :=
  .next (match s.group t g with
    | some x => if x.pendingBar && x.park.isNone && s.runs t then (s.onGroup t g (fun _ => { x with wdog := 2 ^ 20 })).parkWith t g gcDeadlock else s
    | none => s)

/-! ### Gates and collectives (R202, R209, R210) -/

/-- A wait on a Gate: the value is that of the lowest-numbered running thread. -/
def State.gateWait (s : State) (t g : Nat) (rb : GReg) (imm : BitVec 16) (take : Bool) : State :=
  match s.gready t g with
  | none => s
  | some (x, b) =>
    let i := field imm.toNat 5 0
    let v := x.lanes rb x.low 1
    if i < b.ngates ∧ rb.val < 8 * b.nregu ∧ gateVal (s.tile t).grp.gates (b.gateBase + i) < v then s
    else s.gissue t g 1 [rb.val] (fun s x b =>
      if b.ngates ≤ i then s.parkWith t g gcBadgate
      else
        let s := s.onGroup t g (fun _ => x.next)
        if take then (s.onGrp t (fun y => { y with gates := gateDown y.gates (b.gateBase + i) v })).gateSub t (b.gateBase + i) v false
        else s)

/-- GWAITG (R202). -/
def execGwaitg (t : TileNo) (g : Fin 32) (rb : GReg) (imm : BitVec 16) (s : State) : Out := .next (s.gateWait t g rb imm false)

/-- GWAITGD (R210): it then decreases the Gate. -/
def execGwaitgd (t : TileNo) (g : Fin 32) (rb : GReg) (imm : BitVec 16) (s : State) : Out := .next (s.gateWait t g rb imm true)

/-- GSHFL (R209): a source lane that is not running yields zero. -/
def execGshfl (t : TileNo) (g : Fin 32) (rd ra rb : GReg) (s : State) : Out :=
  .next (s.gcontrol t g 4 [rd.val, ra.val, rb.val] (fun x _ =>
    (x.put rd x.running (fun l => let k := x.lanes rb l 1 % 64; if x.running.getLsbD k then x.lanes ra k 1 else 0) 1).next))

/-- GVOTE (R209): the mask goes into a pair of registers. -/
def execGvote (t : TileNo) (g : Fin 32) (rd ra : GReg) (s : State) : Out :=
  .next (s.gcontrol t g 1 [rd.val, rd.val + 1, ra.val] (fun x _ => (x.put rd x.running (fun _ => (x.nonzero ra).toNat) 2).next))

/-- The reduction of GRED over values; where signed and unsigned order give different answers the spec does not say which
(assumption 1). -/
def gredOf (n op : Nat) (l : List Nat) : Nat :=
  let pick := fun (a b : Nat) => if a = b then a else if freeBit n 20 op then a else b
  match op with
  | 0 => sumNat l % 2 ^ 32
  | 1 => pick (l.foldl (fun a b => intOp .max 32 a b) (l.headD 0)) (l.foldl Nat.max 0)
  | _ => pick (l.foldl (fun a b => intOp .min 32 a b) (l.headD 0)) (l.foldl Nat.min (l.headD 0))

/-- GRED (R209): IMM[1:0] 0 sum, 1 maximum, 2 minimum; 3 names none and is illegal. -/
def execGred (t : TileNo) (g : Fin 32) (rd ra : GReg) (imm : BitVec 16) (s : State) : Out :=
  .next (
    let op := field imm.toNat 1 0
    if op = 3 then s.gissue t g 2 [] (fun s _ _ => s.parkWith t g gcIllegal)
    else s.gissue t g 2 [rd.val, ra.val] (fun s x _ =>
      let v := gredOf s.freeCtr op ((lanesOf x.running).map (fun l => x.lanes ra l 1))
      s.onGroup t g (fun _ => (x.put rd x.running (fun _ => v) 1).next)))

/-- The value of element `e` of an operand of 16-bit elements, or of FP32 accumulators. -/
def gmmaElem (x : Group) (r : GReg) (e : Nat) : Nat := elemOf (lane32 (x.reg (r.val + e / 128)) (e / 2 % 64)) 16 (e % 2)

def gmmaAcc (x : Group) (r : GReg) (e : Nat) : Nat := lane32 (x.reg (r.val + e / 64)) (e % 64)

/-- One output of GMMA: products in increasing k, each added with one rounding (R209). -/
def gmmaOut (b : Block) (x : Group) (bf : Bool) (ra rb rc : GReg) (i j : Nat) : Nat :=
  let f := if bf then bf16 else f16
  (List.range 16).foldl (fun acc k =>
    let p := decodeVal f (gmmaElem x ra (gmmaLayout 0 i k % 256))
    let q := decodeVal f (gmmaElem x rb (gmmaLayout 1 k j % 256))
    (ieeeRound f32 b.rm (Val.fma b.rm p q (decodeVal f32 acc))).1) (gmmaAcc x rc (gmmaLayout 2 i j % 256))

/-- GMMA (R209): 16 × 16 × 16 across a converged group; in a diverged one it parks with DIVCOLL. -/
def execGmma (t : TileNo) (g : Fin 32) (bf : Bool) (rd ra rb rc : GReg) (s : State) : Out :=
  .next (s.gissue t g 32 (spanOf rd 4 ++ spanOf ra 2 ++ spanOf rb 2 ++ spanOf rc 4) (fun s x b =>
    if !x.converged then s.parkWith t g gcDivcoll
    else
      let y := (List.range 256).foldl (fun (y : Group) n =>
        let e := gmmaLayout 2 (n / 16) (n % 16) % 256
        y.put (rd.val + e / 64) (laneBit (e % 64)) (fun _ => gmmaOut b x bf ra rb rc (n / 16) (n % 16)) 1) x
      s.onGroup t g (fun _ => y.next)))

end Sys2Proof.Machine
end

