-- ==== Sys2Proof/Machine/LvuCmds.lean ====
section
/-!
DEFINITION. Machine/LvuCmds.lean: the vector instructions of a tile, and the power states of its vector island (04 R93 to R116).
A command of a vector instruction executes the head of the vector queue, where that is an instruction of its kind.
-/
namespace Sys2Proof.Machine
open Sys2Proof

/-- VECTOR_QUEUE_SEND (R95): an illegal instruction raises the exception; a legal one enters the queue with its scalar operands
and its context once it is the oldest uncommitted instruction, no older load awaiting its data, and waits while the queue is full; a load or a store waits for a FENCE before it (R112). -/
def execVectorQueueSend (t : TileNo) (user : Bool) (pc : U64) (i : VInstr) (s : State) : Out :=
  .next (
    let x := (s.tile t).lvu
    if !s.coreReads t (vReadsX i ++ vxOut i) (vReadsF i ++ vfOut i) then s
    else if vIllegal x.sewSent i then s.trap t .illegal
    else if s.coreLoadsDue t || decide (32 ≤ x.queue.length) then s
    else if (match i.kind with | .load _ => s.fenced? t 3 | .store _ => s.fenced? t 2 | _ => false) then s
    else
      let e : VEntry := ⟨i, pc, s.xreg t i.vsa, s.xreg t i.vsb, s.freg t i.vsb, (s.tile t).xlat.tctx, !user⟩
      s.onTile t (fun x => { x with core := { x.core with vsync := false }, lvu := { x.lvu with queue := x.lvu.queue ++ [e] } }))

/-- SETVL (R98). -/
def execSetvl (t : TileNo) (s : State) : Out :=
  .next (s.vop t (fun k => match k with | .setvl _ => true | _ => false) (fun _ => 0) (fun s e =>
    match e.i.kind with
    | .setvl c =>
      let vl := Nat.min e.xa.toNat (vlmax (sewBits c.val))
      (s.onLvu t (fun x => { x with vtype := BitVec.ofNat 2 c.val, vl := BitVec.ofNat 16 vl, released := false })).setX t e.i.vd (BitVec.ofNat 64 vl)
    | _ => s))

/-- VSYNC (R102): it commits, with no effect of its own, when every earlier vector instruction has completed; until then it
holds the instructions after it. A pending vector fault is raised first: the handler runs. -/
def execVsync (t : TileNo) (s : State) : Out :=
  .next (if !s.coreRuns t || s.vectorIdle t || (s.tile t).lvu.faulted then s
    else s.onTile t (fun x => { x with core := { x.core with vsync := true } }))

/-- VRESUME (R113): the queue goes on with the faulting instruction, at element VSTART. -/
def execVresume (t : TileNo) (s : State) : Out :=
  .next (if !s.coreRuns t || !(s.tile t).lvu.faulted then s
    else s.onTile t (fun x => { x with core := { x.core with vsync := false }, lvu := { x.lvu with faulted := false, cur := x.lvu.vstart.toNat } }))

/-- VRELEASE (R102). -/
def execVrelease (t : TileNo) (s : State) : Out :=
  .next (s.vop t (fun k => decide (k = .vrelease)) (fun _ => 0) (fun s _ =>
    s.onLvu t (fun x => { x with v := [], p := [], vcsr := 0, released := true })))

/-- VCSRR (R94). -/
def execVcsrr (t : TileNo) (s : State) : Out :=
  .next (s.vop t (fun k => decide (k = .vcsrr)) (fun _ => 0) (fun s e => s.setX t e.i.vd (s.tile t).lvu.vcsr))

/-- VCSRW (R94): reserved bits are ignored. -/
def execVcsrw (t : TileNo) (s : State) : Out :=
  .next (s.vop t (fun k => decide (k = .vcsrw)) (fun _ => 0) (fun s e =>
    s.onLvu t (fun x => { x with vcsr := e.xa &&& vcsrMask, released := false })))

/-- VSEND (R115): the register goes to its staging buffer, or waits in the send unit while that is FULL. While one waits there
the next one waits in the queue. -/
def execVsend (t : TileNo) (s : State) : Out :=
  .next (if (s.tile t).lvu.sending.isSome then s
    else s.vop t (fun k => match k with | .vsend _ _ _ => true | _ => false) (fun x => unitCharge x 1) (fun s e =>
      match e.i.kind with
      | .vsend sb pair gate =>
        let v := tabGet 0 (s.tile t).lvu.v e.i.vsa
        let b := stagingIdx pair.val sb.val
        if s.stagingFull t b then s.onLvu t (fun x => { x with sending := some (e.i, v) })
        else s.fillStaging t b gate.val v
      | _ => s))

/-- STAGING_BUFFER_FILL (R115): a VSEND that waits finds its buffer free. -/
def execStagingBufferFill (t : TileNo) (s : State) : Out :=
  .next (match (s.tile t).lvu.sending with
    | none => s
    | some (i, v) =>
      match i.kind with
      | .vsend sb pair gate =>
        let b := stagingIdx pair.val sb.val
        if !s.vectorRuns t || s.stagingFull t b then s
        else (s.onLvu t (fun x => { x with sending := none })).fillStaging t b gate.val v
      | _ => s)

/-- VECTOR_INTEGER_OP (R99, R101). The bits above a narrower element that VMVXS moves to an x register the spec does not state. VMVXS
moves element 0 also where vl is 0 or the element is inactive (DESIGN CHOICE, assumption 72). -/
def execVectorIntegerOp (t : TileNo) (s : State) : Out :=
  .next (match s.vhead t with
    | some e =>
      match e.i.kind with
      | .int op =>
        s.vop t (fun _ => true) (vintCharge op) (fun s e =>
          if op = .toScalar then
            let w := (s.tile t).lvu.sew
            let hi := if w = 64 then 0 else 2 ^ w * freeValue s.freeCtr 6 w
            s.setX t e.i.vd (BitVec.ofNat 64 (elemOf ((s.tile t).lvu.vreg e.i.vsa) w 0 + hi))
          else s.onLvu t (fun x => vint x e op))
      | _ => s
    | none => s)

/-- VECTOR_FP_OP (R103). -/
def execVectorFpOp (t : TileNo) (s : State) : Out :=
  .next (match s.vhead t with
    | some e =>
      match e.i.kind with
      | .fp bf op => s.vop t (fun _ => true) (vfpCharge op) (fun s e => s.onLvu t (fun x => vfp x e bf op))
      | _ => s
    | none => s)

/-- A reduction at the head (R105). -/
def State.vreduce (s : State) (t : Nat) (want : RedOp) : State :=
  s.vop t (fun k => match k with | .red _ op => decide (op = want) | _ => false)
    (fun x => if want = .osum then 5 * x.len else arithCharge x 2)
    (fun s e => match e.i.kind with | .red bf op => s.vredPut t e bf op | _ => s)

/-- VFREDSUM (R105). -/
def execVfredsum (t : TileNo) (s : State) : Out := .next (s.vreduce t .sum)

/-- VFREDMAX (R105). -/
def execVfredmax (t : TileNo) (s : State) : Out := .next (s.vreduce t .max)

/-- VFREDMIN (R105). -/
def execVfredmin (t : TileNo) (s : State) : Out := .next (s.vreduce t .min)

/-- VFREDOSUM (R105). -/
def execVfredosum (t : TileNo) (s : State) : Out := .next (s.vreduce t .osum)

/-- PREDICATE_OP (R100). -/
def execPredicateOp (t : TileNo) (s : State) : Out :=
  .next (s.vop t (fun k => match k with | .pred _ => true | _ => false) (fun x => unitCharge x 1) (fun s e =>
    match e.i.kind with | .pred op => s.vpred t e op | _ => s))

/-- VFOP (R104). -/
def execVfop (t : TileNo) (s : State) : Out :=
  .next (s.vop t (fun k => match k with | .vfop _ _ _ => true | _ => false) (fun x => arithCharge x 8) (fun s e =>
    match e.i.kind with | .vfop z n k => s.onLvu t (fun x => vfopAll x e z n k.val) | _ => s))

/-- A fixed-point instruction of a function code at the head (R107). -/
def State.vfixed (s : State) (t fn : Nat) : State :=
  s.vop t (fun k => match k with | .fx f => decide (f.val = fn) | _ => false) (vfxCharge fn) (fun s e => s.onLvu t (fun x => vfx x e fn))

/-- FXADDS (R107): signed saturating add. -/
def execFxadds (t : TileNo) (s : State) : Out := .next (s.vfixed t 0)

/-- FXADDSU (R107): unsigned saturating add. -/
def execFxaddsu (t : TileNo) (s : State) : Out := .next (s.vfixed t 1)

/-- FXSUBS (R107): signed saturating subtract. -/
def execFxsubs (t : TileNo) (s : State) : Out := .next (s.vfixed t 2)

/-- FXSUBSU (R107): unsigned saturating subtract. -/
def execFxsubsu (t : TileNo) (s : State) : Out := .next (s.vfixed t 3)

/-- FXHADD (R107): signed halving add. -/
def execFxhadd (t : TileNo) (s : State) : Out := .next (s.vfixed t 4)

/-- FXHADDU (R107): unsigned halving add. -/
def execFxhaddu (t : TileNo) (s : State) : Out := .next (s.vfixed t 5)

/-- FXHSUB (R107): signed halving subtract. -/
def execFxhsub (t : TileNo) (s : State) : Out := .next (s.vfixed t 6)

/-- FXHSUBU (R107): unsigned halving subtract. -/
def execFxhsubu (t : TileNo) (s : State) : Out := .next (s.vfixed t 7)

/-- FXSHRA (R107): rounded arithmetic right shift. -/
def execFxshra (t : TileNo) (s : State) : Out := .next (s.vfixed t 8)

/-- FXSHRL (R107): rounded logical right shift. -/
def execFxshrl (t : TileNo) (s : State) : Out := .next (s.vfixed t 9)

/-- FXSHLS (R107): signed saturating left shift. -/
def execFxshls (t : TileNo) (s : State) : Out := .next (s.vfixed t 10)

/-- FXSHLSU (R107): unsigned saturating left shift. -/
def execFxshlsu (t : TileNo) (s : State) : Out := .next (s.vfixed t 11)

/-- FXNARROW (R107): signed rounding narrowing. -/
def execFxnarrow (t : TileNo) (s : State) : Out := .next (s.vfixed t 12)

/-- FXNARROWU (R107): unsigned rounding narrowing. -/
def execFxnarrowu (t : TileNo) (s : State) : Out := .next (s.vfixed t 13)

/-- FXMULQ (R107): fractional multiply. -/
def execFxmulq (t : TileNo) (s : State) : Out := .next (s.vfixed t 14)

/-- FXMACQ (R107): fractional multiply-accumulate. -/
def execFxmacq (t : TileNo) (s : State) : Out := .next (s.vfixed t 15)

/-- VLOAD_UNIT (R110). -/
def execVloadUnit (t : TileNo) (s : State) : Out := .next (s.vmem t false .unit)

/-- VLOAD_STRIDED (R110). -/
def execVloadStrided (t : TileNo) (s : State) : Out := .next (s.vmem t false .strided)

/-- VLOAD_INDEXED (R110). -/
def execVloadIndexed (t : TileNo) (s : State) : Out := .next (s.vmem t false .indexed)

/-- VLOAD_FAULT_FIRST (R114). -/
def execVloadFaultFirst (t : TileNo) (s : State) : Out := .next (s.vmem t false .faultFirst)

/-- VSTORE_UNIT (R110). -/
def execVstoreUnit (t : TileNo) (s : State) : Out := .next (s.vmem t true .unit)

/-- VSTORE_STRIDED (R110). -/
def execVstoreStrided (t : TileNo) (s : State) : Out := .next (s.vmem t true .strided)

/-- VSTORE_INDEXED (R110). -/
def execVstoreIndexed (t : TileNo) (s : State) : Out := .next (s.vmem t true .indexed)

/-! ### Power-down and wake (R116) -/

/-- RETENTION_ENTRY (R116): the idle delay of an ACTIVE island has expired. -/
def execRetentionEntry (t : TileNo) (s : State) : Out :=
  .next (if !s.runs t || decide ((s.tile t).lvu.power ≠ .active) || !s.lvuIdle t then s
    else s.onLvu t (fun x => { x.count 1 1 with power := .retention }))

/-- COLD_ENTRY (R116): only after VRELEASE, and never at a delay of 4,294,967,295. -/
def execColdEntry (t : TileNo) (s : State) : Out :=
  .next (if !s.runs t || decide ((s.tile t).lvu.power ≠ .retention) || !s.lvuIdle t || !(s.tile t).lvu.released
        || decide (s.obj 0x1400 3 = 4294967295) then s
    else (s.onLvu t (fun x => (x.count 2 1).cold s.freeCtr)).tick1)

/-- ISLAND_WAKE_COMPLETE (R27, R116): the wake of a vector island that something needs is paid for and ends; what the Seam held
stands in its queue. -/
def execIslandWakeComplete (t : TileNo) (s : State) : Out :=
  .next (
    let cold := decide ((s.tile t).lvu.power = .cold)
    if !s.runs t || decide ((s.tile t).lvu.power = .active) || !s.lvuWanted t then s
    else s.paid t .vector (if cold then 6000 else 300) (fun s =>
      s.onLvu t (fun x => { x.count 3 (if cold then 1200 else 60) with power := .active })))

end Sys2Proof.Machine
end

