-- ==== Sys2Proof/Machine/SideBand.lean ====
section
/-!
DEFINITION. Machine/SideBand.lean: the side-band port: sessions, requests, blocks and subscriptions (18 R399 to R410).
-/
namespace Sys2Proof.Machine
open Sys2Proof

def State.session (s : State) (i : Nat) : Session := tabGet ({} : Session) s.sb.sessions i

def State.setSession (s : State) (i : Nat) (x : Session) : State := { s with sb := { s.sb with sessions := tabSet ({} : Session) s.sb.sessions i x } }

/-- The port answers while VDD_AON is up and the management island runs (R399, R441). -/
def State.sbRuns (s : State) : Bool := s.dictRuns

/-- An unprotected frame to a manager, whose header's SID is 0 (Table 18.1); without REF25 the PHY sends nothing (R463). -/
def State.sbPlain (s : State) (dst : BitVec 48) (type : Nat) (body : Bytes) : State :=
  if s.pins.refLost.getLsbD 2 then s else
  { s with sb := { s.sb with sent := s.sb.sent ++ [{ slot := 5, type := type, sid := 0, cnt := 0, body := body, dst := dst }] } }

/-- A frame is for the device (R399): it carries the EtherType of object 0x2000.05 and is addressed to its MAC address. -/
def State.forUs (s : State) (dst : BitVec 48) (etype : BitVec 16) : Bool :=
  decide (etype.toNat = s.obj 0x2000 5) && decide (dst = s.fuses.mac)

/-- A DISCOVER may also be addressed to every station. -/
def State.discovers (s : State) (h : SbHead) : Bool := s.forUs h.dst h.etype || (decide (h.etype.toNat = s.obj 0x2000 5) && decide (h.dst = 0xFFFFFFFFFFFF))

/-- VER and LEN of a frame are good (R400). -/
def headGood (h : SbHead) : Bool := decide (h.ver = 1) && decide (h.len.toNat ≤ h.room.toNat)

def State.accepted (s : State) : State := s.bump 0x2005 1 1
def State.discarded (s : State) : State := s.bump 0x2005 2 1

/-- The free slots of a kind: sessions 0 to 3 are of M, 4 of F. -/
def State.freeSlots (s : State) (f : Bool) : List Nat := (if f then [4] else [0, 1, 2, 3]).filter (fun i => decide ((s.session i).st = .free))

/-- A frame that arrives: one that is not for the device is ignored, one whose VER or LEN is bad is discarded and counted, and any other
is accepted (R399, R400). -/
def State.takesFrame (s : State) (mine : Bool) (h : SbHead) (f : State → State) : State :=
  if !s.sbRuns || !mine then s else if !headGood h then s.discarded else f s.accepted

/-- DISCOVER (R400): answered with ANNOUNCE (Table 18.2). -/
def execDiscover (h : SbHead) (s : State) : Out :=
  .next (s.takesFrame (s.discovers h) h (fun s =>
    s.sbPlain h.mac 0x02 (natBe 6 s.fuses.mac.toNat ++ padTo 16 (ascii (if s.ident.sGrade then "LAP96-S" else "LAP96-F"))
      ++ natLe 2 s.pkg ++ [BitVec.ofNat 8 (s.objNum .s 0 0x2000 2)] ++ natBe 32 s.fw.fingerprint.toNat
      ++ [BitVec.ofNat 8 (flag (decide (s.boot.st = .snowplough))), BitVec.ofNat 8 (s.freeSlots false).length, BitVec.ofNat 8 (s.freeSlots true).length])))

/-- A REJECT with its reason (R402). -/
def State.reject (s : State) (mac : BitVec 48) (reason : Nat) : State := (s.sbPlain mac 0x14 [BitVec.ofNat 8 reason]).bump 0x2005 6 1

/-- The session ID after one; 0 is never used. -/
def nextSidOf (n : U16) : U16 := if n = 0xFFFF then 1 else n + 1

/-- HELLO (R402 steps 1 and 2): a slot is taken and its CHALLENGE waits for the signing engine; in the ROM service it leaves
unsigned. -/
def execHello (h : SbHead) (kindF : Bool) (cred : BitVec 8) (qm : List (BitVec 8)) (nm : BitVec 256) (s : State) : Out :=
  .next (s.takesFrame (s.forUs h.dst h.etype) h (fun s =>
      match s.freeSlots kindF with
      | [] => s.reject h.mac 1
      | i :: _ =>
        if kindF && !s.unlock.scope.getLsbD 0 then s.reject h.mac 5
        else
          let eph : BitVec 256 := BitVec.ofNat 256 (randomScalar s.freeCtr 25)
          let nd := randomBits s.freeCtr 26 256
          let signed := s.fw.attKey.isSome
          let sid := s.sb.nextSid
          let body := natLe 2 sid.toNat ++ padTo 65 (Crypto.publicKey eph.toNat) ++ natBe 32 nd ++ [BitVec.ofNat 8 (flag signed)]
          let x : Session := { st := .setup, kindF := kindF, cred := cred.toNat, sid := sid, mac := h.mac
                               hello := [BitVec.ofNat 8 (flag kindF), cred] ++ padTo 65 qm ++ natBe 32 nm.toNat
                               challenge := body, eph := eph, idle := s.gov.uptime }
          let s := { s with sb := { s.sb with nextSid := nextSidOf sid } }
          (if signed then { s.setSession i x with fw := { s.fw with signing := s.fw.signing ++ [.challenge i] } }
           else (s.setSession i { x with challenge := body ++ List.replicate 64 0, challenged := true }).sbPlain h.mac 0x11 (body ++ List.replicate 64 0)).tick1))

/-- Enrolment is open (R403): every credential slot is zero and SB_ENROL is high. -/
def State.enrols (s : State) : Bool := s.pins.sbEnrol && s.dict.creds.all (fun c => decide (c = none ∨ c = some 0))

/-- The check of step 4 on a PROOF key. -/
def State.proofKey (s : State) (x : Session) (key : Bytes) : Bool :=
  if x.kindF then decide (key = s.unlock.tokenKey)
  else s.enrols || decide (1 ≤ x.cred ∧ x.cred ≤ 8 ∧ tabGet none s.dict.creds (x.cred - 1) = some (Crypto.sha256 key))

/-- The keys and salts of a session's two directions (step 5), with salt Nm ‖ Nd. One derivation gives the manager's key, the device's
key and the two salts (assumption 4). -/
def Session.keyed (x : Session) : Session :=
  let o := Crypto.hkdf384 ((x.hello.drop 67).take 32 ++ (x.challenge.drop 67).take 32) (Crypto.ecdh x.eph.toNat ((x.hello.drop 2).take 65)) (ascii "lap96 sideband") 72
  let part := fun i n => Crypto.beVal ((o.drop i).take n)
  { x with keyIn := BitVec.ofNat 256 (part 0 32), keyOut := BitVec.ofNat 256 (part 32 32)
           saltIn := BitVec.ofNat 32 (part 64 4), saltOut := BitVec.ofNat 32 (part 68 4) }

/-- A PROOF's signature verifies against the setup in a slot (R402 step 3). -/
def State.proofSigned (s : State) (i : Nat) (key sig : Bytes) : Bool := Crypto.verify key ((s.session i).hello ++ (s.session i).challenge ++ key) sig

/-- The slot in setup that a PROOF is for. Its header's SID is 0 (Table 18.1), so the slot is known by the manager's MAC address: the one
against which the signature verifies, or else the first (DESIGN CHOICE, assumption 92). A header that gives the SID of CHALLENGE names
its slot. -/
def State.proofSlot (s : State) (mac : BitVec 48) (sid : BitVec 16) (key sig : Bytes) : Option Nat :=
  let l := (List.range 5).filter (fun i => decide ((s.session i).st = .setup) && decide ((s.session i).mac = mac) && decide (sid = 0 ∨ (s.session i).sid = sid))
  match l.find? (fun i => s.proofSigned i key sig) with
  | some i => some i
  | none => l.head?

/-- PROOF (R402 steps 3 to 5; R403): SB_ENROL is read (R464), and the session opens, or it is rejected and its slot freed. -/
def execProof (h : SbHead) (sid : BitVec 16) (key sig : List (BitVec 8)) (s : State) : Out :=
  .next (({ s with pins := { s.pins with sbEnrol := h.enrol } }).takesFrame (s.forUs h.dst h.etype) h (fun s =>
      match s.proofSlot h.mac sid key sig with
      | none => s.reject h.mac 4
      | some i =>
        let x := s.session i
        if !x.challenged then s
        else if !s.proofKey x key then (s.setSession i {}).reject h.mac 2
        else if !s.proofSigned i key sig then (s.setSession i {}).reject h.mac 3
        else
          let s := if !x.kindF && s.enrols then { s with dict := { s.dict with creds := tabSet none s.dict.creds 0 (some (Crypto.sha256 key)) } } else s
          ((s.setSession i { x.keyed with st := .opened, idle := s.gov.uptime }).sbSend i 0x13 [BitVec.ofNat 8 (i + 1)]).bump 0x2005 4 1))

/-- Ticks of the always-on timer since a session's timer last started. -/
def State.idleTicks (s : State) (i : Nat) : Nat := s.gov.uptime - (s.session i).idle

/-- SETUP_TIMEOUT (R402): a slot left in setup too long after its CHALLENGE is freed. -/
def execSetupTimeout (i : Fin 5) (s : State) : Out :=
  .next (if (s.session i.val).st = .setup && (s.session i.val).challenged && decide (s.obj 0x2003 2 * 100 ≤ s.idleTicks i.val) then s.setSession i.val {} else s)

/-! ### Requests (R405, R407), each a dictionary operation that waiting mailbox slots see (R427) -/

/-- The session that a protected frame opens under (R400, R401): none where its VER is not 1, its LEN exceeds the frame, no open
session has its SID or its tag fails. -/
def State.openFrame (s : State) (type : Nat) (f : SbIn) : Option (Nat × Bytes) :=
  let body := f.body.take f.len.toNat
  match (List.range 5).find? (fun i => decide ((s.session i).st = .opened) && decide ((s.session i).sid = f.sid)
      && decide (f.ver = 1) && decide (f.len.toNat ≤ f.body.length)) with
  | none => none
  | some i =>
    let x := s.session i
    let aad := s.frameAad s.fuses.mac f.mac type f.sid.toNat f.cnt.toNat body.length
    let nonce := x.saltIn.toNat * 2 ^ 64 + f.cnt.toNat
    let b := Crypto.gcmOpen x.keyIn.toNat nonce aad body
    if Crypto.gcmTag x.keyIn.toNat nonce aad b = f.tag then some (i, b) else none

/-- A response or event body (Table 18.4). -/
def sbBody (op st idx sub off total time : Nat) (data : Bytes) : Bytes :=
  [BitVec.ofNat 8 op, BitVec.ofNat 8 st] ++ natLe 2 idx ++ [BitVec.ofNat 8 sub, 0] ++ natLe 2 data.length ++ natLe 2 off ++ natLe 2 total
    ++ natLe 8 time ++ data

/-- A session whose counters cannot go on is closed (R405). -/
def State.countersEnd (s : State) (i : Nat) : State :=
  let x := s.session i
  if x.txCnt = 0xFFFFFFFF ∨ x.lastCnt = 0xFFFFFFFF then s.sbClose i 6 else s

/-- A RESPONSE sent and kept. -/
def State.respond (s : State) (i : Nat) (body : Bytes) : State :=
  let s := s.setSession i { s.session i with stored := some body }
  (s.sbSend i 0x21 body).countersEnd i

/-- The response to a write of the EtherType goes out under the old one (R399). -/
def State.respondAs (s : State) (etype : Nat) (i : Nat) (body : Bytes) : State :=
  let new := s.obj 0x2000 5
  if new = etype then s.respond i body else ((s.setObj 0x2000 5 etype).respond i body).setObj 0x2000 5 new

/-- What an operation gives: status, data, offset and length of the whole value. -/
structure SbResult where
  st : Nat
  data : Bytes := []
  off : Nat := 0
  total : Nat := 0
  deriving DecidableEq, Repr

def sessSource (i : Nat) : Source := .session (Fin.ofNat 5 i)

/-- The block buffer emptied. -/
def Session.noBlock (x : Session) : Session := { x with block := [], blockPair := none, blockWrite := false }

/-- A request body's fields (Table 18.3). -/
def rqLen (b : Bytes) : Nat := Nat.min 1024 (leField b 6 2)
def rqOff (b : Bytes) : Nat := leField b 8 2
def rqPair (b : Bytes) : Nat := leField b 2 2 * 256 + leField b 4 1

/-- READ. -/
def State.rqRead (s : State) (i : Nat) (b : Bytes) (bad : Bool) : SbResult × State :=
  let s := s.setSession i (s.session i).noBlock
  let p := s.srcPrincipal (sessSource i)
  let r := s.dictRead p (i + 1) (leField b 2 2) (leField b 4 1) bad
  let d := r.2.1.take (rqLen b)
  let st := if r.1 = stOk ∧ rqLen b < r.2.1.length then stShort else r.1
  ({ st := st, data := d, total := r.2.1.length }, (r.2.2.countOp p st false).otherServed 66)

/-- WRITE. -/
def State.rqWrite (s : State) (i : Nat) (b : Bytes) (flash : Bool) : SbResult × State :=
  let s := s.setSession i (s.session i).noBlock
  let p := s.srcPrincipal (sessSource i)
  let v := (b.drop 12).take (rqLen b)
  let r := s.dictWrite p (i + 1) (leField b 2 2) (leField b 4 1) v flash
  ({ st := r.1, data := r.2.1.take v.length, total := r.2.1.length }, (r.2.2.countOp p r.1 true).otherServed 66)

/-- BREAD (R408); an OFFSET beyond Table 18.3 gets BADOP (R407). -/
def State.rqBread (s : State) (i : Nat) (b : Bytes) (bad : Bool) : SbResult × State :=
  if rqOff b = 0 then
    let s := s.setSession i (s.session i).noBlock
    let p := s.srcPrincipal (sessSource i)
    let r := s.dictRead p (i + 1) (leField b 2 2) (leField b 4 1) bad
    let s := (r.2.2.countOp p r.1 false).otherServed 66
    if r.1 ≠ stOk then ({ st := r.1 }, s)
    else ({ st := stOk, data := r.2.1.take (rqLen b), total := r.2.1.length },
          s.setSession i { s.session i with block := r.2.1, blockPair := some (rqPair b), blockWrite := false })
  else
    let x := s.session i
    if x.blockPair = some (rqPair b) ∧ !x.blockWrite ∧ rqOff b < 4096 then
      ({ st := stOk, data := (x.block.drop (rqOff b)).take (rqLen b), off := rqOff b, total := x.block.length }, s)
    else ({ st := stBadOp }, s)

/-- BWRITE (R408): data placed in the buffer; with FINAL one WRITE of the whole buffer. -/
def State.rqBwrite (s : State) (i : Nat) (b : Bytes) (flash : Bool) : SbResult × State :=
  let x := s.session i
  let mine := decide (x.blockPair = some (rqPair b)) && x.blockWrite
  if 4096 ≤ rqOff b ∨ (!mine ∧ x.blockPair.isSome ∧ x.blockPair ≠ some (rqPair b) ∧ rqOff b ≠ 0) then ({ st := stBadOp }, s)
  else
    let blk := (bytesPut (if mine then x.block else []) (rqOff b) ((b.drop 12).take (rqLen b))).take 4096
    if !bit (leField b 1 1) 0 then
      ({ st := stOk, off := rqOff b }, s.setSession i { x with block := blk, blockPair := some (rqPair b), blockWrite := true })
    else
      let s := s.setSession i x.noBlock
      let p := s.srcPrincipal (sessSource i)
      let r := s.dictWrite p (i + 1) (leField b 2 2) (leField b 4 1) blk flash
      ({ st := r.1, data := r.2.1.take 1024, total := r.2.1.length }, (r.2.2.countOp p r.1 true).otherServed 66)

/-- SUBSCRIBE (R409). -/
def State.rqSubscribe (s : State) (i : Nat) (b : Bytes) : SbResult × State :=
  let s := s.setSession i (s.session i).noBlock
  let x := s.session i
  let rest := x.subs.filter (fun q => decide (q.pair ≠ rqPair b))
  if 32 ≤ rest.length then ({ st := stRefused }, s)
  else
    let q : Sub := { pair := rqPair b, periodic := bit (leField b 1 1) 0, period := clampNat 10 60000 (leField b 10 2), last := none }
    ({ st := stOk }, s.setSession i { x with subs := rest ++ [q] })

/-- UNSUBSCRIBE (R409). -/
def State.rqUnsubscribe (s : State) (i : Nat) (b : Bytes) : SbResult × State :=
  let x := s.session i
  ({ st := stOk }, s.setSession i { x with subs := x.subs.filter (fun q => decide (q.pair ≠ rqPair b)) })

/-- A request body holds its fields, and the data that a WRITE or a BWRITE says it carries. -/
def rqWhole (b : Bytes) : Bool :=
  decide (12 ≤ b.length) && (decide (leField b 0 1 ≠ 2 ∧ leField b 0 1 ≠ 4) || decide (12 + rqLen b ≤ b.length))

/-- The operation of a request body. A body that is too short, or of a reserved OP, gets BADOP (R407). -/
def State.rqDo (s : State) (i : Nat) (b : Bytes) (bad flash : Bool) : SbResult × State :=
  if !rqWhole b then ({ st := stBadOp }, s)
  else match leField b 0 1 with
    | 1 => s.rqRead i b bad
    | 2 => s.rqWrite i b flash
    | 3 => s.rqBread i b bad
    | 4 => s.rqBwrite i b flash
    | 5 => s.rqSubscribe i b
    | 6 => s.rqUnsubscribe i b
    | 7 => ({ st := stOk }, s)
    | _ => ({ st := stBadOp }, s)

/-- A REQUEST arrives (R405): the one after the last is executed, a repeat gets the stored response, any other is
discarded. A frame that is not for the device is ignored, and one that would execute while the engine serves an operation whose buffer is
in host memory is not taken: its manager sends it again (R392, R405). The command handles frames of its own OP, and of no listed one. -/
def State.request (s : State) (op : Nat) (f : SbIn) (bad flash : Bool) : State :=
  if !s.sbRuns || !s.forUs f.dst f.etype then s
  else match s.openFrame 0x20 f with
    | none => s.discarded
    | some (i, b) =>
      let x := s.session i
      let o := leField b 0 1
      if o ≠ op ∧ 1 ≤ o ∧ o ≤ 7 then s
      else if f.cnt = x.lastCnt ∧ x.stored.isSome then
        let s := (s.setSession i { x with idle := s.gov.uptime }).accepted.bump 0x2005 3 1
        (s.sbSend i 0x21 (match x.stored with | some r => r | none => [])).countersEnd i
      else if f.cnt ≠ x.lastCnt + 1 then s.discarded
      else if s.dict.xfer.isSome then s
      else
        let s := (s.setSession i { x with lastCnt := f.cnt, idle := s.gov.uptime }).accepted
        let r := s.rqDo i b bad flash
        -- a session that its own request has closed gets no response
        if (r.2.session i).st ≠ .opened ∨ (r.2.session i).sid ≠ x.sid then r.2
        else r.2.respondAs (s.obj 0x2000 5) i (sbBody o r.1.st (leField b 2 2) (leField b 4 1) r.1.off r.1.total 0 r.1.data)

/-- SB_READ (R408). `bad` says that the aon store's parity failed at the read (R390). -/
def execSbRead (f : SbIn) (bad : Bool) (s : State) : Out := .next (s.request 1 f bad true).tick1

/-- SB_WRITE (R408). `flash` says that the boot flash accepts a write of update data (R374). -/
def execSbWrite (f : SbIn) (flash : Bool) (s : State) : Out := .next (s.request 2 f false flash).tick1

/-- BREAD (R408). -/
def execBread (f : SbIn) (bad : Bool) (s : State) : Out := .next (s.request 3 f bad true).tick1

/-- BWRITE (R408). -/
def execBwrite (f : SbIn) (flash : Bool) (s : State) : Out := .next (s.request 4 f false flash).tick1

/-- SUBSCRIBE (R409). -/
def execSubscribe (f : SbIn) (s : State) : Out := .next (s.request 5 f false true)

/-- UNSUBSCRIBE (R409). -/
def execUnsubscribe (f : SbIn) (s : State) : Out := .next (s.request 6 f false true)

/-- NOP (R406). -/
def execNop (f : SbIn) (s : State) : Out := .next (s.request 7 f false true)

/-! ### Subscriptions (R409) -/

/-- An EVENT for a subscription. -/
def State.sendEvent (s : State) (i pair st : Nat) (v : Bytes) : State :=
  (s.sbSend i 0x22 (sbBody 8 st (pair / 256) (pair % 256) 0 v.length s.now (v.take 1024))).countersEnd i

/-- Whether the store of an aon object fails its parity at a sample (R390): the command brings no such error, so it is a free value
(assumption 1). -/
def State.sampleBad (s : State) (i pair : Nat) : Bool :=
  (match catRow (pair / 256) (pair % 256) with | some r => decide (r.persist = 1) | none => false) && freeBit s.freeCtr 32 (2 ^ 24 * i + pair)

/-- One subscription sampled: a value that is refused or absent ends it with one EVENT. -/
def State.sampleSub (s : State) (i : Nat) (q : Sub) : State :=
  let r := s.dictRead (s.srcPrincipal (sessSource i)) (i + 1) (q.pair / 256) (q.pair % 256) (s.sampleBad i q.pair)
  let s := r.2.2
  let x := s.session i
  let put := fun (q' : Sub) => s.setSession i { x with subs := x.subs.map (fun o => if o.pair = q.pair then q' else o) }
  if x.st ≠ .opened then s
  else if r.1 ≠ stOk then
    (s.setSession i { x with subs := x.subs.filter (fun o => decide (o.pair ≠ q.pair)) }).sendEvent i q.pair r.1 []
  else if q.periodic then
    if q.period ≤ q.age + 1 then (put { q with age := 0, last := some r.2.1 }).sendEvent i q.pair stOk r.2.1
    else put { q with age := q.age + 1 }
  else if q.last = some r.2.1 then s
  else (put { q with last := some r.2.1 }).sendEvent i q.pair stOk r.2.1

/-- SUBSCRIPTION_SAMPLE (R409): every subscription of every open session. -/
def execSubscriptionSample (s : State) : Out :=
  .next (if !s.sbRuns then s
    else ((List.range 5).foldl (fun (s : State) i =>
      if (s.session i).st ≠ .opened then s else (s.session i).subs.foldl (fun (s : State) q => s.sampleSub i q) s) s).tick1)

/-! ### Ends of sessions (R404, R406) -/

/-- CLOSE (R404): a CLOSE of the manager frees the slot. -/
def execClose (f : SbIn) (s : State) : Out :=
  .next (if !s.sbRuns || !s.forUs f.dst f.etype then s
    else match s.openFrame 0x23 f with
      | none => s.discarded
      | some (i, _) => s.accepted.sbEnd i)

/-- SESSION_CLOSE_WRITE (R404): a write of object 0x2002.06; a SID that no open session has changes nothing. -/
def execSessionCloseWrite (p : Principal) (sid : BitVec 16) (s : State) : Out :=
  .next (s.operated p 0x2002 6 (decide (sid = 0)) (fun s => s.guarded p 0x2002 6 (fun s =>
    match (List.range 5).find? (fun i => decide ((s.session i).st = .opened) && decide ((s.session i).sid.toNat = clampNat 1 65535 sid.toNat)) with
    | some i => s.sbClose i 7
    | none => s)))

/-- ALIVE_TIMEOUT (R406). -/
def execAliveTimeout (i : Fin 5) (s : State) : Out :=
  .next (if (s.session i.val).st = .opened && decide (s.obj 0x2003 1 * 100 ≤ s.idleTicks i.val) then (s.sbClose i.val 4).bump 0x2005 5 1 else s)

end Sys2Proof.Machine
end

