-- ==== Sys2Proof/Machine/Slots.lean ====
section
/-!
DEFINITION. Machine/Slots.lean: the matrix, Tailor and control slots of the head bundle (Tables 3.10, 3.14, 7.3). Each
operation takes effect at its issue; its result is whole at its latency (R87), when MATRIX_RESULT or TAILOR_RESULT names it.
-/
namespace Sys2Proof.Machine
open Sys2Proof

/-! ### Matrix slots -/

/-- MMA: acc += A B (R118). -/
def execMma (t : TileNo) (slot : Fin 2) (s : State) : Out := .next (s.matrixSlot t slot 1)

/-- MMZ: acc = A B (R134). -/
def execMmz (t : TileNo) (slot : Fin 2) (s : State) : Out := .next (s.matrixSlot t slot 2)

/-- MMAV: as MMA, with A from the staging buffers (R121). -/
def execMmav (t : TileNo) (slot : Fin 2) (s : State) : Out := .next (s.matrixSlot t slot 3)

/-- ACRD: the cascade is folded and copied into a Tailor buffer (R157). -/
def execAcrd (t : TileNo) (slot : Fin 2) (s : State) : Out := .next (s.matrixSlot t slot 4)

/-- ACZ (R134). -/
def execAcz (t : TileNo) (slot : Fin 2) (s : State) : Out := .next (s.matrixSlot t slot 5)

/-- ACSV (R133). -/
def execAcsv (t : TileNo) (slot : Fin 2) (s : State) : Out := .next (s.matrixSlot t slot 6)

/-- ACLD (R133). -/
def execAcld (t : TileNo) (slot : Fin 2) (s : State) : Out := .next (s.matrixSlot t slot 7)

/-! ### The Tailor slot -/

/-- TLD: a buffer takes a Pocket tile in FMTS (R173). -/
def execTld (t : TileNo) (s : State) : Out := .next (s.tailorSlot t 0x01)

/-- TST: the Pocket takes a buffer in its TAG format (R173). -/
def execTst (t : TileNo) (s : State) : Out := .next (s.tailorSlot t 0x02)

/-- TSTS: as TST, with the statistics of what is stored (R183). -/
def execTsts (t : TileNo) (s : State) : Out := .next (s.tailorSlot t 0x03)

/-- TSTAT: the Pocket takes a statistics set (R182). -/
def execTstat (t : TileNo) (s : State) : Out := .next (s.tailorSlot t 0x04)

/-- TZERO (R173). -/
def execTzero (t : TileNo) (s : State) : Out := .next (s.tailorSlot t 0x05)

/-- TFKEY: the Flurry context is loaded (R189). -/
def execTfkey (t : TileNo) (s : State) : Out := .next (s.tailorSlot t 0x06)

/-- ADD (R174). -/
def execAdd (t : TileNo) (s : State) : Out := .next (s.tailorSlot t 0x10)

/-- SUB (R174). -/
def execSub (t : TileNo) (s : State) : Out := .next (s.tailorSlot t 0x11)

/-- MUL (R174). -/
def execMul (t : TileNo) (s : State) : Out := .next (s.tailorSlot t 0x12)

/-- MAX (R174). -/
def execMax (t : TileNo) (s : State) : Out := .next (s.tailorSlot t 0x13)

/-- MIN (R174). -/
def execMin (t : TileNo) (s : State) : Out := .next (s.tailorSlot t 0x14)

/-- MULI (R174). -/
def execMuli (t : TileNo) (s : State) : Out := .next (s.tailorSlot t 0x15)

/-- ADDI (R174). -/
def execAddi (t : TileNo) (s : State) : Out := .next (s.tailorSlot t 0x16)

/-- MASK (R174). -/
def execMask (t : TileNo) (s : State) : Out := .next (s.tailorSlot t 0x17)

/-- FMA (R174). -/
def execFma (t : TileNo) (s : State) : Out := .next (s.tailorSlot t 0x18)

/-- FMS (R174). -/
def execFms (t : TileNo) (s : State) : Out := .next (s.tailorSlot t 0x19)

/-- SEL (R174). -/
def execSel (t : TileNo) (s : State) : Out := .next (s.tailorSlot t 0x1A)

/-- CLAMP (R174). -/
def execClamp (t : TileNo) (s : State) : Out := .next (s.tailorSlot t 0x1B)

/-- CVT (R181). -/
def execCvt (t : TileNo) (s : State) : Out := .next (s.tailorSlot t 0x20)

/-- CVTL (R181). -/
def execCvtl (t : TileNo) (s : State) : Out := .next (s.tailorSlot t 0x21)

/-- CVTS (R181). -/
def execCvts (t : TileNo) (s : State) : Out := .next (s.tailorSlot t 0x22)

/-- CVTSS (R183). -/
def execCvtss (t : TileNo) (s : State) : Out := .next (s.tailorSlot t 0x23)

/-- BDEC (R184). -/
def execBdec (t : TileNo) (s : State) : Out := .next (s.tailorSlot t 0x28)

/-- BENC (R184). -/
def execBenc (t : TileNo) (s : State) : Out := .next (s.tailorSlot t 0x29)

/-- EXP (R178). -/
def execExp (t : TileNo) (s : State) : Out := .next (s.tailorSlot t 0x30)

/-- EXP2 (R178). -/
def execExp2 (t : TileNo) (s : State) : Out := .next (s.tailorSlot t 0x31)

/-- LOG (R178). -/
def execLog (t : TileNo) (s : State) : Out := .next (s.tailorSlot t 0x32)

/-- LOG2 (R178). -/
def execLog2 (t : TileNo) (s : State) : Out := .next (s.tailorSlot t 0x33)

/-- RCP (R178). -/
def execRcp (t : TileNo) (s : State) : Out := .next (s.tailorSlot t 0x34)

/-- SQRT (R178). -/
def execSqrt (t : TileNo) (s : State) : Out := .next (s.tailorSlot t 0x35)

/-- RSQRT (R178). -/
def execRsqrt (t : TileNo) (s : State) : Out := .next (s.tailorSlot t 0x36)

/-- TANH (R178). -/
def execTanh (t : TileNo) (s : State) : Out := .next (s.tailorSlot t 0x37)

/-- SIGM (R178). -/
def execSigm (t : TileNo) (s : State) : Out := .next (s.tailorSlot t 0x38)

/-- GELU (R178). -/
def execGelu (t : TileNo) (s : State) : Out := .next (s.tailorSlot t 0x39)

/-- SILU (R178). -/
def execSilu (t : TileNo) (s : State) : Out := .next (s.tailorSlot t 0x3A)

/-- SMAX (R179). -/
def execSmax (t : TileNo) (s : State) : Out := .next (s.tailorSlot t 0x3B)

/-- SMST (R179). -/
def execSmst (t : TileNo) (s : State) : Out := .next (s.tailorSlot t 0x3C)

/-- SMNM (R179). -/
def execSmnm (t : TileNo) (s : State) : Out := .next (s.tailorSlot t 0x3D)

/-- BADD: a broadcast form (R175). -/
def execBadd (t : TileNo) (s : State) : Out := .next (s.tailorSlot t 0x40)

/-- BSUB: a broadcast form (R175). -/
def execBsub (t : TileNo) (s : State) : Out := .next (s.tailorSlot t 0x41)

/-- BMUL: a broadcast form (R175). -/
def execBmul (t : TileNo) (s : State) : Out := .next (s.tailorSlot t 0x42)

/-- BMAX: a broadcast form (R175). -/
def execBmax (t : TileNo) (s : State) : Out := .next (s.tailorSlot t 0x43)

/-- BMIN: a broadcast form (R175). -/
def execBmin (t : TileNo) (s : State) : Out := .next (s.tailorSlot t 0x44)

/-- BFMA: a broadcast form (R175). -/
def execBfma (t : TileNo) (s : State) : Out := .next (s.tailorSlot t 0x45)

/-- BCPY: a broadcast form (R175). -/
def execBcpy (t : TileNo) (s : State) : Out := .next (s.tailorSlot t 0x46)

/-- RSUM: a reduction of rows (R176). -/
def execRsum (t : TileNo) (s : State) : Out := .next (s.tailorSlot t 0x50)

/-- RMAX: a reduction of rows (R176). -/
def execRmax (t : TileNo) (s : State) : Out := .next (s.tailorSlot t 0x51)

/-- RMIN: a reduction of rows (R176). -/
def execRmin (t : TileNo) (s : State) : Out := .next (s.tailorSlot t 0x52)

/-- RSSQ: a reduction of rows (R176). -/
def execRssq (t : TileNo) (s : State) : Out := .next (s.tailorSlot t 0x53)

/-- RAMAX: a reduction of rows (R176). -/
def execRamax (t : TileNo) (s : State) : Out := .next (s.tailorSlot t 0x54)

/-- RARGMAX: a reduction of rows (R176). -/
def execRargmax (t : TileNo) (s : State) : Out := .next (s.tailorSlot t 0x55)

/-- RSUMA: a reduction of rows (R176). -/
def execRsuma (t : TileNo) (s : State) : Out := .next (s.tailorSlot t 0x56)

/-- RMAXA: a reduction of rows (R176). -/
def execRmaxa (t : TileNo) (s : State) : Out := .next (s.tailorSlot t 0x57)

/-- CSUM: a reduction of columns (R176). -/
def execCsum (t : TileNo) (s : State) : Out := .next (s.tailorSlot t 0x60)

/-- CMAX: a reduction of columns (R176). -/
def execCmax (t : TileNo) (s : State) : Out := .next (s.tailorSlot t 0x61)

/-- CMIN: a reduction of columns (R176). -/
def execCmin (t : TileNo) (s : State) : Out := .next (s.tailorSlot t 0x62)

/-- CSSQ: a reduction of columns (R176). -/
def execCssq (t : TileNo) (s : State) : Out := .next (s.tailorSlot t 0x63)

/-- CAMAX: a reduction of columns (R176). -/
def execCamax (t : TileNo) (s : State) : Out := .next (s.tailorSlot t 0x64)

/-- CARGMAX: a reduction of columns (R176). -/
def execCargmax (t : TileNo) (s : State) : Out := .next (s.tailorSlot t 0x65)

/-- CSUMA: a reduction of columns (R176). -/
def execCsuma (t : TileNo) (s : State) : Out := .next (s.tailorSlot t 0x66)

/-- CMAXA: a reduction of columns (R176). -/
def execCmaxa (t : TileNo) (s : State) : Out := .next (s.tailorSlot t 0x67)

/-- CMP: compress into a buffer (R177). -/
def execTailorCmp (t : TileNo) (s : State) : Out := .next (s.tailorSlot t 0x70)

/-- XPD: expand (R177). -/
def execXpd (t : TileNo) (s : State) : Out := .next (s.tailorSlot t 0x71)

/-- CMPS: compress into the Pocket (R177). -/
def execCmps (t : TileNo) (s : State) : Out := .next (s.tailorSlot t 0x72)

/-- XPDL: expand from the Pocket (R177). -/
def execXpdl (t : TileNo) (s : State) : Out := .next (s.tailorSlot t 0x73)

/-- OPTCFG (R186). -/
def execOptcfg (t : TileNo) (s : State) : Out := .next (s.tailorSlot t 0x80)

/-- OPTA (R186). -/
def execOpta (t : TileNo) (s : State) : Out := .next (s.tailorSlot t 0x81)

/-- OPTBEGIN (R186). -/
def execOptbegin (t : TileNo) (s : State) : Out := .next (s.tailorSlot t 0x82)

/-- OPTEND (R188). -/
def execOptend (t : TileNo) (s : State) : Out := .next (s.tailorSlot t 0x83)

/-- OPTSV (R186). -/
def execOptsv (t : TileNo) (s : State) : Out := .next (s.tailorSlot t 0x84)

/-- OPTB: one block of an update (R187). -/
def execOptb (t : TileNo) (s : State) : Out := .next (s.tailorSlot t 0x88)

/-- FLU (R190). -/
def execFlu (t : TileNo) (s : State) : Out := .next (s.tailorSlot t 0x90)

/-- FLK (R190). -/
def execFlk (t : TileNo) (s : State) : Out := .next (s.tailorSlot t 0x91)

/-- FLD (R190). -/
def execFld (t : TileNo) (s : State) : Out := .next (s.tailorSlot t 0x92)

/-! ### The control slot -/

/-- A q register as the bundle reads it: as it was before the bundle (R78). -/
def Issuing.qreg (x : Issuing) (w : Nat) : Nat := qGet x.q (cQ w)

def Isl.setQ (i : Isl) (r v : Nat) : Isl := i.setSeq (fun q => { q with q := qSet q.q r v })

/-- SKIP: the next bundle issues N cycles later (R83). -/
def execSkip (t : TileNo) (s : State) : Out :=
  .next (s.controlSlot t 1 (fun w x _ i => i.setSeq (fun q => { q with issueAt := x.cycle + 1 + cValue w })))

/-- BR (R83, R84). -/
def execBr (t : TileNo) (s : State) : Out := .next (s.controlSlot t 2 (fun w x _ i => takeBranch (cTarget w) x.cycle i))

/-- LOOP: a nonzero register is lowered, and the branch is taken while it is not zero (R83). -/
def execLoop (t : TileNo) (s : State) : Out :=
  .next (s.controlSlot t 3 (fun w x _ i =>
    let v := x.qreg w
    if v = 0 then i
    else
      let i := i.setQ (cQ w) (v - 1)
      if v - 1 = 0 then i else takeBranch (cTarget w) x.cycle i))

/-- BRZ (R83). -/
def execBrz (t : TileNo) (s : State) : Out :=
  .next (s.controlSlot t 4 (fun w x _ i => if x.qreg w = 0 then takeBranch (cTarget w) x.cycle i else i))

/-- BRNZ (R83). -/
def execBrnz (t : TileNo) (s : State) : Out :=
  .next (s.controlSlot t 5 (fun w x _ i => if x.qreg w = 0 then i else takeBranch (cTarget w) x.cycle i))

/-- QSET (R83). -/
def execQset (t : TileNo) (s : State) : Out := .next (s.controlSlot t 6 (fun w _ _ i => i.setQ (cQ w) (cImm w)))

/-- QADD, modulo 2^32 (R83); an addition of R177 that lands in its cycle follows it. -/
def execQadd (t : TileNo) (s : State) : Out :=
  .next (s.controlSlot t 7 (fun w x _ i => i.setQ (cQ w) ((qGet x.qOwn (cQ w) + cImm w) % 2 ^ 32)))

/-- GWAIT: its bundle issues once the Gate holds the value (R85). -/
def execGwait (t : TileNo) (s : State) : Out := .next (s.controlSlot t 8 (fun _ _ _ i => i))

/-- GWAITD: as GWAIT, and the Gate is lowered when its bundle issues (R85). -/
def execGwaitd (t : TileNo) (s : State) : Out := .next (s.controlSlot t 9 (fun _ _ _ i => i))

/-- BFLUSH of the control slot: the next bundle is fetched afresh (R83, R84, R91). -/
def execControlBflush (t : TileNo) (s : State) : Out :=
  .next (s.controlSlot t 10 (fun _ x k i => takeBranch (k + 1) x.cycle i))

/-- END: no later bundle issues; the stream ends once every issued operation has reached its latency (R83). -/
def execEndStream (t : TileNo) (s : State) : Out :=
  .next (s.controlSlot t 11 (fun _ _ _ i => i.setSeq (fun q => { q with run := q.run.map (fun r => { r with ended := true }) })))

end Sys2Proof.Machine
end

