-- ==== Sys2Proof/Machine/Dispatch.lean ====
section
/-!
DEFINITION. Machine/Dispatch.lean: the meaning of every command, one arm for each constructor of Instr.
-/
namespace Sys2Proof.Machine
open Sys2Proof

def exec (i : Instr) (s : State) : Host.Outcome State Fault Refusal :=
  match i with
  | .create p id share hybrid => Sys2Proof.Machine.execCreate p id share hybrid s
  | .addTiles p id map => Sys2Proof.Machine.execAddTiles p id map s
  | .tileAssignmentComplete t => Sys2Proof.Machine.execTileAssignmentComplete t s
  | .addGranules p id list => Sys2Proof.Machine.execAddGranules p id list s
  | .ownerChangeComplete g => Sys2Proof.Machine.execOwnerChangeComplete g s
  | .load p id src len dst => Sys2Proof.Machine.execLoad p id src len dst s
  | .loadCopyComplete id data blocks => Sys2Proof.Machine.execLoadCopyComplete id data blocks s
  | .finalise p id => Sys2Proof.Machine.execFinalise p id s
  | .start p id => Sys2Proof.Machine.execStart p id s
  | .stop p id => Sys2Proof.Machine.execStop p id s
  | .cloakHalted id => Sys2Proof.Machine.execCloakHalted id s
  | .resume p id => Sys2Proof.Machine.execResume p id s
  | .destroy p id => Sys2Proof.Machine.execDestroy p id s
  | .destroySequenceComplete id => Sys2Proof.Machine.execDestroySequenceComplete id s
  | .reclaimGranules p id list => Sys2Proof.Machine.execReclaimGranules p id list s
  | .exit p id => Sys2Proof.Machine.execExit p id s
  | .releaseGranules p id list => Sys2Proof.Machine.execReleaseGranules p id list s
  | .rotateKey p id => Sys2Proof.Machine.execRotateKey p id s
  | .decapsulate id enc kem dst => Sys2Proof.Machine.execDecapsulate id enc kem dst s
  | .decapsulationComplete => Sys2Proof.Machine.execDecapsulationComplete s
  | .report p id rdata dst => Sys2Proof.Machine.execReport p id rdata dst s
  | .getseal p id dst => Sys2Proof.Machine.execGetseal p id dst s
  | .lalloc p id count => Sys2Proof.Machine.execLalloc p id count s
  | .lfree p id first count => Sys2Proof.Machine.execLfree p id first count s
  | .lread p id index dst => Sys2Proof.Machine.execLread p id index dst s
  | .interval1sEnd => Sys2Proof.Machine.execInterval1sEnd s
  | .interval100msEnd => Sys2Proof.Machine.execInterval100msEnd s
  | .cCoreLoad t user size signed fp rd base off => Sys2Proof.Machine.execCCoreLoad t user size signed fp rd base off s
  | .cCoreStore t user size fp rs base off => Sys2Proof.Machine.execCCoreStore t user size fp rs base off s
  | .scalarFpOp t f op rd ra rb rc => Sys2Proof.Machine.execScalarFpOp t f op rd ra rb rc s
  | .amoRmw t user func rd ra rb => Sys2Proof.Machine.execAmoRmw t user func rd ra rb s
  | .cas t user func rd ra rb => Sys2Proof.Machine.execCas t user func rd ra rb s
  | .cas128 t user func rd ra rb => Sys2Proof.Machine.execCas128 t user func rd ra rb s
  | .amoFp t user func rd ra rb => Sys2Proof.Machine.execAmoFp t user func rd ra rb s
  | .fence t pred succ => Sys2Proof.Machine.execFence t pred succ s
  | .elaunch t user rd ra rb => Sys2Proof.Machine.execElaunch t user rd ra rb s
  | .estat t rd ra => Sys2Proof.Machine.execEstat t rd ra s
  | .ewait t rd ra => Sys2Proof.Machine.execEwait t rd ra s
  | .estop t ra => Sys2Proof.Machine.execEstop t ra s
  | .iflush t => Sys2Proof.Machine.execIflush t s
  | .bflush t => Sys2Proof.Machine.execBflush t s
  | .streamStart t => Sys2Proof.Machine.execStreamStart t s
  | .bundleFetch t bad => Sys2Proof.Machine.execBundleFetch t bad s
  | .streamDone t => Sys2Proof.Machine.execStreamDone t s
  | .streamStopComplete t => Sys2Proof.Machine.execStreamStopComplete t s
  | .waitlimitExpiry t => Sys2Proof.Machine.execWaitlimitExpiry t s
  | .mma t slot => Sys2Proof.Machine.execMma t slot s
  | .mmz t slot => Sys2Proof.Machine.execMmz t slot s
  | .mmav t slot => Sys2Proof.Machine.execMmav t slot s
  | .acrd t slot => Sys2Proof.Machine.execAcrd t slot s
  | .acz t slot => Sys2Proof.Machine.execAcz t slot s
  | .acsv t slot => Sys2Proof.Machine.execAcsv t slot s
  | .acld t slot => Sys2Proof.Machine.execAcld t slot s
  | .matrixResult t parity plane => Sys2Proof.Machine.execMatrixResult t parity plane s
  | .tld t => Sys2Proof.Machine.execTld t s
  | .tst t => Sys2Proof.Machine.execTst t s
  | .tsts t => Sys2Proof.Machine.execTsts t s
  | .tstat t => Sys2Proof.Machine.execTstat t s
  | .tzero t => Sys2Proof.Machine.execTzero t s
  | .tfkey t => Sys2Proof.Machine.execTfkey t s
  | .add t => Sys2Proof.Machine.execAdd t s
  | .sub t => Sys2Proof.Machine.execSub t s
  | .mul t => Sys2Proof.Machine.execMul t s
  | .max t => Sys2Proof.Machine.execMax t s
  | .min t => Sys2Proof.Machine.execMin t s
  | .muli t => Sys2Proof.Machine.execMuli t s
  | .addi t => Sys2Proof.Machine.execAddi t s
  | .mask t => Sys2Proof.Machine.execMask t s
  | .fma t => Sys2Proof.Machine.execFma t s
  | .fms t => Sys2Proof.Machine.execFms t s
  | .sel t => Sys2Proof.Machine.execSel t s
  | .clamp t => Sys2Proof.Machine.execClamp t s
  | .cvt t => Sys2Proof.Machine.execCvt t s
  | .cvtl t => Sys2Proof.Machine.execCvtl t s
  | .cvts t => Sys2Proof.Machine.execCvts t s
  | .cvtss t => Sys2Proof.Machine.execCvtss t s
  | .bdec t => Sys2Proof.Machine.execBdec t s
  | .benc t => Sys2Proof.Machine.execBenc t s
  | .exp t => Sys2Proof.Machine.execExp t s
  | .exp2 t => Sys2Proof.Machine.execExp2 t s
  | .log t => Sys2Proof.Machine.execLog t s
  | .log2 t => Sys2Proof.Machine.execLog2 t s
  | .rcp t => Sys2Proof.Machine.execRcp t s
  | .sqrt t => Sys2Proof.Machine.execSqrt t s
  | .rsqrt t => Sys2Proof.Machine.execRsqrt t s
  | .tanh t => Sys2Proof.Machine.execTanh t s
  | .sigm t => Sys2Proof.Machine.execSigm t s
  | .gelu t => Sys2Proof.Machine.execGelu t s
  | .silu t => Sys2Proof.Machine.execSilu t s
  | .smax t => Sys2Proof.Machine.execSmax t s
  | .smst t => Sys2Proof.Machine.execSmst t s
  | .smnm t => Sys2Proof.Machine.execSmnm t s
  | .badd t => Sys2Proof.Machine.execBadd t s
  | .bsub t => Sys2Proof.Machine.execBsub t s
  | .bmul t => Sys2Proof.Machine.execBmul t s
  | .bmax t => Sys2Proof.Machine.execBmax t s
  | .bmin t => Sys2Proof.Machine.execBmin t s
  | .bfma t => Sys2Proof.Machine.execBfma t s
  | .bcpy t => Sys2Proof.Machine.execBcpy t s
  | .rsum t => Sys2Proof.Machine.execRsum t s
  | .rmax t => Sys2Proof.Machine.execRmax t s
  | .rmin t => Sys2Proof.Machine.execRmin t s
  | .rssq t => Sys2Proof.Machine.execRssq t s
  | .ramax t => Sys2Proof.Machine.execRamax t s
  | .rargmax t => Sys2Proof.Machine.execRargmax t s
  | .rsuma t => Sys2Proof.Machine.execRsuma t s
  | .rmaxa t => Sys2Proof.Machine.execRmaxa t s
  | .csum t => Sys2Proof.Machine.execCsum t s
  | .cmax t => Sys2Proof.Machine.execCmax t s
  | .cmin t => Sys2Proof.Machine.execCmin t s
  | .cssq t => Sys2Proof.Machine.execCssq t s
  | .camax t => Sys2Proof.Machine.execCamax t s
  | .cargmax t => Sys2Proof.Machine.execCargmax t s
  | .csuma t => Sys2Proof.Machine.execCsuma t s
  | .cmaxa t => Sys2Proof.Machine.execCmaxa t s
  | .tailorCmp t => Sys2Proof.Machine.execTailorCmp t s
  | .xpd t => Sys2Proof.Machine.execXpd t s
  | .cmps t => Sys2Proof.Machine.execCmps t s
  | .xpdl t => Sys2Proof.Machine.execXpdl t s
  | .optcfg t => Sys2Proof.Machine.execOptcfg t s
  | .opta t => Sys2Proof.Machine.execOpta t s
  | .optbegin t => Sys2Proof.Machine.execOptbegin t s
  | .optb t => Sys2Proof.Machine.execOptb t s
  | .optend t => Sys2Proof.Machine.execOptend t s
  | .optsv t => Sys2Proof.Machine.execOptsv t s
  | .flu t => Sys2Proof.Machine.execFlu t s
  | .flk t => Sys2Proof.Machine.execFlk t s
  | .fld t => Sys2Proof.Machine.execFld t s
  | .tailorResult t parity => Sys2Proof.Machine.execTailorResult t parity s
  | .gstart t src => Sys2Proof.Machine.execGstart t src s
  | .gcredit t src => Sys2Proof.Machine.execGcredit t src s
  | .ghalt t src => Sys2Proof.Machine.execGhalt t src s
  | .glideResume p t stream => Sys2Proof.Machine.execGlideResume p t stream s
  | .glideAbort p t stream => Sys2Proof.Machine.execGlideAbort p t stream s
  | .gadd t => Sys2Proof.Machine.execGadd t s
  | .skip t => Sys2Proof.Machine.execSkip t s
  | .br t => Sys2Proof.Machine.execBr t s
  | .loop t => Sys2Proof.Machine.execLoop t s
  | .brz t => Sys2Proof.Machine.execBrz t s
  | .brnz t => Sys2Proof.Machine.execBrnz t s
  | .qset t => Sys2Proof.Machine.execQset t s
  | .qadd t => Sys2Proof.Machine.execQadd t s
  | .gwait t => Sys2Proof.Machine.execGwait t s
  | .gwaitd t => Sys2Proof.Machine.execGwaitd t s
  | .controlBflush t => Sys2Proof.Machine.execControlBflush t s
  | .endStream t => Sys2Proof.Machine.execEndStream t s
  | .vectorQueueSend t user pc ix => Sys2Proof.Machine.execVectorQueueSend t user pc ix s
  | .setvl t => Sys2Proof.Machine.execSetvl t s
  | .vsync t => Sys2Proof.Machine.execVsync t s
  | .vresume t => Sys2Proof.Machine.execVresume t s
  | .vrelease t => Sys2Proof.Machine.execVrelease t s
  | .vcsrr t => Sys2Proof.Machine.execVcsrr t s
  | .vcsrw t => Sys2Proof.Machine.execVcsrw t s
  | .vsend t => Sys2Proof.Machine.execVsend t s
  | .stagingBufferFill t => Sys2Proof.Machine.execStagingBufferFill t s
  | .vectorIntegerOp t => Sys2Proof.Machine.execVectorIntegerOp t s
  | .vectorFpOp t => Sys2Proof.Machine.execVectorFpOp t s
  | .vfredsum t => Sys2Proof.Machine.execVfredsum t s
  | .vfredmax t => Sys2Proof.Machine.execVfredmax t s
  | .vfredmin t => Sys2Proof.Machine.execVfredmin t s
  | .vfredosum t => Sys2Proof.Machine.execVfredosum t s
  | .predicateOp t => Sys2Proof.Machine.execPredicateOp t s
  | .vfop t => Sys2Proof.Machine.execVfop t s
  | .fxadds t => Sys2Proof.Machine.execFxadds t s
  | .fxaddsu t => Sys2Proof.Machine.execFxaddsu t s
  | .fxsubs t => Sys2Proof.Machine.execFxsubs t s
  | .fxsubsu t => Sys2Proof.Machine.execFxsubsu t s
  | .fxhadd t => Sys2Proof.Machine.execFxhadd t s
  | .fxhaddu t => Sys2Proof.Machine.execFxhaddu t s
  | .fxhsub t => Sys2Proof.Machine.execFxhsub t s
  | .fxhsubu t => Sys2Proof.Machine.execFxhsubu t s
  | .fxshra t => Sys2Proof.Machine.execFxshra t s
  | .fxshrl t => Sys2Proof.Machine.execFxshrl t s
  | .fxshls t => Sys2Proof.Machine.execFxshls t s
  | .fxshlsu t => Sys2Proof.Machine.execFxshlsu t s
  | .fxnarrow t => Sys2Proof.Machine.execFxnarrow t s
  | .fxnarrowu t => Sys2Proof.Machine.execFxnarrowu t s
  | .fxmulq t => Sys2Proof.Machine.execFxmulq t s
  | .fxmacq t => Sys2Proof.Machine.execFxmacq t s
  | .vloadUnit t => Sys2Proof.Machine.execVloadUnit t s
  | .vloadStrided t => Sys2Proof.Machine.execVloadStrided t s
  | .vloadIndexed t => Sys2Proof.Machine.execVloadIndexed t s
  | .vloadFaultFirst t => Sys2Proof.Machine.execVloadFaultFirst t s
  | .vstoreUnit t => Sys2Proof.Machine.execVstoreUnit t s
  | .vstoreStrided t => Sys2Proof.Machine.execVstoreStrided t s
  | .vstoreIndexed t => Sys2Proof.Machine.execVstoreIndexed t s
  | .retentionEntry t => Sys2Proof.Machine.execRetentionEntry t s
  | .coldEntry t => Sys2Proof.Machine.execColdEntry t s
  | .islandWakeComplete t => Sys2Proof.Machine.execIslandWakeComplete t s
  | .seamArrival t => Sys2Proof.Machine.execSeamArrival t s
  | .glaunch t user rd ra => Sys2Proof.Machine.execGlaunch t user rd ra s
  | .gstat t rd ra => Sys2Proof.Machine.execGstat t rd ra s
  | .gjoin t rd ra => Sys2Proof.Machine.execGjoin t rd ra s
  | .gkill t ra => Sys2Proof.Machine.execGkill t ra s
  | .greplay t ra rb => Sys2Proof.Machine.execGreplay t ra rb s
  | .gparkrd t rd ra rb => Sys2Proof.Machine.execGparkrd t rd ra rb s
  | .garea t rd ra => Sys2Proof.Machine.execGarea t rd ra s
  | .blockResident t => Sys2Proof.Machine.execBlockResident t s
  | .blockDone t => Sys2Proof.Machine.execBlockDone t s
  | .groupArith t g o rd ra rb rc => Sys2Proof.Machine.execGroupArith t g o rd ra rb rc s
  | .groupLoad t g size signed rd base pair off => Sys2Proof.Machine.execGroupLoad t g size signed rd base pair off s
  | .groupStore t g size rs base pair off => Sys2Proof.Machine.execGroupStore t g size rs base pair off s
  | .groupAtomic t g op size rd rs base rc pair off imm => Sys2Proof.Machine.execGroupAtomic t g op size rd rs base rc pair off imm s
  | .gfence t g => Sys2Proof.Machine.execGfence t g s
  | .gcopy t g addr off len store gate => Sys2Proof.Machine.execGcopy t g addr off len store gate s
  | .groupCopyComplete t => Sys2Proof.Machine.execGroupCopyComplete t s
  | .groupCopyFault t => Sys2Proof.Machine.execGroupCopyFault t s
  | .gbra t g imm => Sys2Proof.Machine.execGbra t g imm s
  | .gbrc t g ra imm => Sys2Proof.Machine.execGbrc t g ra imm s
  | .gmark t g imm => Sys2Proof.Machine.execGmark t g imm s
  | .gsync t g => Sys2Proof.Machine.execGsync t g s
  | .spin t g => Sys2Proof.Machine.execSpin t g s
  | .spinSwitch t g => Sys2Proof.Machine.execSpinSwitch t g s
  | .gbar t g => Sys2Proof.Machine.execGbar t g s
  | .bbar t g => Sys2Proof.Machine.execBbar t g s
  | .barrierComplete t g => Sys2Proof.Machine.execBarrierComplete t g s
  | .watchdogExpiry t g => Sys2Proof.Machine.execWatchdogExpiry t g s
  | .gexit t g => Sys2Proof.Machine.execGexit t g s
  | .gtrap t g => Sys2Proof.Machine.execGtrap t g s
  | .gwaitg t g rb imm => Sys2Proof.Machine.execGwaitg t g rb imm s
  | .gwaitgd t g rb imm => Sys2Proof.Machine.execGwaitgd t g rb imm s
  | .gshfl t g rd ra rb => Sys2Proof.Machine.execGshfl t g rd ra rb s
  | .gvote t g rd ra => Sys2Proof.Machine.execGvote t g rd ra s
  | .gred t g rd ra imm => Sys2Proof.Machine.execGred t g rd ra imm s
  | .gmma t g bf rd ra rb rc => Sys2Proof.Machine.execGmma t g bf rd ra rb rc s
  | .glideTileStart t stream => Sys2Proof.Machine.execGlideTileStart t stream s
  | .glideRequestIssue t bad => Sys2Proof.Machine.execGlideRequestIssue t bad s
  | .tileCounted t stream => Sys2Proof.Machine.execTileCounted t stream s
  | .glideStreamFault t stream => Sys2Proof.Machine.execGlideStreamFault t stream s
  | .gateWrite p t g v => Sys2Proof.Machine.execGateWrite p t g v s
  | .gateovfClear p t v => Sys2Proof.Machine.execGateovfClear p t v s
  | .gateunderClear p t v => Sys2Proof.Machine.execGateunderClear p t v s
  | .sctlWrite p t k v => Sys2Proof.Machine.execSctlWrite p t k v s
  | .svalWrite p t k v => Sys2Proof.Machine.execSvalWrite p t k v s
  | .svalRead p t k => Sys2Proof.Machine.execSvalRead p t k s
  | .patrolScrub line finding => Sys2Proof.Machine.execPatrolScrub line finding s
  | .stackTemperatureReading temps => Sys2Proof.Machine.execStackTemperatureReading temps s
  | .throttleWindow => Sys2Proof.Machine.execThrottleWindow s
  | .tinva t user sa sb => Sys2Proof.Machine.execTinva t user sa sb s
  | .tinvs t user sb => Sys2Proof.Machine.execTinvs t user sb s
  | .tinvd t user => Sys2Proof.Machine.execTinvd t user s
  | .tsync t user => Sys2Proof.Machine.execTsync t user s
  | .tctxWrite t user sa => Sys2Proof.Machine.execTctxWrite t user sa s
  | .etctxWrite t user sa => Sys2Proof.Machine.execEtctxWrite t user sa s
  | .cuffMiss t c va ctx kernel k => Sys2Proof.Machine.execCuffMiss t c va ctx kernel k s
  | .walkComplete t => Sys2Proof.Machine.execWalkComplete t s
  | .shootdownTailWrite p v => Sys2Proof.Machine.execShootdownTailWrite p v s
  | .shootdownEpochComplete => Sys2Proof.Machine.execShootdownEpochComplete s
  | .shootdownRingEnable p b => Sys2Proof.Machine.execShootdownRingEnable p b s
  | .rds n line => Sys2Proof.Machine.execRds n line s
  | .rdx n line => Sys2Proof.Machine.execRdx n line s
  | .upg n line => Sys2Proof.Machine.execUpg n line s
  | .rdnc n line => Sys2Proof.Machine.execRdnc n line s
  | .wrnc n line => Sys2Proof.Machine.execWrnc n line s
  | .atom n line => Sys2Proof.Machine.execAtom n line s
  | .snps n line => Sys2Proof.Machine.execSnps n line s
  | .snpx n line => Sys2Proof.Machine.execSnpx n line s
  | .snpcur n line => Sys2Proof.Machine.execSnpcur n line s
  | .snpinv n line => Sys2Proof.Machine.execSnpinv n line s
  | .inv n line => Sys2Proof.Machine.execInv n line s
  | .data n line => Sys2Proof.Machine.execData n line s
  | .datax n line => Sys2Proof.Machine.execDatax n line s
  | .cmp n line => Sys2Proof.Machine.execCmp n line s
  | .invack n line => Sys2Proof.Machine.execInvack n line s
  | .snprsp n line => Sys2Proof.Machine.execSnprsp n line s
  | .wb n line => Sys2Proof.Machine.execWb n line s
  | .wback n line => Sys2Proof.Machine.execWback n line s
  | .atomrsp n line => Sys2Proof.Machine.execAtomrsp n line s
  | .err n line => Sys2Proof.Machine.execErr n line s
  | .portControlWrite p n v => Sys2Proof.Machine.execPortControlWrite p n v s
  | .hedomLinkControlWrite p v => Sys2Proof.Machine.execHedomLinkControlWrite p v s
  | .laneLock l lanes => Sys2Proof.Machine.execLaneLock l lanes s
  | .trainingTimeout l => Sys2Proof.Machine.execTrainingTimeout l s
  | .linkAttestationMessage n m => Sys2Proof.Machine.execLinkAttestationMessage n m s
  | .rekey n pub sig => Sys2Proof.Machine.execRekey n pub sig s
  | .flitReceive l f => Sys2Proof.Machine.execFlitReceive l f s
  | .retrainLock l breaks => Sys2Proof.Machine.execRetrainLock l breaks s
  | .retrainTimeout l => Sys2Proof.Machine.execRetrainTimeout l s
  | .rd => Sys2Proof.Machine.execRd s
  | .wr => Sys2Proof.Machine.execWr s
  | .fabricAtom => Sys2Proof.Machine.execFabricAtom s
  | .red => Sys2Proof.Machine.execRed s
  | .redres => Sys2Proof.Machine.execRedres s
  | .rdrsp => Sys2Proof.Machine.execRdrsp s
  | .wrack => Sys2Proof.Machine.execWrack s
  | .fabricAtomrsp => Sys2Proof.Machine.execFabricAtomrsp s
  | .fabricErr => Sys2Proof.Machine.execFabricErr s
  | .remoteTimeout tag => Sys2Proof.Machine.execRemoteTimeout tag s
  | .reductionEnable p ix v => Sys2Proof.Machine.execReductionEnable p ix v s
  | .reductionChunkTimeout ix => Sys2Proof.Machine.execReductionChunkTimeout ix s
  | .channelStall n => Sys2Proof.Machine.execChannelStall n s
  | .hostTimeout tag => Sys2Proof.Machine.execHostTimeout tag s
  | .rcfgWrite p r v => Sys2Proof.Machine.execRcfgWrite p r v s
  | .hidxWrite p r v => Sys2Proof.Machine.execHidxWrite p r v s
  | .didxWrite p r v => Sys2Proof.Machine.execDidxWrite p r v s
  | .dbpendClear p t w v => Sys2Proof.Machine.execDbpendClear p t w v s
  | .vctlWrite p n v => Sys2Proof.Machine.execVctlWrite p n v s
  | .updateOpen p => Sys2Proof.Machine.execUpdateOpen p s
  | .updateDataWrite p data ok => Sys2Proof.Machine.execUpdateDataWrite p data ok s
  | .finish p => Sys2Proof.Machine.execFinish p s
  | .finishComplete ok => Sys2Proof.Machine.execFinishComplete ok s
  | .updateAbort p => Sys2Proof.Machine.execUpdateAbort p s
  | .commit p => Sys2Proof.Machine.execCommit p s
  | .commitComplete fails => Sys2Proof.Machine.execCommitComplete fails s
  | .unlockChallengeRead p => Sys2Proof.Machine.execUnlockChallengeRead p s
  | .unlockTokenWrite p data => Sys2Proof.Machine.execUnlockTokenWrite p data s
  | .unlockScopeEffect => Sys2Proof.Machine.execUnlockScopeEffect s
  | .deviceReportBuild => Sys2Proof.Machine.execDeviceReportBuild s
  | .mailboxRead bad => Sys2Proof.Machine.execMailboxRead bad s
  | .mailboxWrite => Sys2Proof.Machine.execMailboxWrite s
  | .objectWrite src idx sub data => Sys2Proof.Machine.execObjectWrite src idx sub data s
  | .holdRelease p => Sys2Proof.Machine.execHoldRelease p s
  | .aonRestore p => Sys2Proof.Machine.execAonRestore p s
  | .descriptorQuery src pair => Sys2Proof.Machine.execDescriptorQuery src pair s
  | .discover mac => Sys2Proof.Machine.execDiscover mac s
  | .hello mac kindF cred qm nm => Sys2Proof.Machine.execHello mac kindF cred qm nm s
  | .proof mac sid key sig => Sys2Proof.Machine.execProof mac sid key sig s
  | .setupTimeout ix => Sys2Proof.Machine.execSetupTimeout ix s
  | .sbRead f bad => Sys2Proof.Machine.execSbRead f bad s
  | .sbWrite f flash => Sys2Proof.Machine.execSbWrite f flash s
  | .bread f bad => Sys2Proof.Machine.execBread f bad s
  | .bwrite f flash => Sys2Proof.Machine.execBwrite f flash s
  | .subscribe f => Sys2Proof.Machine.execSubscribe f s
  | .unsubscribe f => Sys2Proof.Machine.execUnsubscribe f s
  | .nop f => Sys2Proof.Machine.execNop f s
  | .subscriptionSample => Sys2Proof.Machine.execSubscriptionSample s
  | .close f => Sys2Proof.Machine.execClose f s
  | .sessionCloseWrite p sid => Sys2Proof.Machine.execSessionCloseWrite p sid s
  | .aliveTimeout ix => Sys2Proof.Machine.execAliveTimeout ix s
  | .governorTick temps => Sys2Proof.Machine.execGovernorTick temps s
  | .tickMidpoint => Sys2Proof.Machine.execTickMidpoint s
  | .cCoreCharge t => Sys2Proof.Machine.execCCoreCharge t s
  | .idleReturn t => Sys2Proof.Machine.execIdleReturn t s
  | .pmbusCurrentSample amps watts pkg die0 die1 => Sys2Proof.Machine.execPmbusCurrentSample amps watts pkg die0 die1 s
  | .pmbusStatusPoll mv faults => Sys2Proof.Machine.execPmbusStatusPoll mv faults s
  | .pmbAlert faults => Sys2Proof.Machine.execPmbAlert faults s
  | .droop t => Sys2Proof.Machine.execDroop t s
  | .droopHoldEnd t => Sys2Proof.Machine.execDroopHoldEnd t s
  | .timeMark p => Sys2Proof.Machine.execTimeMark p s
  | .timeMarkArrival ix => Sys2Proof.Machine.execTimeMarkArrival ix s
  | .powerOnReset pkgId sbNode sbEnrol => Sys2Proof.Machine.execPowerOnReset pkgId sbNode sbEnrol s
  | .resetNAssert => Sys2Proof.Machine.execResetNAssert s
  | .resetNRelease pkgId => Sys2Proof.Machine.execResetNRelease pkgId s
  | .coldResetRequest p => Sys2Proof.Machine.execColdResetRequest p s
  | .mainRailsWrite p b => Sys2Proof.Machine.execMainRailsWrite p b s
  | .pwrOkMainRise => Sys2Proof.Machine.execPwrOkMainRise s
  | .pwrOkMainFall rail => Sys2Proof.Machine.execPwrOkMainFall rail s
  | .railFaultRestart => Sys2Proof.Machine.execRailFaultRestart s
  | .selftestComplete r => Sys2Proof.Machine.execSelftestComplete r s
  | .stepTimeout step src unit_ => Sys2Proof.Machine.execStepTimeout step src unit_ s
  | .tripHoldoffEnd => Sys2Proof.Machine.execTripHoldoffEnd s
  | .referenceLoss r => Sys2Proof.Machine.execReferenceLoss r s
  | .alertAcknowledge p bits => Sys2Proof.Machine.execAlertAcknowledge p bits s
  | .clearHLog p => Sys2Proof.Machine.execClearHLog p s
  | .clearMLog p => Sys2Proof.Machine.execClearMLog p s
  | .setPointWrite p rail mv => Sys2Proof.Machine.execSetPointWrite p rail mv s
  | .traceEnableWrite p b => Sys2Proof.Machine.execTraceEnableWrite p b s
  | .trainingStart n => Sys2Proof.Machine.execTrainingStart n s
  | .vddAonLoss => Sys2Proof.Machine.execVddAonLoss s
  | .powerUpStepComplete fail unit_ => Sys2Proof.Machine.execPowerUpStepComplete fail unit_ s
  | .signatureComplete => Sys2Proof.Machine.execSignatureComplete s
  | .invalidationComplete t => Sys2Proof.Machine.execInvalidationComplete t s
  | .collarResponse t => Sys2Proof.Machine.execCollarResponse t s
  | .waitForEvent t => Sys2Proof.Machine.execWaitForEvent t s
  | .fcsrWrite t ra => Sys2Proof.Machine.execFcsrWrite t ra s
  | .frequencyChangeComplete t => Sys2Proof.Machine.execFrequencyChangeComplete t s

end Sys2Proof.Machine
end

