-- ==== Sys2Proof/Machine/Organisation.lean ====
section
/-!
DEFINITION. Machine/Organisation.lean: where the units stand: the islands with their rails and references (01 R26; 20 R436), the
stations of the HBM stacks (01 R21), the Rink's planes and what a message travels on (01 R22; 12 R286; 19 R428), and what the
open debug port reaches (21 R467; 02 R36).
-/
namespace Sys2Proof.Machine
open Sys2Proof

/-! ### Islands (Table 1.5) -/

/-- The kinds of island, each with what tells its instances apart. -/
inductive Island where
  | core (t : TileNo)
  | vector (t : TileNo)
  | array (t : TileNo)
  | rink (die : Fin 2)
  | lining (die : Fin 2)
  | hbmPhy (stack : Fin 8)
  | router
  | security
  | alwaysOn
  deriving DecidableEq, Repr

/-- The supplies of islands: the main rails in the order in which step 6 enables them (R436), and the two that stand before. -/
inductive Rail where
  | io | mem | hbm | ser | opt | core | vec | arr | sec | aon
  deriving DecidableEq, Repr

def Island.ref : Island → RefClock
  | .router => .ref156
  | .security | .alwaysOn => .ref25
  | .core _ | .vector _ | .array _ | .rink _ | .lining _ | .hbmPhy _ => .ref100

def Island.rails : Island → List Rail
  | .core _ => [.core]
  | .vector _ => [.vec]
  | .array _ => [.arr]
  | .rink _ => [.mem]
  | .lining _ => [.mem]
  | .hbmPhy _ => [.hbm, .mem]
  | .router => [.io, .ser, .opt]
  | .security => [.sec]
  | .alwaysOn => [.aon]

/-- The main rails in the order of R436. -/
def mainRails : List Rail := [.io, .mem, .hbm, .ser, .opt, .core, .vec, .arr]

/-- A rail is up: `boot.rails` of the main rails are enabled, in their order; the two others serve the management island. -/
def State.railUp (s : State) (r : Rail) : Bool :=
  if r ∈ mainRails then decide (r ∈ mainRails.take s.boot.rails) else s.boot.aonOk

/-- An island is powered: every rail of its row is up. -/
def State.islandUp (s : State) (i : Island) : Bool := i.rails.all s.railUp

/-! ### Stations (Table 1.3) -/

/-- The four tiles of a stack's stations, and the one that serves a channel: station s serves channels 8s to 8s + 7 (10 R244). -/
def stationTiles (stack : Nat) : List Nat :=
  let first := 96 * (stack / 4) + 48 * (stack % 2) + 11 * (stack / 2 % 2)
  (List.range 4).map (fun row => first + 12 * row)

def channelStation (stack channel : Nat) : Nat := (stationTiles stack).getD (channel / 8) 0

/-- The tile at whose router a packet for the home agent of a line enters or leaves the mesh. -/
def homeTile (a : Nat) : Nat :=
  match place a with
  | .hbm => channelStation (hbmStack a) (hbmChannel a)
  | _ => homeOf a

/-! ### Planes (R22, Table 12.3) -/

/-- The four planes, BULK with its two lanes (R428). -/
inductive Plane where
  | req | fwd | rsp
  | bulk (response : Bool)
  deriving DecidableEq, Repr

/-- The width of a plane in bytes per Rink cycle. -/
def Plane.width : Plane → Nat
  | .req | .fwd => 64
  | .rsp | .bulk _ => 256

/-- A message that the home takes from a requester, against one that goes to a requester or answers a snoop. -/
def MsgKind.isRequest : MsgKind → Bool
  | .rds | .rdx | .upg | .rdnc | .wrnc | .atom => true
  | _ => false

/-- Glide, or the host's data mover, issued the access that a message belongs to. The mover's requests are packets of BULK-Q (R345), which
the home serves without a message of its own. -/
def Msg.forMover (m : Msg) : Bool := decide (m.unit_ = 2)

/-- The plane of a message. -/
def Msg.plane (m : Msg) : Plane :=
  match m.kind with
  | .rdnc | .wrnc => if m.forMover then .bulk false else .req
  | .data | .cmp => if m.forMover then .bulk true else .rsp
  | .rds | .rdx | .upg | .atom => .req
  | .snps | .snpx | .snpcur | .snpinv | .inv => .fwd
  | .datax | .invack | .snprsp | .wb | .wback | .atomrsp | .err => .rsp

/-- The messages under way on a plane. A plane has buffers of its own: what waits on one holds nothing on another, and a message
of RSP is always accepted (its requester has reserved the room). -/
def State.onPlane (s : State) (p : Plane) : List Msg := s.coh.net.filter (fun m => decide (m.plane = p))

/-! ### The order of requests that arrive in one cycle (R288) -/

/-- The key of a request at its home: (node − P) mod 195, with the unit's place within a node (Table 12.5). -/
def State.orderKey (s : State) (m : Msg) : Nat :=
  (m.src + 195 - kvGet 0 s.coh.prio (homeOf (64 * m.line)) % 195) % 195 * 4 + m.unit_ % 4

/-- Of two requests that reach one home in one cycle, the first enters the ordering point before the second. Each command is a cycle of its
own, so a sender of commands that stand for one cycle gives them in this order (assumption 30). -/
def State.entersBefore (s : State) (a b : Msg) : Bool := decide (s.orderKey a < s.orderKey b)

/-! ### The debug port (R467) -/

/-- The port reaches a byte of memory: an unlock with scope bit 1 has opened it, and the granule is OPEN. -/
def State.debugReaches (s : State) (a : Nat) : Bool :=
  s.pins.debugOpen && (match granuleOf a with | some g => decide (entState (s.granule g) = 0) | none => false)

/-- What a scan of memory gives at an address, and what a write does: nothing outside OPEN granules. The balls carry no command of
the table (assumption 65). -/
def State.debugRead (s : State) (a : Nat) : Option Byte :=
  if s.debugReaches a then (s.lineNow (lineOf a)).map (fun b => b.getD (a % 64) 0) else none

def State.debugWrite (s : State) (a : Nat) (b : Byte) : State :=
  if s.debugReaches a then (s.cohWrite 0xFFFF a false [b]).2 else s

/-- What the key slots of a tile hold, put in place of a scan's own (R49): Glide's, its streams', and the keys of the rounding generators. -/
def Tile.keysOf (x y : Tile) : Tile :=
  { x with
    glide := { x.glide with offKey := y.glide.offKey, grpKey := y.glide.grpKey
                            streams := x.glide.streams.zipIdx.map (fun p => { p.1 with key := (tabGet ({} : GStream) y.glide.streams p.2).key }) }
    eng := { x.eng with keys := y.eng.keys } }

/-- A scan of a unit of an open tile (R36, R467): everything that the tile holds but its keys. -/
def State.debugTile (s : State) (t : Nat) : Option Tile :=
  if s.pins.debugOpen && decide (s.tag t = 0) then some ((s.tile t).keysOf {}) else none

/-- A scan that writes: the tile's state is replaced, but not its owner and its keys. -/
def State.debugSetTile (s : State) (t : Nat) (x : Tile) : State :=
  if s.pins.debugOpen && decide (s.tag t = 0) then s.onTile t (fun y => { x.keysOf y with owner := y.owner }) else s

end Sys2Proof.Machine
end

