-- ==== Sys2Proof/Machine/Protect.lean ====
section
/-!
DEFINITION. Machine/Protect.lean: how lines stand in the Lining and in the stacks: check symbols, encryption and MAC (10 R247 to
R249). Memory.bytes holds every line's plaintext, and Memory.bad what a check of it finds; what is stored follows from these, the
keys and the granule's state, and is not held a second time (assumption 75).
-/
namespace Sys2Proof.Machine
open Sys2Proof

/-- `n` bytes: what an uninterpreted function gives has its width. -/
def fit (n : Nat) (b : Bytes) : Bytes := (b ++ List.replicate n 0).take n

theorem fit_length (n : Nat) (b : Bytes) : (fit n b).length = n := by simp [fit]

/-- A codeword: the message symbols, then `n` check symbols. -/
def codeword (n : Nat) (m : Bytes) : Bytes := m ++ fit n (Crypto.rsCheck n m)

def isCodeword (n : Nat) (w : Bytes) : Bool := decide (codeword n (w.take (w.length - n)) = w)

/-- The words that differ from a word in the byte at one place. -/
def oneByteOff (w : Bytes) (i : Nat) : List Bytes := (List.range 256).map (fun v => w.set i (BitVec.ofNat 8 v))

/-- What a decoder makes of a word: a codeword as it is, a word with an error in one byte corrected, any other detected. -/
inductive Decoded where
  | clean (m : Bytes)
  | corrected (m : Bytes)
  | failed
  deriving DecidableEq, Repr

def rsDecode (n : Nat) (w : Bytes) : Decoded :=
  let msg := fun (x : Bytes) => x.take (x.length - n)
  if isCodeword n w then .clean (msg w)
  else match ((List.range w.length).flatMap (oneByteOff w)).find? (isCodeword n) with
    | some x => .corrected (msg x)
    | none => .failed

/-! ### Lining lines (R247) -/

/-- A Lining line as it is stored: 64 data bytes, in plaintext, and four check bytes. -/
def State.liningWord (s : State) (line : Nat) : Bytes := codeword 4 (memRead s.mem.bytes (64 * line) 64)

/-! ### HBM lines (R248, R249) -/

/-- The keys of a line by its granule's state: those of the Cloak's slot, those that it had where it is being destroyed (R46), the system's,
or none. -/
def State.lineKeys (s : State) (line : Nat) : Option (Nat × Nat) :=
  match granuleOf (64 * line) with
  | none => none
  | some g =>
    match entState (s.granule g) with
    | 1 =>
      let c := s.cloak (entOwner (s.granule g))
      (match c.memKey, c.macKey with
       | some m, some k => some (m.toNat, k.toNat)
       | _, _ => (s.mem.gone.find? (fun p => decide (p.1 = entOwner (s.granule g)))).map (fun p => (p.2.1.toNat, p.2.2.toNat)))
    | 3 => some (s.mem.sysMem.toNat, s.mem.sysMac.toNat)
    | _ => none

/-- The line MAC: the leftmost 40 bits of the CMAC over the line's address and its 64 ciphertext bytes. -/
def lineMac (key line : Nat) (ct : Bytes) : Nat := (Crypto.cmac key (natLe 8 (64 * line) ++ ct)).toNat / 2 ^ 88

/-- The 64 bytes stored of a line. -/
def State.hbmData (s : State) (line : Nat) : Bytes :=
  let b := memRead s.mem.bytes (64 * line) 64
  match s.lineKeys line with
  | some k => fit 64 (Crypto.xts k.1 (64 * line) b)
  | none => b

/-- The MAC field: zero in OPEN and SCRUBBING granules. -/
def State.macField (s : State) (line : Nat) : Nat :=
  match s.lineKeys line with
  | some k => lineMac k.2 line (s.hbmData line)
  | none => 0

/-- The codeword of an HBM line: 64 data bytes, 5 MAC bytes, and three check symbols. The order of the MAC's bytes in it is a
DESIGN CHOICE (assumption 75). -/
def State.hbmWord (s : State) (line : Nat) : Bytes := codeword 3 (s.hbmData line ++ natLe 5 (s.macField line))

/-- The side word (Table 10.4): the MAC in [63:24], the check symbols in [23:0]. -/
def State.sideWord (s : State) (line : Nat) : U64 :=
  BitVec.ofNat 64 (s.macField line * 2 ^ 24 + leNat ((s.hbmWord line).drop 69))

/-- What a read makes of the 72 bytes that it finds under a line's keys (R249, R251): the error, and the plaintext where there is
one. The MAC is checked after error correction. -/
def readHbmWord (keys : Option (Nat × Nat)) (line : Nat) (w : Bytes) : Option LineErr × Option Bytes :=
  let done := fun (e : Option LineErr) (m : Bytes) =>
    match keys with
    | none => (e, some (m.take 64))
    | some k =>
      if leNat (m.drop 64) = lineMac k.2 line (m.take 64) then (e, some (Crypto.xtsOpen k.1 (64 * line) (m.take 64)))
      else (some .mac, none)
  match rsDecode 3 w with
  | .clean m => done none m
  | .corrected m => done (some .correctable) m
  | .failed => (some .uncorrectable, none)

/-- The same of the 68 bytes of a Lining line. -/
def readLiningWord (w : Bytes) : Option LineErr × Option Bytes :=
  match rsDecode 4 w with
  | .clean m => (none, some m)
  | .corrected m => (some .correctable, some m)
  | .failed => (some .uncorrectable, none)

end Sys2Proof.Machine
end

