-- ==== Sys2Proof/Safety.lean ====
section
/-!
DEFINITION. Safety.lean: the terms in which the statements speak: a command completes, what a state keeps in every step, what a
command leaves as it is, and the conditions on a state under which a unit serves a command.
-/
namespace Sys2Proof.Machine
open Sys2Proof

/-- A command completes in a next state of which `p` holds. -/
def Completes (c : Instr) (s : State) (p : State → Prop) : Prop := ∃ u, exec c s = .next u ∧ p u

/-! ### What every step keeps -/

/-- Lining and HBM, the granule ownership table and the offload ledger are held in canonical form. -/
abbrev State.canonical (s : State) : Prop :=
  Memory.wf s.mem.bytes = true ∧ kvWf entOpen s.cloaks.granules = true ∧ kvWf ({} : LedgerEntry) s.hedom.ledger = true

/-- The four granules of S's own memory, the last of HBM (R438). -/
def systemGranules : List Nat := [425980, 425981, 425982, 425983]

/-- They are SYSTEM. -/
abbrev State.systemOk (s : State) : Prop := ∀ g ∈ systemGranules, entState (s.granule g) = 3

/-! ### What a command leaves as it is -/

/-- The state in which a write of an object that has a command of its own has been counted as an operation of the engine, and every mailbox
slot that waits has seen it (R397, R427); `clamped` says that the value stored differs from the one written. -/
def State.countedWrite (s : State) (p : Principal) (idx sub : Nat) (clamped : Bool) : State :=
  let st := s.writeCheck p idx sub
  (s.countOp p (if st = 0 ∧ clamped then stClamped else st) true).otherServed 66

/-- What an event changes of a C-core: it is recorded, and ends a wait (R420) or a TSYNC under way (R276). -/
abbrev CCore.toldOf (c d : CCore) : CCore := { c with events := d.events, waiting := d.waiting, tsync := d.tsync }

/-- What telling H by a vector and a C-core by an event changes: recorded events and waits of C-cores; the Hedom link with the
writes and the vectors that are on their way; and the count of flits sent (object 0x1E10.01). -/
abbrev State.told (s u : State) : Prop :=
  (∀ t, u.tile t = { s.tile t with core := (s.tile t).core.toldOf (u.tile t).core })
  ∧ (∀ n, n ≠ pairOf 0x1E10 1 → kvGet none u.objs n = kvGet none s.objs n)
  ∧ u.hedom = { s.hedom with link := u.hedom.link, nextTag := u.hedom.nextTag, txns := u.hedom.txns
                             vectors := u.hedom.vectors, waiting := u.hedom.waiting }

/-- Every tile but one is as it was. -/
abbrev State.otherTiles (s u : State) (t : Nat) : Prop := ∀ x, x ≠ t → u.tile x = s.tile x

/-- Only one tile changes. -/
abbrev State.onlyTile (s u : State) (t : Nat) : Prop := u = { s with tiles := u.tiles } ∧ s.otherTiles u t

/-- The array island of a tile, but for what the bundle operations under way have read of the Pocket (R72). -/
abbrev State.engSources (s u : State) (t : Nat) : Engine :=
  { (s.tile t).eng with seq := { (s.tile t).eng.seq with flight := (u.tile t).eng.seq.flight } }

/-- Of a tile's Pocket, and of what the bundle operations under way have read of it, and of nothing else, something changed. -/
abbrev State.pocketFrame (s u : State) (t : Nat) : Prop :=
  u.tile t = { s.tile t with pocket := (u.tile t).pocket, eng := s.engSources u t }
  ∧ (u.tile t).eng.seq.flight.length = (s.tile t).eng.seq.flight.length
  ∧ ((s.tile t).eng.seq.flight = [] → u.freeCtr = s.freeCtr) ∧ s.otherTiles u t ∧ u = { s with tiles := u.tiles, freeCtr := u.freeCtr }

/-- What an access in its home's order may change there (R288, R289): the priority of the homes, and data that an owner or the host has
supplied and that has been used. -/
abbrev Coherence.ordered (c d : Coherence) : Prop := d = { c with prio := d.prio, lent := d.lent, fetched := d.fetched }

/-- What looking up an address may change besides tile `t` (R251, R271 to R273): the Collars; the counts, errors and started bytes of
the lines that a walk reads, with their records, what announces them, and their place in the order of their homes. -/
abbrev State.lookFrame (s u : State) (t : Nat) : Prop :=
  (∀ x, x ≠ t → u.tile x = { s.tile x with core := (s.tile x).core.toldOf (u.tile x).core })
  ∧ u.mem = { s.mem with bad := u.mem.bad, started := u.mem.started } ∧ s.coh.ordered u.coh
  ∧ u = { s with tiles := u.tiles, collars := u.collars, mem := u.mem, objs := u.objs, logs := u.logs, hedom := u.hedom, coh := u.coh
                 gov := { s.gov with spent := u.gov.spent }, freeCtr := u.freeCtr }

/-- Every Cloak but one is as it was. -/
abbrev State.otherCloaks (s u : State) (k : Nat) : Prop := ∀ j, j ≠ k → u.cloak j = s.cloak j

/-- A charge of `n` has been met on the shared pool (R421). -/
def State.afterCharge (s : State) (n : Nat) : State := { s with gov := { s.gov with shared := s.gov.shared - n, spent := s.gov.spent + n } }

/-- Memory reads `b` from address `a` on and elsewhere what it read. -/
abbrev State.memAfter (s u : State) (a : Nat) (b : Bytes) : Prop :=
  ∀ x, memGet u.mem.bytes x = if a ≤ x ∧ x < a + b.length then b.getD (x - a) 0 else memGet s.mem.bytes x

/-! ### The command engine (02 R44) -/

/-- The device is READY, no Cloak command waits, and none runs for Cloak `k`. -/
abbrev State.engineFree (s : State) (k : Nat) : Prop :=
  s.boot.st = .ready ∧ s.cloaks.queue = [] ∧ (s.cloak k).run = none ∧ 1 ≤ k ∧ k ≤ 64

/-- A command runs for Cloak `k`, and no further command waits. -/
abbrev State.cloakRuns (s : State) (k : Nat) (r : CloakRun) : Prop :=
  s.cloaks.queue = [] ∧ (s.cloak k).run = some r ∧ r.q.id = k ∧ 1 ≤ k ∧ k ≤ 64

/-- Table 2.4: the states that accept a command of H or M, or of C. -/
def acceptedIn : CloakCmd → List CloakSt
  | .create _ _ => [.free]
  | .addTiles _ => [.building]
  | .addGranules _ => [.building, .ready, .running, .stopped]
  | .load _ _ _ => [.building]
  | .finalise => [.building]
  | .start => [.ready]
  | .stop => [.running, .stopped]
  | .resume => [.stopped]
  | .destroy => [.building, .ready, .running, .stopped, .destroying]
  | .reclaim _ => [.ready, .running, .stopped]
  | _ => [.running]

/-- The issuer, the Cloak ID and the arguments that a Cloak command carries. -/
def cloakCommand : Instr → Option QCmd
  | .create p id share hybrid => some ⟨p, id.toNat, .create share.toNat hybrid⟩
  | .addTiles p id map => some ⟨p, id.toNat, .addTiles map⟩
  | .addGranules p id list => some ⟨p, id.toNat, .addGranules list⟩
  | .load p id src len dst => some ⟨p, id.toNat, .load src.toNat len.toNat dst.toNat⟩
  | .finalise p id => some ⟨p, id.toNat, .finalise⟩
  | .start p id => some ⟨p, id.toNat, .start⟩
  | .stop p id => some ⟨p, id.toNat, .stop⟩
  | .resume p id => some ⟨p, id.toNat, .resume⟩
  | .destroy p id => some ⟨p, id.toNat, .destroy⟩
  | .reclaimGranules p id list => some ⟨p, id.toNat, .reclaim list⟩
  | .exit p id => some ⟨p, id.toNat, .exit⟩
  | .releaseGranules p id list => some ⟨p, id.toNat, .release list⟩
  | .rotateKey p id => some ⟨p, id.toNat, .rotateKey⟩
  | .report p id rdata dst => some ⟨p, id.toNat, .report rdata dst.toNat⟩
  | .getseal p id dst => some ⟨p, id.toNat, .getseal dst.toNat⟩
  | .lalloc p id count => some ⟨p, id.toNat, .lalloc count.toNat⟩
  | .lfree p id first count => some ⟨p, id.toNat, .lfree first.toNat count.toNat⟩
  | .lread p id index dst => some ⟨p, id.toNat, .lread index.toNat dst.toNat⟩
  | _ => none

/-- The commands that can change who owns a granule or a tile: the Cloak commands and the completions by which S carries them out;
the resets, rail events and readings that can trip the device, which start every Cloak and tile anew; and the ways to the dictionary, through which cold reset and
the main rails are commanded (objects 0x2200.04 and 0x2200.05). -/
def changesOwnership : Instr → Bool
  | .tileAssignmentComplete _ => true
  | .ownerChangeComplete _ => true
  | .loadCopyComplete _ _ _ => true
  | .cloakHalted _ => true
  | .destroySequenceComplete _ => true
  | .signatureComplete => true
  | .powerOnReset _ _ _ => true
  | .coldResetRequest _ => true
  | .mainRailsWrite _ _ => true
  | .resetNAssert => true
  | .pwrOkMainFall _ => true
  | .tripHoldoffEnd => true
  | .vddAonLoss => true
  | .pmbAlert _ => true
  | .pmbusCurrentSample _ _ _ _ _ => true
  | .pmbusStatusPoll _ _ => true
  | .governorTick _ => true
  | .stackTemperatureReading _ => true
  | .mailboxRead _ => true
  | .mailboxWrite => true
  | .objectWrite _ _ _ _ => true
  | .sbRead _ _ => true
  | .sbWrite _ _ => true
  | .bread _ _ => true
  | .bwrite _ _ => true
  | .subscribe _ => true
  | .unsubscribe _ => true
  | .nop _ => true
  | c => (cloakCommand c).isSome

/-- The state after a command that only wrote its completion record: `r` its result code, `n` its count. -/
abbrev State.onlyRecord (s u : State) (q : QCmd) (r n : Nat) : Prop :=
  u.cloaks = { s.cloaks with completions := s.cloaks.completions ++ [⟨q.by_, q.cmd.opcode, q.id, r, (s.cloak q.id).state, n⟩] }
  ∧ s.told u ∧ u = { s with cloaks := u.cloaks, tiles := u.tiles, objs := u.objs, hedom := u.hedom, freeCtr := u.freeCtr }

/-- The state after the first granules of an ownership change were taken: ownership and translations changed, and the cached copies of
the granules' lines are being recalled (R291), the host's too. -/
abbrev State.began (s u : State) (k : Nat) : Prop :=
  s.otherCloaks u k ∧ (∀ t, u.tile t = { s.tile t with xlat := (u.tile t).xlat }) ∧ u.coh.filter = s.coh.filter
  ∧ (∀ p ∈ s.coh.filter, (granuleOf (64 * p.1)).any (fun g => decide (u.granule g ≠ s.granule g)) = true → (s.filterOf p.1).holders ≠ [] →
      (u.handOf p.1).isSome = true ∨ u.coh.wait.any (fun m => decide (m.line = p.1)) = true)
  ∧ u = { s with cloaks := u.cloaks, tiles := u.tiles, collars := u.collars, coh := u.coh, objs := u.objs, hedom := u.hedom, freeCtr := u.freeCtr }

/-! ### Memory lines -/

/-- Nothing is under way for a line, no L2, write-back buffer or host cache holds a copy of it, no data of it is put by, and it has no
error and meets none. -/
abbrev State.lineQuiet (s : State) (line : Nat) : Prop :=
  s.lineBusy line = false ∧ (∀ t, t < 192 → (s.l2 t line).st = .i) ∧ s.filterOf line = {} ∧ lineErr s.mem line = none
  ∧ s.writeFails line = false ∧ (s.coh.lent.any (fun p => decide (p.1 = line))) = false

/-- So it is for every line that `n` bytes from `a` touch, and no cap holds a write of them back (R254). -/
abbrev State.quietAt (s : State) (a n : Nat) : Prop :=
  (∀ line ∈ rangeFrom (lineOf a) (linesOf a n), s.lineQuiet line) ∧ s.heldByCap (writeLoad a n (List.replicate n true)) = false

/-! ### Engine bundles (03 R78 to R88) -/

/-- The tile, the slot and the operation code of a matrix command (Table 3.10). -/
def matrixCode : Instr → Option (TileNo × Fin 2 × Nat)
  | .mma t slot => some (t, slot, 1)
  | .mmz t slot => some (t, slot, 2)
  | .mmav t slot => some (t, slot, 3)
  | .acrd t slot => some (t, slot, 4)
  | .acz t slot => some (t, slot, 5)
  | .acsv t slot => some (t, slot, 6)
  | .acld t slot => some (t, slot, 7)
  | _ => none

/-- The tile and the operation code of a Tailor command (Table 7.3). -/
def tailorCode : Instr → Option (TileNo × Nat)
  | .tld t => some (t, 0x01)
  | .tst t => some (t, 0x02)
  | .tsts t => some (t, 0x03)
  | .tstat t => some (t, 0x04)
  | .tzero t => some (t, 0x05)
  | .tfkey t => some (t, 0x06)
  | .add t => some (t, 0x10)
  | .sub t => some (t, 0x11)
  | .mul t => some (t, 0x12)
  | .max t => some (t, 0x13)
  | .min t => some (t, 0x14)
  | .muli t => some (t, 0x15)
  | .addi t => some (t, 0x16)
  | .mask t => some (t, 0x17)
  | .fma t => some (t, 0x18)
  | .fms t => some (t, 0x19)
  | .sel t => some (t, 0x1A)
  | .clamp t => some (t, 0x1B)
  | .cvt t => some (t, 0x20)
  | .cvtl t => some (t, 0x21)
  | .cvts t => some (t, 0x22)
  | .cvtss t => some (t, 0x23)
  | .bdec t => some (t, 0x28)
  | .benc t => some (t, 0x29)
  | .exp t => some (t, 0x30)
  | .exp2 t => some (t, 0x31)
  | .log t => some (t, 0x32)
  | .log2 t => some (t, 0x33)
  | .rcp t => some (t, 0x34)
  | .sqrt t => some (t, 0x35)
  | .rsqrt t => some (t, 0x36)
  | .tanh t => some (t, 0x37)
  | .sigm t => some (t, 0x38)
  | .gelu t => some (t, 0x39)
  | .silu t => some (t, 0x3A)
  | .smax t => some (t, 0x3B)
  | .smst t => some (t, 0x3C)
  | .smnm t => some (t, 0x3D)
  | .badd t => some (t, 0x40)
  | .bsub t => some (t, 0x41)
  | .bmul t => some (t, 0x42)
  | .bmax t => some (t, 0x43)
  | .bmin t => some (t, 0x44)
  | .bfma t => some (t, 0x45)
  | .bcpy t => some (t, 0x46)
  | .rsum t => some (t, 0x50)
  | .rmax t => some (t, 0x51)
  | .rmin t => some (t, 0x52)
  | .rssq t => some (t, 0x53)
  | .ramax t => some (t, 0x54)
  | .rargmax t => some (t, 0x55)
  | .rsuma t => some (t, 0x56)
  | .rmaxa t => some (t, 0x57)
  | .csum t => some (t, 0x60)
  | .cmax t => some (t, 0x61)
  | .cmin t => some (t, 0x62)
  | .cssq t => some (t, 0x63)
  | .camax t => some (t, 0x64)
  | .cargmax t => some (t, 0x65)
  | .csuma t => some (t, 0x66)
  | .cmaxa t => some (t, 0x67)
  | .tailorCmp t => some (t, 0x70)
  | .xpd t => some (t, 0x71)
  | .cmps t => some (t, 0x72)
  | .xpdl t => some (t, 0x73)
  | .optcfg t => some (t, 0x80)
  | .opta t => some (t, 0x81)
  | .optbegin t => some (t, 0x82)
  | .optend t => some (t, 0x83)
  | .optsv t => some (t, 0x84)
  | .optb t => some (t, 0x88)
  | .flu t => some (t, 0x90)
  | .flk t => some (t, 0x91)
  | .fld t => some (t, 0x92)
  | _ => none

/-- The tile and the operation code of a control command (Table 3.14). -/
def controlCode : Instr → Option (TileNo × Nat)
  | .skip t => some (t, 1)
  | .br t => some (t, 2)
  | .loop t => some (t, 3)
  | .brz t => some (t, 4)
  | .brnz t => some (t, 5)
  | .qset t => some (t, 6)
  | .qadd t => some (t, 7)
  | .gwait t => some (t, 8)
  | .gwaitd t => some (t, 9)
  | .controlBflush t => some (t, 10)
  | .endStream t => some (t, 11)
  | _ => none

/-- The head bundle `b` of tile `t` holds operation `op` in slot `k`, which has not taken effect; the bundle begins, or has begun,
to issue: `s1` is the state then, `st` its stream, `i` its index, and `x` says what of it has taken effect. -/
abbrev State.slotOpens (s : State) (t k op : Nat) (b : BitVec 256) (s1 : State) (st : Stream) (i : Nat) (x : Issuing) : Prop :=
  s.engineRuns t = true ∧ (headBundle (s.island t)).map (·.2.2) = some b ∧ slotOp b k = op
  ∧ (match (s.tile t).eng.seq.issuing with | some y => y.done.getLsbD k | none => false) = false
  ∧ s.beginHead t = .open_ s1 ∧ headBundle (s1.island t) = some (st, i, b) ∧ (s1.tile t).eng.seq.issuing = some x

/-- Slot `k` has taken effect, the island being `y` after it: where every slot of the bundle has now, the bundle leaves the queue,
and bundles of no-operations after it issue. -/
abbrev State.slotTook (s1 u : State) (t k : Nat) (b : BitVec 256) (x : Issuing) (y : Isl) : Prop :=
  if allDone b (x.done ||| BitVec.ofNat 5 (2 ^ k)) then
    u = (((s1.putIsland t y).onIsland t (fun z => finishBundle s1.freeCtr (slotDone k z))).issueNops t 4).tick1
  else u = (s1.putIsland t (slotDone k y)).tick1

/-- A q register given a value. -/
def Isl.withQ (i : Isl) (r v : Nat) : Isl := { i with eng := { i.eng with seq := { i.eng.seq with q := qSet i.eng.seq.q r v } } }

/-- No uncorrectable error that an operation has met waits to fault the stream, unless a bundle is still issuing (R77). -/
abbrev State.calm (s : State) (t : Nat) : Prop := (s.island t).met = true → (s.tile t).eng.seq.issuing.isSome = true

/-- The sequencer's next stream is `r`, and `rest` wait behind it. -/
abbrev State.nextStream (s : State) (t : Nat) (r : Stream) (rest : List Stream) : Prop :=
  r.started = false ∧ ((s.tile t).eng.seq.run = none ∧ (s.tile t).eng.seq.queue = r :: rest
    ∨ (s.tile t).eng.seq.run = some r ∧ r.stopping = false ∧ (s.tile t).eng.seq.queue = rest)

/-- The running stream `r` has ended (R75 to R77, R115): nothing is under way, its record is the newest of the eight, FULL bits are
cleared, DONEGATE has counted and EVENT is raised. -/
abbrev State.streamEnded (s u : State) (t : Nat) (r : Stream) (faulted : Bool) (cause : Nat) (bundle : U16) : Prop :=
  let q := (u.tile t).eng.seq
  q.run = none ∧ q.flight = [] ∧ q.prefetch = [] ∧ q.records = (⟨r.ticket, faulted, cause, bundle⟩ :: (s.tile t).eng.seq.records).take 8
  ∧ (∀ b ∈ (u.tile t).eng.staging, b.full = false)
  ∧ (u.tile t).core.events = (s.tile t).core.events ++ (if r.event then [.engine r.ticket] else [])
  ∧ (u.tile t).glide.gates = (if r.doneGate < 64 then gateUp (s.tile t).glide.gates r.doneGate 1 else (s.tile t).glide.gates)
  ∧ s.otherTiles u t ∧ u = { s with tiles := u.tiles, freeCtr := s.freeCtr + 1 }

/-- Table 3.14: what a control operation of the bundle at cycle `t` and index `i` does to the island. `w` is its slot, and `v` the
value of q[Q] before the bundle. -/
def controlEffect (op w v t i : Nat) (y : Isl) : Isl :=
  match op with
  | 1 => { y with eng := { y.eng with seq := { y.eng.seq with issueAt := t + 1 + cValue w } } }
  | 2 => takeBranch (cTarget w) t y
  | 3 => if v = 0 then y else if v = 1 then y.withQ (cQ w) 0 else takeBranch (cTarget w) t (y.withQ (cQ w) (v - 1))
  | 4 => if v = 0 then takeBranch (cTarget w) t y else y
  | 5 => if v = 0 then y else takeBranch (cTarget w) t y
  | 6 => y.withQ (cQ w) (cImm w)
  | 7 => y.withQ (cQ w) ((v + cImm w) % 2 ^ 32)
  | 10 => takeBranch (i + 1) t y
  | 11 => { y with eng := { y.eng with seq := { y.eng.seq with run := y.eng.seq.run.map (fun r => { r with ended := true }) } } }
  | _ => y

/-- Occupancy and latency of a matrix operation in fast mode (Table 3.15), by its slot. -/
def matrixTable (w : Nat) : Nat × Nat :=
  if mMop w = 5 then (2, 2) else if mMop w = 4 then (4, 6) else if 6 ≤ mMop w then (120, 122)
  else if mFmtA w = 7 then (768, 776)
  else if mFmtA w = 3 ∨ mFmtA w = 4 then (128, 136)
  else if mFmtA w = 5 ∨ mFmtA w = 6 ∨ mFmtB w = 5 ∨ mFmtB w = 6 then (32, 42)
  else (32, 40)

/-- Those of a Tailor operation in fast mode (Table 3.15), by its operation code. -/
def tailorTable (op : Nat) : Nat × Nat :=
  if op ≤ 0x17 then (4, 6) else if op ≤ 0x1F then (4, 8) else if op ≤ 0x27 then (4, 7) else if op ≤ 0x2F then (4, 8)
  else if op ≤ 0x3F then (8, 14) else if op ≤ 0x4F then (4, 6) else if op ≤ 0x6F then (4, 10) else if op ≤ 0x7F then (4, 9)
  else if op ≤ 0x87 then (8, 12) else if op ≤ 0x8F then (16, 20) else (4, 8)

/-! ### Scalar accesses (03 R69 to R71; 12 R294, R295) -/

/-- The state in which a scalar access is performed: its address has been looked up, with what that installs and counts (R273). -/
def State.looked (s : State) (t : Nat) (user : Bool) (k : XKind) (va : U64) : State :=
  s.translated t .core (s.tile t).xlat.tctx (!user) k va

/-- A scalar access of `n` bytes lies in one line, no earlier vector access meets it, and its address leads to `x`. -/
abbrev State.coreTakes (s : State) (t : Nat) (user : Bool) (k : XKind) (va : U64) (n : Nat) (x : Side) : Prop :=
  s.vectorHolds t va n = false ∧ va.toNat % 64 + n ≤ 64
  ∧ (s.looked t user k va).resolve t .core (s.tile t).xlat.tctx (!user) k va n = x

/-- The C-core has no access of a line outstanding, and the line is not being written back. -/
abbrev State.lineFree (s : State) (t line : Nat) : Prop := s.lineOut t line = [] ∧ s.wbOf t line = none

/-- An atomic of Table 12.7, naturally aligned, that nothing holds back, and whose address leads to `x`. -/
abbrev State.atomGoes (s : State) (t : Nat) (user : Bool) (major : Nat) (func : BitVec 11) (rd ra rb : Fin 32) (op : AtomOp) (size : Nat)
    (x : Side) : Prop :=
  atomOf (major * 2 ^ 26 + func.toNat) = some (op, size) ∧ s.coreReads t (atomRegs rd.val ra.val rb.val size) [] = true
  ∧ s.fenced? t 3 = false ∧ s.fenced? t 2 = false ∧ (size = 16 → rd.val % 2 = 0 ∧ rb.val % 2 = 0) ∧ (s.xreg t ra.val).toNat % size = 0
  ∧ (func.getLsbD 3 = true → s.loadsDue t = false ∧ s.storesDue t = false)
  ∧ s.coreTakes t user .atomic (s.xreg t ra.val) size x

/-! ### Vectors (04) -/

/-- The tile and the function code of a fixed-point command (Table 4.6). -/
def fixedCode : Instr → Option (TileNo × Nat)
  | .fxadds t => some (t, 0)
  | .fxaddsu t => some (t, 1)
  | .fxsubs t => some (t, 2)
  | .fxsubsu t => some (t, 3)
  | .fxhadd t => some (t, 4)
  | .fxhaddu t => some (t, 5)
  | .fxhsub t => some (t, 6)
  | .fxhsubu t => some (t, 7)
  | .fxshra t => some (t, 8)
  | .fxshrl t => some (t, 9)
  | .fxshls t => some (t, 10)
  | .fxshlsu t => some (t, 11)
  | .fxnarrow t => some (t, 12)
  | .fxnarrowu t => some (t, 13)
  | .fxmulq t => some (t, 14)
  | .fxmacq t => some (t, 15)
  | _ => none

/-- The tile and the operation of a reduction command (R105). -/
def reduceCode : Instr → Option (TileNo × RedOp)
  | .vfredsum t => some (t, .sum)
  | .vfredmax t => some (t, .max)
  | .vfredmin t => some (t, .min)
  | .vfredosum t => some (t, .osum)
  | _ => none

/-- The tile, the direction (a store) and the mode of a vector memory command (R110). -/
def vmemCode : Instr → Option (TileNo × Bool × VMode)
  | .vloadUnit t => some (t, false, .unit)
  | .vloadStrided t => some (t, false, .strided)
  | .vloadIndexed t => some (t, false, .indexed)
  | .vloadFaultFirst t => some (t, false, .faultFirst)
  | .vstoreUnit t => some (t, true, .unit)
  | .vstoreStrided t => some (t, true, .strided)
  | .vstoreIndexed t => some (t, true, .indexed)
  | _ => none

/-- The vector queue runs with `e` at its head, and the tile's account meets a charge of the vector class. -/
abbrev State.vheadPaid (s : State) (t : Nat) (e : VEntry) (cost : Nat) : Prop :=
  s.vhead t = some e ∧ cost ≤ (s.tile t).acct.vector + (s.tile t).acct.unreserved

/-- A vector instruction has executed: it has left the queue, was counted and paid for, and nothing changed but vector and scalar
registers (which a statement names). -/
abbrev State.vectorDone (s u : State) (t cost : Nat) : Prop :=
  (u.tile t).lvu = { (s.tile t).lvu with
    v := (u.tile t).lvu.v, p := (u.tile t).lvu.p, vcsr := (u.tile t).lvu.vcsr, vl := (u.tile t).lvu.vl, vtype := (u.tile t).lvu.vtype
    released := (u.tile t).lvu.released, queue := (s.tile t).lvu.queue.tail, begun := false, cur := 0, part := 0, buf := [], waiting := false
    asked := 0, cnt := tabSet 0 (s.tile t).lvu.cnt 0 (Nat.min (tabGet 0 (s.tile t).lvu.cnt 0 + 1) (2 ^ 64 - 1)) }
  ∧ u.tile t = { s.tile t with lvu := (u.tile t).lvu, acct := (s.tile t).acct.take .vector cost
                               core := { (s.tile t).core with x := (u.tile t).core.x, f := (u.tile t).core.f } }
  ∧ s.otherTiles u t ∧ u = { s with tiles := u.tiles, freeCtr := s.freeCtr + 1, gov := { s.gov with spent := s.gov.spent + cost } }

/-- Scalar registers are as they were. -/
abbrev State.sameScalars (s u : State) (t : Nat) : Prop := (u.tile t).core.x = (s.tile t).core.x ∧ (u.tile t).core.f = (s.tile t).core.f

/-- Vector length and type are as they were. -/
abbrev State.sameVectors (s u : State) (t : Nat) : Prop := (u.tile t).lvu.vl = (s.tile t).lvu.vl ∧ (u.tile t).lvu.vtype = (s.tile t).lvu.vtype

/-- An instruction wrote `n` elements of width `w` of vector register `vd` (R99): the active ones with `f`. -/
abbrev Lvu.wrote (x y : Lvu) (vd w n pg : Nat) (z : Bool) (f : Nat → Nat) : Prop :=
  (∀ k, k < n → elemOf (y.vreg vd) w k =
    if k < x.len ∧ pg.testBit k = true then f k % 2 ^ w else if k < x.len ∧ z = true then 0 else elemOf (x.vreg vd) w k)
  ∧ (∀ r, r ≠ vd → y.vreg r = x.vreg r) ∧ y.p = x.p ∧ y.vl = x.vl ∧ y.vtype = x.vtype

/-- An instruction wrote the first `n` bits of predicate register `vd` (R100); p0 is never written. -/
abbrev Lvu.wroteP (x y : Lvu) (vd n pg : Nat) (z : Bool) (f : Nat → Bool) : Prop :=
  (∀ k, k < 1024 → (y.pred vd).testBit k =
    if vd = 0 then true
    else if n ≤ k then (x.pred vd).testBit k
    else if k < x.len ∧ pg.testBit k = true then f k else if k < x.len ∧ z = true then false else (x.pred vd).testBit k)
  ∧ (∀ r, r ≠ vd → y.pred r = x.pred r) ∧ y.v = x.v ∧ y.vl = x.vl ∧ y.vtype = x.vtype

/-- A register was sent to staging buffer `b`, which is FULL, and Gate `g` was counted: both are on their way to the sequencer in one
transfer (R79), and the count to the groups. -/
abbrev State.staged (s u : State) (t b g : Nat) (v : BitVec 8192) : Prop :=
  (u.tile t).eng = { (s.tile t).eng with staging := tabSet {} (s.tile t).eng.staging b { tabGet {} (s.tile t).eng.staging b with full := true } }
  ∧ (u.tile t).glide = (s.tile t).glide.gateAdd g 1
  ∧ (u.tile t).seam = (s.tile t).seam ++ [.staged b (natLe 1024 v.toNat) g 1, .grpGate g false 1]

/-- The Seam holds a transfer: its island sleeps (R27). -/
def Tile.seamHolds (x : Tile) : SeamMsg → Bool
  | .grpGate _ _ _ => decide (x.lvu.power ≠ .active)
  | _ => x.acct.arrayAsleep

/-- The occupancy of a memory instruction, and the charge of its requests (Tables 4.8, 19.4). -/
def State.vmemNeeds (s : State) (t : Nat) (e : VEntry) (k : VKind) : Nat × Nat :=
  match k with
  | .load m => s.vmemCost t e m false 0
  | .store m => s.vmemCost t e m true 0
  | _ => (0, 0)

/-- A memory instruction of a kind begins at the head of the vector queue: no older scalar store is due, and its charges are met. -/
abbrev State.vmemStarts (s : State) (t : Nat) (e : VEntry) (k : VKind) : Prop :=
  s.vhead t = some e ∧ e.i.kind = k ∧ (s.tile t).lvu.waiting = false ∧ (s.tile t).core.storeQ = [] ∧ (s.tile t).lvu.begun = false
  ∧ (s.tile t).lvu.cur = 0 ∧ (s.tile t).lvu.part = 0 ∧ (s.tile t).lvu.buf = [] ∧ (s.tile t).lvu.rev = false ∧ (s.tile t).lvu.len ≤ vlmax (s.tile t).lvu.sew
  ∧ 2 * (s.vmemNeeds t e k).1 + (s.vmemNeeds t e k).2 ≤ (s.tile t).acct.unreserved

/-- The state in which a memory instruction has begun: charged and counted. -/
def State.vmemBegun (s : State) (t : Nat) (e : VEntry) (k : VKind) : State :=
  (((s.charge t .vector (2 * (s.vmemNeeds t e k).1)).2.charge t .memory (s.vmemNeeds t e k).2).2).onLvu t
    (fun x => { x.count 0 1 with begun := true })

/-- Element `k` of a memory instruction lies in the Pocket window, within a line. -/
abbrev State.elemInPocket (s : State) (t : Nat) (e : VEntry) (m : VMode) (k : Nat) : Prop :=
  0x1FFFFFFFFE00000 ≤ (elemVa (s.tile t).lvu e m k).toNat ∧ (elemVa (s.tile t).lvu e m k).toNat < 2 ^ 57
  ∧ (elemVa (s.tile t).lvu e m k).toNat % 64 + (s.tile t).lvu.sew / 8 ≤ 64

/-- What a memory instruction of the LVU whose elements lie in the Pocket may change. -/
abbrev State.vmemFrame (s u : State) (t : Nat) : Prop :=
  u.tile t = { s.tile t with lvu := (u.tile t).lvu, acct := (u.tile t).acct, pocket := (u.tile t).pocket, eng := s.engSources u t }
  ∧ (u.tile t).eng.seq.flight.length = (s.tile t).eng.seq.flight.length
  ∧ s.otherTiles u t ∧ u = { s with tiles := u.tiles, freeCtr := u.freeCtr, gov := { s.gov with spent := u.gov.spent } }

/-! ### Thread groups (08) -/

/-- The state in which a group's instruction is checked: its address has been looked up, with what that installs and counts (R202,
R273). -/
def State.fetched (s : State) (t : Nat) (x : Group) (b : Block) : State := s.translated t .lvu b.tctx b.kernel .fetch x.pc

/-- The quarter's cycles of a group's arithmetic (R195): two for FP64, also as a conversion's format. -/
def groupOcc (o : GArith) : Nat :=
  match o with
  | .fp _ (.cvt a b) => if a = .f64 ∨ b = .f64 then 2 else 1
  | .fp f _ => if f = .f64 then 2 else 1
  | _ => 1

/-- What the end of a block changes besides its tile (R201): whoever waits for an answer on behalf of one of its groups is told
nothing. A free value is used. -/
abbrev State.blockEnded (s u : State) (t : Nat) (b : Block) : Prop :=
  let gone := fun (x : RTxn) => match x.user with
    | .group k g => if k = t ∧ b.slots.contains g = true then { x with user := .gone t (s.tag t) } else x
    | _ => x
  s.otherTiles u t ∧ u.fab = { s.fab with txns := s.fab.txns.map gone } ∧ u.hedom = { s.hedom with txns := s.hedom.txns.map gone }
  ∧ u = { s with tiles := u.tiles, fab := u.fab, hedom := u.hedom, freeCtr := s.freeCtr + 1 }

/-- Group `g` (of block `b`, in state `x`) issues an instruction of `occ` quarter cycles that names registers `regs`: its fetch
neither faults nor waits, its registers exist, and the tile's account meets its charge. -/
abbrev State.groupIssues (s : State) (t g : Nat) (x : Group) (b : Block) (occ : Nat) (regs : List Nat) : Prop :=
  s.gready t g = some (x, b) ∧ x.mem = none ∧ ((s.fetched t x b).resolve t .lvu b.tctx b.kernel .fetch x.pc 8).faults = false
  ∧ ((s.fetched t x b).resolve t .lvu b.tctx b.kernel .fetch x.pc 8).walking? = none
  ∧ (∀ r ∈ regs, r < 8 * b.nregu) ∧ 2 * occ ≤ ((s.fetched t x b).tile t).acct.vector + ((s.fetched t x b).tile t).acct.unreserved

/-- What every group instruction changes besides its group: the count of instructions and the tile's account, and what a statement
names of the tile. -/
abbrev State.groupFrame (s u : State) (t g occ : Nat) : Prop :=
  (∀ h, h ≠ g → u.group t h = s.group t h)
  ∧ tabGet 0 (u.tile t).grp.cnt 1 = Nat.min (tabGet 0 (s.tile t).grp.cnt 1 + 1) (2 ^ 64 - 1)
  ∧ (u.tile t).acct = (s.tile t).acct.take .vector (2 * occ)
  ∧ s.otherTiles u t ∧ u = { s with tiles := u.tiles, freeCtr := s.freeCtr + 1, gov := { s.gov with spent := s.gov.spent + 2 * occ } }

/-- A group instruction has executed, the group being `y` after it; nothing else of the tile changed. -/
abbrev State.groupDone (s u : State) (t g occ : Nat) (y : Group) : Prop :=
  u.group t g = some y ∧ s.groupFrame u t g occ
  ∧ u.tile t = { s.tile t with grp := { (s.tile t).grp with slots := (u.tile t).grp.slots, cnt := (u.tile t).grp.cnt }, acct := (u.tile t).acct }

/-- A group instruction has parked its group, which is `y` but for its park record `p` (R211, R212): its block holds the cause, and
its event is raised where the block asks for it. -/
abbrev State.groupParked (s u : State) (t g occ : Nat) (b : Block) (y : Group) (p : Park) : Prop :=
  u.group t g = some { y with park := some p } ∧ s.groupFrame u t g occ
  ∧ (u.tile t).grp.resident = (s.tile t).grp.resident.map (fun k => if k.ticket = b.ticket then { k with cause := p.cause } else k)
  ∧ tabGet 0 (u.tile t).grp.cnt 2 = Nat.min (tabGet 0 (s.tile t).grp.cnt 2 + 1) (2 ^ 64 - 1)
  ∧ (u.tile t).core = (if b.event then { (s.tile t).core with events := (s.tile t).core.events ++ [.group b.ticket], waiting := false, tsync := false } else (s.tile t).core)
  ∧ u.tile t = { s.tile t with acct := (u.tile t).acct, core := (u.tile t).core
                               grp := { (s.tile t).grp with slots := (u.tile t).grp.slots, cnt := (u.tile t).grp.cnt, resident := (u.tile t).grp.resident } }

/-- Registers `r` to `r + n - 1` of a group were written in its running threads with `f`, and nothing else of its registers. -/
abbrev Group.wrote (x y : Group) (r n : Nat) (f : Nat → Nat) : Prop :=
  (∀ l, l < 64 → y.lanes r l n = if x.running.getLsbD l then f l % 2 ^ (32 * n) else x.lanes r l n)
  ∧ (∀ k, (k < r ∨ r + n ≤ k) → y.reg k = x.reg k)

/-- The group goes on at `pc` with new registers; the rest of it is as it was. -/
abbrev Group.wentOn (x y : Group) (pc : U64) : Prop := y = { x with regs := y.regs, pc := pc }

/-- A memory instruction of group `g` begins: as `groupIssues`, with a form that exists and the charge of its lines met. -/
abbrev State.groupMemory (s : State) (t g : Nat) (x : Group) (b : Block) (o : GMemOp) (k : XKind) : Prop :=
  s.groupIssues t g x b 1 (gmemRegs o) ∧ gmemOk o = true
  ∧ 2 + (s.fetched t x b).linesCharge t .lvu b.tctx b.kernel k (x.lines o 0) ≤ ((s.fetched t x b).tile t).acct.unreserved

/-- The state in which it has begun: charged and counted, with its first lane to be performed. -/
def State.gmemBegun (s : State) (t g : Nat) (x : Group) (b : Block) (o : GMemOp) (k : XKind) : State :=
  let s1 := s.fetched t x b
  let s2 := (((s1.charge t .vector 2).2).charge t .memory (s1.linesCharge t .lvu b.tctx b.kernel k (x.lines o 0))).2
  (s2.onGrp t (fun y => y.count 1 1)).onGroup t g (fun x => { x with mem := some { op := o, lane := 0 } })

/-- Every running thread's access lies in the Pocket window, within a line, and naturally aligned where it is an atomic. -/
abbrev Group.inPocket (x : Group) (o : GMemOp) : Prop :=
  ∀ l, l < 64 → x.running.getLsbD l = true →
    0x1FFFFFFFFE00000 ≤ (x.va o l).toNat ∧ (x.va o l).toNat < 2 ^ 57 ∧ (x.va o l).toNat % 64 + gsize o.kind ≤ 64
    ∧ (isAtomicOp o = true → (x.va o l).toNat % gsize o.kind = 0)

/-- The Pocket after the atomics of some threads in order (R203). -/
def atomicsOn (op : AtomOp) (n : Nat) (at_ v cmp : Nat → Nat) (ls : List Nat) (m : Mem) : Mem :=
  ls.foldl (fun m l => ringWrite 2097152 m (at_ l) (natLe n (atomNew op n (leNat (ringRead 2097152 m (at_ l) n)) (v l) (cmp l)))) m

/-- What a memory instruction of a group whose accesses lie in the Pocket may change; `n` atomics are counted (R300). -/
abbrev State.groupMemFrame (s u : State) (t g n : Nat) : Prop :=
  (∀ h, h ≠ g → u.group t h = s.group t h)
  ∧ (∀ i, tabGet 0 (u.tile t).xlat.cnt i = if i = 3 ∧ n ≠ 0 then Nat.min (tabGet 0 (s.tile t).xlat.cnt 3 + n) (2 ^ 64 - 1) else tabGet 0 (s.tile t).xlat.cnt i)
  ∧ u.tile t = { s.tile t with
      grp := { (s.tile t).grp with slots := (u.tile t).grp.slots, cnt := (u.tile t).grp.cnt }
      xlat := { (s.tile t).xlat with cnt := (u.tile t).xlat.cnt }
      acct := (u.tile t).acct, pocket := (u.tile t).pocket, eng := s.engSources u t }
  ∧ (u.tile t).eng.seq.flight.length = (s.tile t).eng.seq.flight.length ∧ ((s.tile t).eng.seq.flight = [] → u.freeCtr = s.freeCtr + 1)
  ∧ s.otherTiles u t ∧ u = { s with tiles := u.tiles, freeCtr := u.freeCtr, gov := { s.gov with spent := u.gov.spent } }

/-- The state in which Glide reads for the next request of tile `j` of a plain stream that reads memory: the request is charged and in
rotation, and its address has been looked up. -/
def State.glideReads (s : State) (t i : Nat) (j : TileJob) : State :=
  (((s.charge t .memory (s.jobCharge t i j)).2.onGlide t (fun g => { g with rr := i })).onJob t i j.k
    (fun f => { f with next := j.next + requestLen (s.stream t i).desc j j.next })).sideTranslated t i true .read j.k j.next

/-- Only Stitch unit `k` of a tile changed. -/
abbrev State.onlyStitch (s u : State) (t k : Nat) : Prop :=
  (∀ j, j < 8 → j ≠ k → tabGet {} (u.tile t).glide.stitch j = tabGet {} (s.tile t).glide.stitch j)
  ∧ u.tile t = { s.tile t with glide := { (s.tile t).glide with stitch := (u.tile t).glide.stitch } } ∧ s.onlyTile u t

/-! ### Coherence (12) -/

/-- The oldest message of a kind for a line that satisfies `p` is `m`; `rest` is what else is under way. No message is for the
host. -/
abbrev State.arrives (s : State) (k : MsgKind) (line : Nat) (p : Msg → Bool) (m : Msg) (rest : List Msg) : Prop :=
  takeMsg (fun m => decide (m.kind = k) && decide (m.line = line) && p m) s.coh.net = some (m, rest)
  ∧ (∀ x ∈ rest, x.dst ≠ 192)

/-- The home's snoop filter has room for the line (R285). -/
abbrev State.filterRoom (s : State) (line : Nat) : Prop :=
  (s.coh.filter.filter (fun p => decide (homeOf (64 * p.1) = homeOf (64 * line)))).length < 16

/-- No earlier request waits for a line. -/
abbrev State.noneWaits (s : State) (line : Nat) : Prop := ∀ x ∈ s.coh.wait, x.line ≠ line

/-- What serving a request at its home may change. -/
abbrev State.homeFrame (s u : State) : Prop :=
  u = { s with coh := u.coh, objs := u.objs, mem := u.mem, freeCtr := s.freeCtr + 1 } ∧ u.mem.bad = s.mem.bad
  ∧ (∀ i, i ≠ pairOf 0x1920 1 → (∀ j, 1 ≤ j → j ≤ 12 → i ≠ pairOf 0x1920 j ∧ i ≠ pairOf 0x1921 j) → kvGet none u.objs i = kvGet none s.objs i)

/-- What a message to a cache may change besides its tile. -/
abbrev State.cacheFrame (s u : State) (t : Nat) (rest : List Msg) : Prop :=
  s.otherTiles u t ∧ u.coh = { s.coh with net := rest } ∧ u = { s with tiles := u.tiles, coh := u.coh, freeCtr := u.freeCtr }

/-! ### Links (14 R311 to R322; 15 R342 to R344) -/

/-- The dictionary object that holds counter `i` of a link: 0 flits sent, 1 received, 2 corrected symbols, 3 uncorrectable
codewords, 4 replays, 5 retrains, 6 credit audit failures. -/
def linkPair (l : Link) (i : Nat) : Nat := match l with | .port p => pairOf (0x1C50 + i) (p.val + 1) | .hedom => pairOf 0x1E10 (i + 1)

def State.linkCount (s : State) (l : Link) (i : Nat) : Nat :=
  match l with | .port p => s.obj (0x1C50 + i) (p.val + 1) | .hedom => s.obj 0x1E10 (i + 1)

/-- The greatest value of that counter. -/
def linkMax (l : Link) (i : Nat) : Nat := match l with | .port _ => (if i ≤ 4 then 2 ^ 64 - 1 else 2 ^ 32 - 1) | .hedom => 2 ^ 64 - 1

/-- Counter `i` of a link, where it stands within its type's range, rose by `f i`, saturating. -/
abbrev State.linkCounted (s u : State) (l : Link) (f : Nat → Nat) : Prop :=
  ∀ i, i < 7 → s.linkCount l i ≤ linkMax l i → u.linkCount l i = Nat.min (s.linkCount l i + f i) (linkMax l i)

/-- Every link but one is as it was. -/
abbrev State.otherLinks (s u : State) (l : Link) : Prop :=
  (∀ n : Fin 32, l ≠ .port n → u.port n.val = s.port n.val) ∧ (l ≠ .hedom → u.hedom.link = s.hedom.link)

/-- Only one link and its counters changed. -/
abbrev State.linkFrame (s u : State) (l : Link) : Prop :=
  s.otherLinks u l ∧ (∀ n, (∀ i, i < 7 → n ≠ linkPair l i) → kvGet none u.objs n = kvGet none s.objs n)
  ∧ u = { s with fab := { s.fab with ports := u.fab.ports }, hedom := { s.hedom with link := u.hedom.link }, objs := u.objs, freeCtr := u.freeCtr }

/-- The state that a write `v` of its control object gives a link (Table 14.2): 0 enabled, 1 disabled, 2 retrain now. -/
def controlled (hedom lost : Bool) (v : Nat) (st : PortSt) : PortSt :=
  let start := if hedom then PortSt.training else .down
  match st with
  | .failed => if v = 2 ∧ lost = false then start else .failed
  | .disabled => if v = 0 then .down else if v = 1 then .disabled else start
  | .up => if v = 0 then .up else if v = 1 then .disabled else if hedom then .training else .retraining
  | .down => if v = 0 then .down else if v = 1 then .disabled else start
  | x => if v = 1 then .disabled else x

/-- A link that left for another state holds nothing, in its input buffer neither, and has no keys. -/
abbrev Port.empty (x : Port) (st : PortSt) : Prop :=
  x.st = st ∧ x.replay = [] ∧ x.out = [] ∧ x.parts = [] ∧ x.tails = [] ∧ x.buf = [] ∧ x.back = [] ∧ x.tx = none ∧ x.rx = none ∧ x.step = 0

/-- No packet that waits to leave by a port holds room in an input buffer, which it would give back as it leaves. -/
def Port.light (x : Port) : Bool := x.freed.isEmpty && x.out.all (fun p => p.held.isEmpty)

/-- A link has nothing to send, and no room to give back. -/
def Port.still (x : Port) : Bool := x.out.isEmpty && x.tails.isEmpty && x.freed.isEmpty && !(x.back.any (fun c => decide (0 < c)))

/-- A port's link keys are not due for a change, nor after `n` flits more (R337); the Hedom link has none. -/
def State.keyFresh (s : State) (l : Link) (n : Nat) : Bool :=
  match l with
  | .port p => (s.port p.val).asked || (decide ((s.port p.val).sinceKey + n < 2 ^ 40) && decide (s.gov.uptime - (s.port p.val).keyAt < 8640000000))
  | .hedom => true

/-- A link has sent its replay buffer again, in order, as new transmissions (R313, R315); nothing else of it changed. -/
abbrev LinkKind.resent (k : LinkKind) (x y : Port) : Prop :=
  y = { x with rtry := false, news := false, wire := y.wire, back := y.back, sinceKey := x.sinceKey + x.replay.length
               tx := x.tx.map (fun t => { t with cnt := t.cnt + BitVec.ofNat 64 x.replay.length }) }
  ∧ y.wire.length = x.wire.length + x.replay.length
  ∧ (y.wire.drop x.wire.length).map (fun g => (g.seq, g.vc, g.cls, g.fpo, g.ack, g.rtry)) =
      x.replay.map (fun q => (BitVec.ofNat 16 q.seq, Fin.ofNat 8 q.vc, q.cls, Fin.ofNat 64 q.fpo, BitVec.ofNat 16 x.ack, false))
  ∧ (k.fabric = false → (y.wire.drop x.wire.length).map (fun g => g.body) = x.replay.map (fun q => q.body))

/-- The newest record of the H log and of the M log has this class, source and unit number, and was counted in its class. -/
abbrev State.recorded (s u : State) (cls src munit : Nat) : Prop :=
  (u.logs.h.recs.head?.map (fun r => (r.cls.toNat, r.src.toNat, r.munit.toNat))) = some (cls, src, munit)
  ∧ (u.logs.m.recs.head?.map (fun r => (r.cls.toNat, r.src.toNat, r.munit.toNat))) = some (cls, src, munit)
  ∧ tabGet 0 u.logs.byClass cls = Nat.min (tabGet 0 s.logs.byClass cls + 1) (2 ^ 64 - 1)

/-! ### Packets of the fabric and of the host (14 R316 to R335; 15 R346 to R353) -/

/-- What this package answers a request with (R316, R317): opcode, status and data. -/
def State.answerTo (s : State) (p : Packet) (opc status : Nat) (data : Bytes) : Packet :=
  { dpid := p.spid, spid := s.pkg, opc := opc, len := data.length, tag := p.tag, hops := s.obj 0x1C00 6, addr := status, data := data, bulk := p.bulk }

/-- Port `q` with packet `a` put into its queue: a hop less, and in class 1 behind a dateline (R316, R322). -/
def State.queued (s : State) (q : Nat) (a : Packet) : Port :=
  { s.port q with out := (s.port q).out ++ [{ a with hops := a.hops - 1, cls := a.cls || decide (s.obj 0x1C03 (q + 1) = 1) }] }

/-- Packet `a` was put on its way through port `q`, which sent what credits allow (R321); its flits were counted, and no other port
changed. -/
abbrev State.leaves (s u : State) (q : Nat) (a : Packet) : Prop :=
  u.port q = { Port.pump fabricLink (s.queued q a) with freed := [] }
  ∧ u.obj 0x1C50 (q + 1) = Nat.min (s.obj 0x1C50 (q + 1) + Port.sentSince (s.port q) (u.port q)) (2 ^ 64 - 1)
  ∧ (∀ r, r < 32 → r ≠ q → u.port r = s.port r)

/-- Packet `a` finds its way through port `q` (R323 to R325). No packet that waits there holds room in an input buffer, and no
change of the port's key falls due (R337). -/
abbrev State.way (s : State) (q : Nat) (a : Packet) : Prop :=
  s.egress a = some q ∧ a.hops ≠ 0 ∧ a.dpid ≠ s.pkg ∧ a.held = [] ∧ q < 32 ∧ (s.port q).light = true
  ∧ ((s.port q).asked || (decide ((s.port q).sinceKey + Port.waiting fabricLink (s.queued q a) < 2 ^ 40) && decide (s.gov.uptime - (s.port q).keyAt < 8640000000))) = true

/-- The status of a request of the open domain that does not pass the checks of R327, 0 where it passes. -/
def State.openCheck (s : State) (p : Packet) : Nat :=
  if s.boot.st ≠ .ready ∨ s.obj 0x1C00 2 ≠ 1 then 7
  else if !inMemory p.addr p.span then 1
  else if s.obj 0x1C00 5 ≠ 1 ∨ p.sealed then 6
  else if !s.reachesAll 0 p.addr p.span then 1
  else if p.opc ≠ 2 then 0
  else match s.findRed s.pkg p.addr p.len 0 [1, 2, 3, 4] with
    | none => 0
    | some _ => if p.addr % 256 ≠ 0 ∨ p.len % 256 ≠ 0 then 8 else if (s.findRed s.pkg p.addr p.len 0 [2, 3, 4]).isSome then 9 else 0

/-- What a packet of the fabric may change in every other part of the state. -/
abbrev State.packetFrame (s u : State) : Prop :=
  u = { s with fab := u.fab, objs := u.objs, logs := u.logs, hedom := u.hedom, tiles := u.tiles, mem := u.mem
               coh := { s.coh with filter := u.coh.filter, prio := u.coh.prio }, freeCtr := s.freeCtr + 1 }
  ∧ (∀ t, u.tile t = { s.tile t with core := (s.tile t).core.toldOf (u.tile t).core })

/-- Objects other than the counters of the fabric and of the Hedom link are as they were. -/
abbrev State.onlyFabricCounts (s u : State) : Prop :=
  ∀ n, (∀ q, q < 32 → n ≠ pairOf 0x1C50 (q + 1)) → n ≠ pairOf 0x1C60 1 → n ≠ pairOf 0x1C60 2 → n ≠ pairOf 0x1C60 3 → n ≠ pairOf 0x1B03 1 → n ≠ pairOf 0x1E10 1 →
    kvGet none u.objs n = kvGet none s.objs n

/-- Objects other than those and the counters of memory traffic are as they were (R253, R293). -/
abbrev State.onlyServedCounts (s u : State) : Prop :=
  ∀ n, (∀ q, q < 32 → n ≠ pairOf 0x1C50 (q + 1)) → n ≠ pairOf 0x1C60 1 → n ≠ pairOf 0x1C60 2 → n ≠ pairOf 0x1C60 3 → n ≠ pairOf 0x1B03 1 → n ≠ pairOf 0x1E10 1 →
    (∀ j, j < 64 → n ≠ pairOf 0x1920 j ∧ n ≠ pairOf 0x1921 j ∧ n ≠ pairOf 0x1B01 j) → kvGet none u.objs n = kvGet none s.objs n

/-- A response of the host's side: the packet that answers request `p`. -/
abbrev hostAnswerTo (p : Packet) (opc status : Nat) (data : Bytes) : Packet :=
  { opc := opc, len := data.length, tag := p.tag, addr := p.addr, data := data, status := status, bulk := p.bulk }

/-- Packet `a` was given to the Hedom link and sent as far as credits allow; request `p` was taken from the inbox, and the room that it took
in the input buffer given back. -/
abbrev State.repliedHost (s u : State) (p a : Packet) : Prop :=
  u.hedom.link = Port.pump hedomLink { (s.dropHost p).hedom.link with out := s.hedom.link.out ++ [a] } ∧ u.hedom.inbox = s.hedom.inbox.erase p

/-- The oldest request of the host with opcode `opc` is `p`, it stands first on its channel, and no earlier write holds it (R346). -/
abbrev State.hostAsks (s : State) (opc : Nat) (p : Packet) : Prop := s.nextHost opc = some p ∧ s.hostOrdered p = true

/-- The opcode of the host's request that a command serves (Table 15.5); node 192 is the host. -/
def hostOpcode : Instr → Option Nat
  | .rds n _ => if n = 192 then some 1 else none
  | .rdx n _ => if n = 192 then some 2 else none
  | .upg n _ => if n = 192 then some 3 else none
  | .rdnc n _ => if n = 192 then some 4 else none
  | .wrnc n _ => if n = 192 then some 5 else none
  | .atom n _ => if n = 192 then some 6 else none
  | _ => none

/-- The fault that a request's read of its line finds. -/
def requestFound : Instr → Option LineFault
  | .rds _ a => a.found
  | .rdx _ a => a.found
  | .upg _ a => a.found
  | .rdnc _ a => a.found
  | .wrnc _ a => a.found
  | .atom _ a => a.found
  | _ => none

/-- Vector `v` is sent as an event write, if it is not masked and no write of the host's memory is due; it waits for those writes, or
becomes pending (R353). -/
abbrev State.vectorRaised (s u : State) (v : Nat) : Prop :=
  let x := tabGet ({} : Vec) s.hedom.vectors v
  if x.mask then (tabGet ({} : Vec) u.hedom.vectors v).pend = true ∧ u.hedom.txns = s.hedom.txns ∧ u.hedom.waiting = s.hedom.waiting
  else if s.hostWritesDue then u.hedom.waiting = s.hedom.waiting ++ [v] ∧ u.hedom.txns = s.hedom.txns
  else u.hedom.txns = s.hedom.txns ++ [⟨s.hedom.nextTag, .vector v, 5, x.vaddr.toNat, 4, natLe 4 x.data.toNat, 0, 0⟩] ∧ u.hedom.waiting = s.hedom.waiting

/-- Only registers behind the link window, recorded events of tile `t` and what a vector takes changed. -/
abbrev State.ringFrame (s u : State) (t : Nat) : Prop :=
  (∀ n, n ≠ pairOf 0x1E10 1 → kvGet none u.objs n = kvGet none s.objs n)
  ∧ u.tile t = { s.tile t with core := (s.tile t).core.toldOf (u.tile t).core }
  ∧ s.otherTiles u t ∧ u.hedom.inbox = s.hedom.inbox ∧ u.hedom.refusals = s.hedom.refusals ∧ u.hedom.ledger = s.hedom.ledger
  ∧ u = { s with tiles := u.tiles, objs := u.objs, hedom := u.hedom }

/-! ### The dictionary mailbox (17 R391 to R396) -/

/-- The mailbox serves slot `n` next, whose operation is `c` (Table 17.3), for principal `p`. -/
abbrev State.mailRuns (s : State) (n : Nat) (c : U64) (p : Principal) : Prop :=
  s.dict.xfer = none ∧ (s.mslot n).busy = some c ∧ s.boot.aonOk = true ∧ s.boot.dead = false ∧ p = (if n ≤ 1 then .h else .c (n - 1)) ∧ n < 66

abbrev State.mailNext (s : State) (n : Nat) (c : U64) (p : Principal) : Prop := s.nextSlot = some n ∧ s.mailRuns n c p

/-- A request for the buffer of the mailbox at local address `a` was given to the host link (tag, opcode, host address, bytes), and
the operation awaits its answer; no slot and no object but the link's counters changed. -/
abbrev State.mailSent (s u : State) (opc a len : Nat) (d : Bytes) (x : Xfer) : Prop :=
  u.hedom.txns = s.hedom.txns ++ [⟨s.hedom.nextTag, .mailbox, opc, a - 0x40000000000 + s.obj 0x1E00 3, len, d, 0, 0⟩]
  ∧ u.dict = { s.dict with xfer := some x }
  ∧ (∀ i, i ≠ pairOf 0x1E10 1 → kvGet none u.objs i = kvGet none s.objs i)
  ∧ u = { s with dict := u.dict, objs := u.objs, hedom := u.hedom, freeCtr := s.freeCtr + 1 }

/-- An operation of a source other than the mailbox slots but `n` was served: a slot that waits counts it, up to eight (R427). -/
abbrev State.slotsSaw (s u : State) (n : Nat) : Prop :=
  ∀ m, m ≠ n → u.mslot m = if (s.mslot m).busy.isSome then { s.mslot m with seen := Nat.min ((s.mslot m).seen + 1) 8 } else s.mslot m

/-- The operation of slot `n` ended with a status, a length and DATA; its issuer was told, and the mailbox's counters (object 0x0002)
and the Hedom link's count are the only objects that changed, but for those given. -/
abbrev State.mailDone (s u : State) (n : Nat) (c : U64) (st len : Nat) (data : Bytes) (own : List Nat) : Prop :=
  u.mslot n = { s.mslot n with busy := none, seq := BitVec.ofNat 8 (field c.toNat 55 48), status := BitVec.ofNat 8 st, len := BitVec.ofNat 16 len, data := data }
  ∧ s.slotsSaw u n
  ∧ (if n = 0 then u.tiles = s.tiles ∧ (s.obj 0x1E03 4 < 2048 → s.vectorRaised u (s.obj 0x1E03 4))
    else s.otherTiles u (s.mslot n).by_ ∧ (u.tile (s.mslot n).by_).core.events = (s.tile (s.mslot n).by_).core.events ++ [.mailbox])
  ∧ (∀ i, (∀ j, 1 ≤ j → j ≤ 6 → i ≠ pairOf 2 j) → i ≠ pairOf 0x1E10 1 → i ∉ own → kvGet none u.objs i = kvGet none s.objs i)
  ∧ u.dict = { s.dict with slots := u.dict.slots, lastC := if 2 ≤ n then n - 1 else s.dict.lastC }

/-- The counters of bytes that the stacks of HBM have read and written (objects 0x1920 and 0x1921). -/
def memCounts : List Nat := (List.range 64).flatMap (fun j => [pairOf 0x1920 j, pairOf 0x1921 j])

/-- Numeric objects that a write only stores, clamped: fabric settings, DATELINE, the host timeout, the device's own vectors. -/
def plainObject (idx sub : Nat) : Bool :=
  (decide (idx = 0x1C00) && decide (4 ≤ sub ∧ sub ≤ 8)) || decide (idx = 0x1C03) || (decide (idx = 0x1E00) && decide (sub = 6)) || decide (idx = 0x1E03)

/-! ### The side-band port (18) -/

/-- The port runs (R399, R441). -/
abbrev State.portRuns (s : State) : Prop := s.boot.aonOk = true ∧ s.boot.dead = false

/-- A protected frame of session `x` in slot `i` (R401). -/
def State.protectedFrame (s : State) (i : Nat) (x : Session) (type : Nat) (cnt : U32) (body : Bytes) : SbFrame :=
  let nonce := x.saltOut.toNat * 2 ^ 64 + cnt.toNat
  let aad := s.frameAad x.mac s.fuses.mac type x.sid.toNat cnt.toNat body.length
  { slot := i, dst := x.mac, type := type, sid := x.sid, cnt := cnt
    body := Crypto.gcmSeal x.keyOut.toNat nonce aad body, tag := Crypto.gcmTag x.keyOut.toNat nonce aad body }

/-- An unprotected frame. -/
def plainFrame (dst : BitVec 48) (type : Nat) (sid : U16) (body : Bytes) : SbFrame :=
  { slot := 5, type := type, sid := sid, cnt := 0, body := body, dst := dst }

/-- These frames were sent, where the PHY transmits (R463). -/
abbrev State.sbSends (s u : State) (l : List SbFrame) : Prop := u.sb.sent = s.sb.sent ++ (if s.pins.refLost.getLsbD 2 then [] else l)

/-- Of the counts of object 0x2005, count `j` rose by one (saturating) where `f j`. -/
abbrev State.sbCounted (s u : State) (f : Nat → Bool) : Prop :=
  ∀ j, 1 ≤ j → j ≤ 6 → u.obj 0x2005 j = if f j then Nat.min (s.obj 0x2005 j + 1) (2 ^ 64 - 1) else s.obj 0x2005 j

/-- Other sessions, and objects other than 0x2005 and what `own` names, are as they were. -/
abbrev State.sbFrame (s u : State) (i : Nat) (own : Nat → Bool) : Prop :=
  (∀ j, j ≠ i → u.session j = s.session j)
  ∧ (∀ n, (∀ j, 1 ≤ j → j ≤ 6 → n ≠ pairOf 0x2005 j) → own n = false → kvGet none u.objs n = kvGet none s.objs n)

/-- Request body `b` of frame `f` asks session `i` for operation `op`, in order, and the counters can go on (R405). -/
abbrev State.inOrder (s : State) (i : Nat) (f : SbIn) (b : Bytes) (op : Nat) : Prop :=
  12 ≤ b.length ∧ leField b 0 1 = op ∧ f.cnt = (s.session i).lastCnt + 1 ∧ f.cnt ≠ 0xFFFFFFFF ∧ f.cnt ≠ 0 ∧ (s.session i).txCnt.toNat < 2 ^ 32 - 2

/-- The request was answered (R405, R407): session `i`, otherwise `y`, keeps the response that was sent. -/
abbrev State.responded (s u : State) (i : Nat) (y : Session) (op st : Nat) (b : Bytes) (off total : Nat) (data : Bytes) : Prop :=
  let body := sbBody op st (leField b 2 2) (leField b 4 1) off total 0 data
  u.session i = { y with lastCnt := y.lastCnt + 1, idle := s.gov.uptime, txCnt := y.txCnt + 1, stored := some body }
  ∧ s.sbSends u [s.protectedFrame i y 0x21 (y.txCnt + 1) body] ∧ s.sbCounted u (fun j => decide (j = 1))

/-- The operation counts of object 0x0002. -/
def servedPair (n : Nat) : Bool := decide (pairOf 2 1 ≤ n ∧ n ≤ pairOf 2 6)

/-- The operation that a request command carries out (Table 18.3). -/
def requestOp : Instr → Option (SbIn × Nat)
  | .sbRead f _ => some (f, 1)
  | .sbWrite f _ => some (f, 2)
  | .bread f _ => some (f, 3)
  | .bwrite f _ => some (f, 4)
  | .subscribe f => some (f, 5)
  | .unsubscribe f => some (f, 6)
  | .nop f => some (f, 7)
  | _ => none


/-! ### Resets and start-up (20 R433 to R449) -/

/-- Table 20.1: of the dictionary only values with Persist aon or fuse outlast a cold reset, and the PKG_ID straps show. -/
abbrev State.keptAcross (s u : State) : Prop :=
  (∀ n, n ≠ pairOf 0x1C00 1 → n ≠ pairOf 0x2300 1 →
    kvGet none u.objs n = match catRow (n / 256) (n % 256) with | some r => if r.persist = 0 then none else kvGet none s.objs n | none => none)
  ∧ u.obj 0x1C00 1 = s.pins.pkgId.toNat ∧ u.obj 0x2300 1 = s.pins.pkgId.toNat

/-- What a cold reset leaves of a device whose F session is not open (Table 20.1): the always-on store, HOLD, fuses, flash and
side-band sessions are kept, and all else has its reset value. The power-up sequence has begun, or waits for RESET_N. -/
abbrev State.coldOf (s u : State) (held : Bool) : Prop :=
  s.keptAcross u
  ∧ u.boot = { st := .boot, step := 1, starts := if held then s.boot.starts else Nat.min (s.boot.starts + 1) (2 ^ 32 - 1), held := held
               aonOk := s.boot.aonOk }
  ∧ u = { State.reset with
      ident := { sGrade := s.ident.sGrade, sort := s.ident.sort }, objs := u.objs, fuses := s.fuses, freeCtr := s.freeCtr, pending := s.pending
      fw := { flash := s.fw.flash, fingerprint := s.fw.fingerprint, signing := s.fw.signing.filter SignJob.isChallenge }, sb := s.sb, gov := { uptime := s.gov.uptime }, boot := u.boot
      dict := { hold := u.dict.hold, creds := s.dict.creds, parity := s.dict.parity }
      pins := { pkgId := s.pins.pkgId, sbNode := s.pins.sbNode, sbEnrol := s.pins.sbEnrol, uart := s.pins.uart
                setPending := s.pins.setPending, vrails := s.pins.vrails } }

/-- The firmware is as it was, but for signatures of commands that have been aborted (R378). -/
abbrev State.fwKept (s u : State) : Prop :=
  u.fw = { s.fw with signing := u.fw.signing } ∧ ((∀ k, 1 ≤ k → k ≤ 64 → (s.cloak k).run = none) → u.fw.signing = s.fw.signing)

/-- Snowplough is announced with record `r`: in the logs, by the alert, and on the UART. -/
abbrev State.snowFace (s u : State) (r : U32) : Prop :=
  u.boot.st = .snowplough ∧ u.boot.record = r ∧ u.boot.alert.getLsbD 6 = true ∧ s.recorded u 9 (frSrc r) 255
  ∧ u.pins.uart.getLast? = some ("LAP96 SNOWPLOUGH " ++ String.ofList (digits 16 8 r.toNat))

/-- Entry to Snowplough (R445): the record, its alert and FATAL error, the UART's line, and the end of every Cloak. -/
abbrev State.snowed (s u : State) (r : U32) : Prop :=
  s.snowFace u r ∧ (∀ k, k ∈ s.liveCloaks → (u.cloak k).state = .destroying)

end Sys2Proof.Machine
end

