-- ==== Sys2Proof/Certificates/Slice0/Obligations.lean ====
section
/-!
DEFINITION. Certificates/Slice0/Obligations.lean: the statements for the provers, by the parts of the device: steps and their
invariants; Cloaks; the C-core; engines; the LVU; groups; Glide; translation; coherence; links; identity; the dictionary; energy;
start-up.
-/
open Sys2Proof Sys2Proof.Machine

/-! ### Steps, and what every step keeps -/

/-- A step of a state with the command c at the front of its queue is exec of c on the state with the queue's rest; with an
empty queue the block idles (the model's choice, assumption 8). -/
def Obligations.StepRunsFront : Prop :=
  ∀ s : State,
    (∀ (c : Instr) (r : List Instr), s.pending = c :: r → step s = exec c { s with pending := r })
    ∧ (s.pending = [] → step s = .next s)

/-- Every command, in every state, ends in a next state (none is refused and none faults), and no command adds or removes a
waiting command. -/
def Obligations.EveryCommandCompletes : Prop :=
  ∀ (c : Instr) (s : State), Completes c s (fun u => u.pending = s.pending)

/-- From every state in which Lining and HBM, the granule ownership table and the offload ledger are in canonical form (keys
strictly rising, no entry equal to what an unlisted one reads as), a step gives such a state. -/
def Obligations.StepKeepsCanonical : Prop :=
  ∀ s u : State, s.canonical → step s = .next u → u.canonical

/-- From every state in which the last four granules of HBM, S's own memory, are SYSTEM, a step gives such a state: no principal
can ever assign them. -/
def Obligations.StepKeepsSystemGranules : Prop :=
  ∀ s u : State, s.systemOk → step s = .next u → u.systemOk

/-- The state after a power-on reset is in canonical form and has its four SYSTEM granules (their numbers, the last granule of
each stack of CD1, are the model's reading of R438, assumption 51). -/
def Obligations.ResetHasInvariants : Prop :=
  State.reset.canonical ∧ State.reset.systemOk

/-- Whatever command runs, if it is none of the Cloak commands, none of the completions by which S carries them out, none of the
resets and rail events, and none of the readings that can trip the device, then no granule's entry and no tile's owner changes.
-/
def Obligations.OwnershipOnlyByCloakCommands : Prop :=
  ∀ (c : Instr) (s u : State), changesOwnership c = false → exec c s = .next u →
    (∀ g, u.granule g = s.granule g) ∧ ∀ t, (u.tile t).owner = (s.tile t).owner

/-- After a power-on reset every Cloak is FREE without keys, every tile belongs to the open domain, coarsening is not active, no
error is logged, every ledger entry is FREE at version 0, and no Gate, stream or block is in use. -/
def Obligations.ResetValues : Prop :=
  (∀ k, (State.reset.cloak k).state = .free ∧ (State.reset.cloak k).root = none ∧ (State.reset.cloak k).memKey = none)
  ∧ (∀ t, (State.reset.tile t).owner = 0 ∧ (State.reset.tile t).grp.resident = [] ∧ (State.reset.tile t).eng.seq.run = none
      ∧ (State.reset.tile t).glide.streams = [] ∧ (State.reset.tile t).glide.gates = [])
  ∧ State.reset.cloaks.coarse.active = false ∧ State.reset.logs.h.recs = [] ∧ State.reset.logs.m.recs = []
  ∧ (∀ i, State.reset.ledger i = {}) ∧ State.reset.pending = []

/-! ### Cloaks (02, 15 R356, 16 R368 R369) -/

/-- CREATE by H on a FREE Cloak ID, while the engine is free and no field-service unlock has occurred: the Cloak is BUILDING
with its hybrid flag, no measurement and no load, its root, memory, MAC and offload keys exist and its request key does not, its
token share is the clamped one, coarsening is active, and one completion record with OK is written. Other Cloaks, ownership,
tiles and memory stay. The model's choices in it: assumptions 1, 4. -/
def Obligations.CreateBuildsCloak : Prop :=
  ∀ (s : State) (id : BitVec 8) (share : BitVec 16) (hybrid : Bool), s.engineFree id.toNat → (s.cloak id.toNat).state = .free →
    s.unlock.flag = false → s.unlock.busy = false →
    Completes (.create .h id share hybrid) s (fun u =>
      (u.cloak id.toNat).state = .building ∧ (u.cloak id.toNat).hybrid = hybrid ∧ (u.cloak id.toNat).measurement = 0
      ∧ (u.cloak id.toNat).loadsOk = 0 ∧ (u.cloak id.toNat).run = none
      ∧ (u.cloak id.toNat).root ≠ none ∧ (u.cloak id.toNat).memKey ≠ none ∧ (u.cloak id.toNat).macKey ≠ none
      ∧ (u.cloak id.toNat).offKey ≠ none ∧ (u.cloak id.toNat).reqKey = none
      ∧ u.obj 0x1202 id.toNat = s.shareClamp id.toNat share.toNat ∧ u.cloaks.coarse.active = true
      ∧ u.cloaks.completions = s.cloaks.completions ++ [⟨.h, 1, id.toNat, 0, .building, 0⟩]
      ∧ s.otherCloaks u id.toNat ∧ u.cloaks.granules = s.cloaks.granules ∧ u.cloaks.queue = []
      ∧ u = { s with cloaks := u.cloaks, objs := u.objs, hedom := u.hedom, logs := u.logs, boot := u.boot, freeCtr := u.freeCtr })

/-- ADD_TILES of open, idle, unfenced tiles, ADD_GRANULES of OPEN granules, and RECLAIM_GRANULES and RELEASE_GRANULES of
granules that the Cloak holds (at most 256, none twice, none SYSTEM, beyond the table or of an unfenced tile's slice): the
command runs for the Cloak with the whole list to do, the granules of its first tile, or its first granule, go to SCRUBBING, and
every other granule keeps its entry. The model's choices in it: assumptions 53, 62. -/
def Obligations.ListCommandsBegin : Prop :=
  (∀ (s : State) (id : BitVec 8) (map : BitVec 192) (t : Nat) (ts : List Nat), s.engineFree id.toNat →
    (s.cloak id.toNat).state = .building → mapTiles map = t :: ts →
    (∀ x ∈ mapTiles map, s.fenced x = false ∧ s.tag x = 0 ∧ (s.tile x).idle = true ∧ s.tileWanted x = false) →
    Completes (.addTiles .h id map) s (fun u =>
      (u.cloak id.toNat).run = some ⟨⟨.h, id.toNat, .addTiles map⟩, t :: ts, 0⟩
      ∧ (∀ g ∈ sliceGranules t, entState (s.granule g) ≠ 3 → u.granule g = entScrub)
      ∧ (∀ g, g ∉ sliceGranules t → u.granule g = s.granule g)
      ∧ u.cloaks.completions = s.cloaks.completions ∧ s.began u id.toNat))
  ∧ (∀ (s : State) (id : BitVec 8) (g : Nat) (gs : List Nat), s.engineFree id.toNat →
    (s.cloak id.toNat).state ∈ [CloakSt.building, .ready, .running, .stopped] → (g :: gs).length ≤ 256 → (g :: gs).Nodup →
    (∀ x ∈ g :: gs, s.granuleNever x = false ∧ entState (s.granule x) = 0 ∧ s.granuleWanted x = false) →
    Completes (.addGranules .h id (g :: gs)) s (fun u =>
      (u.cloak id.toNat).run = some ⟨⟨.h, id.toNat, .addGranules (g :: gs)⟩, g :: gs, 0⟩
      ∧ u.granule g = entScrub ∧ (∀ x, x ≠ g → u.granule x = s.granule x)
      ∧ u.cloaks.completions = s.cloaks.completions ∧ s.began u id.toNat))
  ∧ (∀ (s : State) (id : BitVec 8) (g : Nat) (gs : List Nat), s.engineFree id.toNat →
    (s.cloak id.toNat).state ∈ [CloakSt.ready, .running, .stopped] → (g :: gs).length ≤ 256 → (g :: gs).Nodup →
    (∀ x ∈ g :: gs, s.granuleNever x = false ∧ s.granule x = entAssigned id.toNat) →
    Completes (.reclaimGranules .h id (g :: gs)) s (fun u =>
      (u.cloak id.toNat).run = some ⟨⟨.h, id.toNat, .reclaim (g :: gs)⟩, g :: gs, 0⟩
      ∧ u.granule g = entScrub ∧ (∀ x, x ≠ g → u.granule x = s.granule x)
      ∧ u.cloaks.completions = s.cloaks.completions ∧ s.began u id.toNat))
  ∧ (∀ (s : State) (id : BitVec 8) (g : Nat) (gs : List Nat), s.engineFree id.toNat →
    (s.cloak id.toNat).state = .running → (g :: gs).length ≤ 256 → (g :: gs).Nodup →
    (∀ x ∈ g :: gs, s.granuleNever x = false ∧ s.granule x = entAssigned id.toNat) →
    Completes (.releaseGranules (.c id.toNat) id (g :: gs)) s (fun u =>
      (u.cloak id.toNat).run = some ⟨⟨.c id.toNat, id.toNat, .release (g :: gs)⟩, g :: gs, 0⟩
      ∧ u.granule g = entScrub ∧ (∀ x, x ≠ g → u.granule x = s.granule x)
      ∧ u.cloaks.completions = s.cloaks.completions ∧ s.began u id.toNat))

/-- OWNER_CHANGE_COMPLETE of the SCRUBBING granule at which a Cloak's ADD, RECLAIM or RELEASE_GRANULES stands, once no earlier
request to it is under way: the granule reads as zeros, the rest of memory as before, and its entry is ASSIGNED to the Cloak
(ADD) or OPEN. The last granule ends the command with OK and its count; otherwise the next granule of the list goes to
SCRUBBING. -/
def Obligations.OwnerChangeCompletes : Prop :=
  ∀ (s : State) (k g : Nat) (r : CloakRun) (rest : List Nat) (e : BitVec 16), s.canonical → s.cloakRuns k r → r.q.by_ = .h →
    r.todo = g :: rest → g ∉ rest →
    (r.q.cmd.opcode = 3 ∧ e = entAssigned k ∨ r.q.cmd.opcode = 10 ∧ e = entOpen) →
    s.changing g = some (k, e) → entState (s.granule g) = 2 → s.granuleBusy g = false →
    Completes (.ownerChangeComplete g) s (fun u =>
      u.granule g = e
      ∧ (∀ x, x ≠ g → rest.head? ≠ some x → u.granule x = s.granule x)
      ∧ (∀ a, memGet u.mem.bytes a =
          if granuleBase g ≤ a ∧ a < granuleBase g + 0x200000 then 0 else memGet s.mem.bytes a)
      ∧ (rest = [] → (u.cloak k).run = none
          ∧ u.cloaks.completions = s.cloaks.completions ++ [⟨.h, r.q.cmd.opcode, k, 0, (s.cloak k).state, r.count + 1⟩])
      ∧ (∀ h, rest.head? = some h → (u.cloak k).run = some { r with todo := rest, count := r.count + 1 }
          ∧ u.cloaks.completions = s.cloaks.completions ∧ (entState (s.granule h) ≠ 3 → u.granule h = entScrub))
      ∧ s.otherCloaks u k)

/-- TILE_ASSIGNMENT_COMPLETE of the tile at which a Cloak's ADD_TILES stands, once no earlier request to its Lining granules is
under way: the tile belongs to the Cloak, everything in it is as at reset but for the Cloak's keys in its Glide and fresh keys
of its rounding generators, the tokens that it held lapse, and its Lining granules are ASSIGNED to the Cloak. With the last tile
the command ends with OK and its count. Other tiles keep everything but cached copies and translations. -/
def Obligations.TileAssignmentCompletes : Prop :=
  ∀ (s : State) (t : TileNo) (k : Nat) (r : CloakRun) (m : BitVec 192) (rest : List Nat), s.canonical → s.cloakRuns k r →
    r.q.by_ = .h → r.q.cmd = .addTiles m → r.todo = t.val :: rest →
    s.assigning t = some k →
    (∀ g ∈ sliceGranules t, s.granuleBusy g = false ∧ entState (s.granule g) ≠ 3) →
    Completes (.tileAssignmentComplete t) s (fun u =>
      u.tile t = { owner := BitVec.ofNat 7 k, acct := (u.tile t).acct, eng := { keys := (u.tile t).eng.keys }
                   glide := { offKey := (s.cloak k).offKey, grpKey := (s.cloak k).grpKey } }
      ∧ (u.tile t).eng.keys.length = 8 ∧ (u.tile t).acct.held = 0 ∧ u.gov.lapsed = s.gov.lapsed + (s.tile t).acct.held
      ∧ (∀ g ∈ sliceGranules t, (∀ t', rest.head? = some t' → g ∉ sliceGranules t') → u.granule g = entAssigned k)
      ∧ (∀ g, g ∉ sliceGranules t → (∀ t', rest.head? = some t' → g ∉ sliceGranules t') → u.granule g = s.granule g)
      ∧ (rest = [] → (u.cloak k).run = none
          ∧ u.cloaks.completions = s.cloaks.completions ++ [⟨.h, 2, k, 0, (s.cloak k).state, r.count + 1⟩])
      ∧ (rest ≠ [] → (u.cloak k).run = some { r with todo := rest, count := r.count + 1 } ∧ u.cloaks.completions = s.cloaks.completions)
      ∧ (∀ x, x ≠ t.val → u.tile x = { s.tile x with l2 := (u.tile x).l2, xlat := (u.tile x).xlat })
      ∧ s.otherCloaks u k)

/-- LOAD by H into a BUILDING Cloak's own granules, from OPEN granules or the host-memory window: the command runs and changes
nothing else. LOAD_COPY_COMPLETE with source and destination free of errors and of accesses under way: the image stands at the
destination and the rest of memory is as before, the measurement is extended by it, the first image's destination is the entry
point, and the command ends with OK. Where the host delivers less than the image, the bytes copied stay, the measurement does
not change, and the command ends with UNCORR. The model's choices in it: assumptions 4, 53. -/
def Obligations.LoadCopiesAndMeasures : Prop :=
  (∀ (s : State) (id : BitVec 8) (src len dst : BitVec 44), s.engineFree id.toNat → (s.cloak id.toNat).state = .building →
    (s.cloak id.toNat).loadUncorr = false → (s.rangeOpen src.toNat len.toNat = true ∨ s.rangeHost src.toNat len.toNat = true) →
    s.rangeOwned id.toNat dst.toNat len.toNat = true →
    Completes (.load .h id src len dst) s (fun u =>
      u = { s.setCloak id.toNat { s.cloak id.toNat with run := some ⟨⟨.h, id.toNat, .load src.toNat len.toNat dst.toNat⟩, [], 0⟩ } with
              freeCtr := s.freeCtr + 1 }))
  ∧ (∀ (s : State) (id : BitVec 8) (data : List (BitVec 8)) (blocks : BitVec 32) (src len dst : Nat) (r : CloakRun),
    s.canonical → s.cloakRuns id.toNat r → r.q.by_ = .h → r.q.cmd = .load src len dst →
    (s.hostIn src = true ∧ len ≤ data.length ∨ s.hostIn src = false ∧ s.quietAt src len) → (s.rangeOpen src len = true ∨ s.rangeHost src len = true) →
    s.quietAt dst len → 0 < len →
    Completes (.loadCopyComplete id data blocks) s (fun u =>
      let image := if s.hostIn src then data.take len else memRead s.mem.bytes src len
      s.memAfter u dst image
      ∧ u.cloak id.toNat = { s.cloak id.toNat with
          run := none, loadsOk := (s.cloak id.toNat).loadsOk + 1
          measurement := measLoad (s.cloak id.toNat).measurement dst len image
          entry := if (s.cloak id.toNat).loadsOk = 0 then BitVec.ofNat 64 dst else (s.cloak id.toNat).entry }
      ∧ u.cloaks.completions = s.cloaks.completions ++ [⟨.h, 4, id.toNat, 0, (s.cloak id.toNat).state, 0⟩]
      ∧ s.otherCloaks u id.toNat ∧ u.cloaks.granules = s.cloaks.granules))
  ∧ (∀ (s : State) (id : BitVec 8) (data : List (BitVec 8)) (blocks : BitVec 32) (src len dst : Nat) (r : CloakRun),
    s.cloakRuns id.toNat r → r.q.by_ = .h → r.q.cmd = .load src len dst → s.hostIn src = true → data.length < len →
    s.rangeHost src len = true → s.quietAt dst len →
    Completes (.loadCopyComplete id data blocks) s (fun u =>
      s.memAfter u dst (data.take (4096 * blocks.toNat))
      ∧ u.cloak id.toNat = { s.cloak id.toNat with run := none, loadUncorr := true }
      ∧ u.cloaks.completions = s.cloaks.completions ++ [⟨.h, 4, id.toNat, 9, (s.cloak id.toNat).state, 0⟩]
      ∧ s.otherCloaks u id.toNat ∧ u.cloaks.granules = s.cloaks.granules))

/-- FINALISE of a BUILDING Cloak with a tile and a load: the measurement is final, fresh request keys exist (an ML-KEM key just
in hybrid mode), RSEQ is 0, and a signature is asked for. ROTATE_KEY of a RUNNING Cloak: fresh keys, RSEQ one higher, a
signature is asked for. REPORT: a signature is asked for. SIGNATURE_COMPLETE finishes the oldest signature: FINALISE makes the
Cloak READY with its report, ROTATE_KEY replaces the report, REPORT writes a KIND 2 report to its destination; each ends with
OK. The model's choices in it: assumptions 4, 27. -/
def Obligations.SignedCommandsComplete : Prop :=
  (∀ (s : State) (id : BitVec 8), s.engineFree id.toNat → (s.cloak id.toNat).state = .building →
    (s.cloak id.toNat).loadUncorr = false → (s.cloak id.toNat).loadsOk ≠ 0 → s.tilesOf id.toNat ≠ [] →
    Completes (.finalise .h id) s (fun u =>
      let c := s.cloak id.toNat
      u.cloak id.toNat = { c with
        measurement := measFinal c.measurement c.hybrid c.entry, rseq := 0
        run := some ⟨⟨.h, id.toNat, .finalise⟩, [], 0⟩
        reqKey := (u.cloak id.toNat).reqKey, kemKey := (u.cloak id.toNat).kemKey }
      ∧ (u.cloak id.toNat).reqKey ≠ none ∧ ((u.cloak id.toNat).kemKey ≠ none ↔ c.hybrid = true)
      ∧ u.fw.signing = s.fw.signing ++ [.finalise id.toNat] ∧ s.otherCloaks u id.toNat
      ∧ u = { s with cloaks := { s.cloaks with table := u.cloaks.table, queue := [] }, fw := { s.fw with signing := u.fw.signing }, freeCtr := s.freeCtr + 1 }))
  ∧ (∀ (s : State) (id : BitVec 8), s.engineFree id.toNat → (s.cloak id.toNat).state = .running →
    Completes (.rotateKey (.c id.toNat) id) s (fun u =>
      let c := s.cloak id.toNat
      u.cloak id.toNat = { c with
        rseq := c.rseq + 1, run := some ⟨⟨.c id.toNat, id.toNat, .rotateKey⟩, [], 0⟩
        reqKey := (u.cloak id.toNat).reqKey, kemKey := (u.cloak id.toNat).kemKey }
      ∧ (u.cloak id.toNat).reqKey ≠ none ∧ ((u.cloak id.toNat).kemKey ≠ none ↔ c.hybrid = true)
      ∧ u.fw.signing = s.fw.signing ++ [.rotate id.toNat] ∧ s.otherCloaks u id.toNat
      ∧ u = { s with cloaks := { s.cloaks with table := u.cloaks.table, queue := [] }, fw := { s.fw with signing := u.fw.signing }, freeCtr := s.freeCtr + 1 }))
  ∧ (∀ (s : State) (id : BitVec 8) (rdata : List (BitVec 8)) (dst : BitVec 44), s.engineFree id.toNat →
    (s.cloak id.toNat).state = .running → s.rangeOwned id.toNat dst.toNat 1616 = true →
    Completes (.report (.c id.toNat) id rdata dst) s (fun u =>
      u.cloak id.toNat = { s.cloak id.toNat with run := some ⟨⟨.c id.toNat, id.toNat, .report rdata dst.toNat⟩, [], 0⟩ }
      ∧ u.fw.signing = s.fw.signing ++ [.report id.toNat rdata dst.toNat] ∧ s.otherCloaks u id.toNat
      ∧ u = { s with cloaks := { s.cloaks with table := u.cloaks.table, queue := [] }, fw := { s.fw with signing := u.fw.signing }, freeCtr := s.freeCtr + 1 }))
  ∧ (∀ (s : State) (k : Nat) (js : List SignJob) (r : CloakRun), s.fw.signing = .finalise k :: js → (s.cloak k).state = .building → s.boot.st ≠ .snowplough →
    s.cloakRuns k r → r.q.by_ = .h → r.q.cmd = .finalise →
    Completes .signatureComplete s (fun u =>
      u.cloak k = { s.cloak k with state := .ready, report := s.signedReport 1 k [], run := none }
      ∧ u.cloaks.completions = s.cloaks.completions ++ [⟨.h, 5, k, 0, .ready, 0⟩]
      ∧ u.fw = { s.fw with signing := js } ∧ s.otherCloaks u k ∧ u.tiles = s.tiles ∧ u.mem = s.mem))
  ∧ (∀ (s : State) (k : Nat) (js : List SignJob) (r : CloakRun), s.fw.signing = .rotate k :: js → s.boot.st ≠ .snowplough →
    s.cloakRuns k r → r.q.by_ = .c k → r.q.cmd = .rotateKey →
    Completes .signatureComplete s (fun u =>
      u.cloak k = { s.cloak k with report := s.signedReport 1 k [], run := none }
      ∧ u.cloaks.completions = s.cloaks.completions ++ [⟨.c k, 13, k, 0, (s.cloak k).state, 0⟩]
      ∧ u.fw = { s.fw with signing := js } ∧ s.otherCloaks u k ∧ u.mem = s.mem))
  ∧ (∀ (s : State) (k dst : Nat) (rdata : Bytes) (js : List SignJob) (r : CloakRun), s.fw.signing = .report k rdata dst :: js →
    s.cloakRuns k r → r.q.by_ = .c k → r.q.cmd = .report rdata dst → s.boot.st ≠ .snowplough → s.rangeOwned k dst 1616 = true → s.canonical → s.quietAt dst 1616 →
    Completes .signatureComplete s (fun u =>
      s.memAfter u dst (s.signedReport 2 k rdata)
      ∧ u.cloak k = { s.cloak k with run := none }
      ∧ u.cloaks.completions = s.cloaks.completions ++ [⟨.c k, 14, k, 0, (s.cloak k).state, 0⟩]
      ∧ u.fw = { s.fw with signing := js } ∧ s.otherCloaks u k))

/-- START of a READY Cloak: RUNNING, its tiles no longer halted, and the C-core of its lowest-numbered tile released at the
entry point. STOP by H or M of a RUNNING Cloak: the command runs, and only the RUNNING Glide streams of the Cloak's tiles
change. CLOAK_HALTED of a RUNNING Cloak with a STOP, once every tile stands at its boundary: STOPPED by the issuer of STOP,
every tile halted. RESUME of a STOPPED Cloak (by M, or by H where M did not stop it): RUNNING, every tile no longer halted. Each
ends with OK; tiles of others stay. The model's choices in it: assumptions 48, 62. -/
def Obligations.StartStopResume : Prop :=
  (∀ (s : State) (id : BitVec 8) (t : Nat) (ts : List Nat), s.engineFree id.toNat → (s.cloak id.toNat).state = .ready →
    s.tilesOf id.toNat = t :: ts →
    Completes (.start .h id) s (fun u =>
      u.cloak id.toNat = { s.cloak id.toNat with state := .running }
      ∧ u.tile t = { s.tile t with halted := false
                                   core := { (s.tile t).core with pc := (s.cloak id.toNat).entry, released := true } }
      ∧ (∀ x ∈ ts, u.tile x = { s.tile x with halted := false })
      ∧ (∀ x, x ∉ t :: ts → u.tile x = s.tile x)
      ∧ u.cloaks.completions = s.cloaks.completions ++ [⟨.h, 6, id.toNat, 0, .running, 0⟩]
      ∧ s.otherCloaks u id.toNat ∧ u.cloaks.granules = s.cloaks.granules ∧ u.mem = s.mem))
  ∧ (∀ (s : State) (p : Principal) (id : BitVec 8), s.engineFree id.toNat → (s.cloak id.toNat).state = .running →
    (p = .h ∨ p = .m) →
    Completes (.stop p id) s (fun u =>
      u.cloak id.toNat = { s.cloak id.toNat with run := some ⟨⟨p, id.toNat, .stop⟩, [], 0⟩ }
      ∧ (∀ x, u.tile x = { s.tile x with glide := { (s.tile x).glide with streams := (u.tile x).glide.streams } })
      ∧ (∀ x i, (x ∉ s.tilesOf id.toNat ∨ (s.stream x i).state ≠ .running) → u.stream x i = s.stream x i)
      ∧ u.cloaks.completions = s.cloaks.completions ∧ s.otherCloaks u id.toNat ∧ u.mem = s.mem))
  ∧ (∀ (s : State) (p : Principal) (id : BitVec 8) (r : CloakRun), s.cloakRuns id.toNat r → r.q.by_ = p → (p = .h ∨ p = .m) →
    r.q.cmd = .stop → (s.cloak id.toNat).state = .running → (∀ x ∈ s.tilesOf id.toNat, (s.tile x).quiet = true) →
    Completes (.cloakHalted id) s (fun u =>
      u.cloak id.toNat = { s.cloak id.toNat with state := .stopped, stoppedBy := some p, run := none }
      ∧ (∀ x ∈ s.tilesOf id.toNat, (u.tile x).halted = true)
      ∧ (∀ x, x ∉ s.tilesOf id.toNat → u.tile x = s.tile x)
      ∧ u.cloaks.completions = s.cloaks.completions ++ [⟨p, 7, id.toNat, 0, .stopped, 0⟩]
      ∧ s.otherCloaks u id.toNat ∧ u.mem = s.mem))
  ∧ (∀ (s : State) (p : Principal) (id : BitVec 8), s.engineFree id.toNat → (s.cloak id.toNat).state = .stopped →
    (p = .m ∨ p = .h ∧ (s.cloak id.toNat).stoppedBy ≠ some .m) →
    Completes (.resume p id) s (fun u =>
      u.cloak id.toNat = { s.cloak id.toNat with state := .running, stoppedBy := none }
      ∧ (∀ x ∈ s.tilesOf id.toNat, u.tile x = (s.tile x).resume ∧ (u.tile x).halted = false
          ∧ (u.tile x).core = (s.tile x).core ∧ (u.tile x).pocket = (s.tile x).pocket)
      ∧ (∀ x, x ∉ s.tilesOf id.toNat → u.tile x = s.tile x)
      ∧ u.cloaks.completions = s.cloaks.completions ++ [⟨p, 8, id.toNat, 0, .running, 0⟩]
      ∧ s.otherCloaks u id.toNat ∧ u.mem = s.mem))

/-- DESTROY by H or M of a Cloak that is not RUNNING: it is DESTROYING, every key of it is gone, its tiles are halted and their
stream keys cleared; ownership and memory stay. DESTROY or EXIT of a RUNNING Cloak: DESTROYING, and only the RUNNING Glide
streams of its tiles change, as for STOP. CLOAK_HALTED once every tile of a DESTROYING Cloak stands at its boundary: the tiles
are halted and every key is gone. DESTROY_SEQUENCE_COMPLETE then, once no answer to its tiles is due: the Cloak is FREE with
nothing left of it, no tile and no granule is its own, its granules, and those that an aborted command of it had in hand, are
OPEN and read as zeros, its C log is empty, its share is zero, it holds no ledger entry, and the command's record with OK is
written. -/
def Obligations.DestroyFreesCloak : Prop :=
  (∀ (s : State) (p : Principal) (id : BitVec 8), s.engineFree id.toNat → (p = .h ∨ p = .m) →
    (s.cloak id.toNat).state ∈ [CloakSt.building, .ready, .stopped] →
    Completes (.destroy p id) s (fun u =>
      u.cloak id.toNat = { (s.cloak id.toNat).clearKeys with state := .destroying, selfDestroy := false, run := some ⟨⟨p, id.toNat, .destroy⟩, [], 0⟩ }
      ∧ (∀ x ∈ s.tilesOf id.toNat, (u.tile x).halted = true ∧ (u.tile x).glide.offKey = none ∧ (u.tile x).glide.grpKey = none)
      ∧ (∀ x ∈ s.tilesOf id.toNat, ∀ i, (u.stream x i).key = none)
      ∧ (∀ x, x ∉ s.tilesOf id.toNat → u.tile x = s.tile x)
      ∧ u.cloaks.granules = s.cloaks.granules ∧ u.mem = { s.mem with gone := u.mem.gone } ∧ s.otherCloaks u id.toNat))
  ∧ (∀ (s : State) (p : Principal) (id : BitVec 8) (c : Instr) (cmd : CloakCmd), s.engineFree id.toNat →
    (s.cloak id.toNat).state = .running →
    (c = .destroy p id ∧ cmd = .destroy ∧ (p = .h ∨ p = .m) ∨ c = .exit p id ∧ cmd = .exit ∧ p = .c id.toNat) →
    Completes c s (fun u =>
      u.cloak id.toNat = { s.cloak id.toNat with state := .destroying, selfDestroy := false, run := some ⟨⟨p, id.toNat, cmd⟩, [], 0⟩ }
      ∧ (∀ x, u.tile x = { s.tile x with glide := { (s.tile x).glide with streams := (u.tile x).glide.streams } })
      ∧ (∀ x i, (x ∉ s.tilesOf id.toNat ∨ (s.stream x i).state ≠ .running) → u.stream x i = s.stream x i)
      ∧ (∀ x ∈ s.tilesOf id.toNat, ∀ i, i < 16 → (s.stream x i).state = .running → u.stream x i = GStream.rest { s.stream x i with stopping := true })
      ∧ u.cloaks.granules = s.cloaks.granules ∧ u.mem = s.mem ∧ s.otherCloaks u id.toNat))
  ∧ (∀ (s : State) (id : BitVec 8), (s.cloak id.toNat).state = .destroying → (s.cloak id.toNat).root ≠ none →
    (∀ x ∈ s.tilesOf id.toNat, (s.tile x).quiet = true) →
    Completes (.cloakHalted id) s (fun u =>
      u.cloak id.toNat = (s.cloak id.toNat).clearKeys
      ∧ (∀ x ∈ s.tilesOf id.toNat, (u.tile x).halted = true ∧ (u.tile x).glide.offKey = none ∧ (u.tile x).glide.grpKey = none)
      ∧ (∀ x ∈ s.tilesOf id.toNat, ∀ i, (u.stream x i).key = none)
      ∧ (∀ x, x ∉ s.tilesOf id.toNat → u.tile x = s.tile x)
      ∧ u.cloaks.completions = s.cloaks.completions
      ∧ u.cloaks.granules = s.cloaks.granules ∧ u.mem = { s.mem with gone := u.mem.gone } ∧ s.otherCloaks u id.toNat))
  ∧ (∀ (s : State) (id : BitVec 8) (r : CloakRun), s.canonical → s.cloakRuns id.toNat r → r.q.by_ = .h →
    (s.cloak id.toNat).state = .destroying → (s.cloak id.toNat).selfDestroy = false → s.answersDue id.toNat = false →
    ((s.cloak id.toNat).root = none ∨ ∀ x ∈ s.tilesOf id.toNat, (s.tile x).quiet = true) →
    Completes (.destroySequenceComplete id) s (fun u =>
      u.cloak id.toNat = {} ∧ u.tilesOf id.toNat = []
      ∧ (∀ g, s.granule g = entAssigned id.toNat → u.granule g = entOpen
          ∧ ∀ a, granuleBase g ≤ a → a < granuleBase g + 0x200000 → memGet u.mem.bytes a = 0)
      ∧ (∀ g ∈ (s.cloak id.toNat).inHand, entState (s.granule g) ≠ 3 → u.granule g = entOpen)
      ∧ (∀ g, s.granule g ≠ entAssigned id.toNat → g ∉ (s.cloak id.toNat).inHand → (∀ t ∈ s.tilesOf id.toNat, g ∉ sliceGranules t) → u.granule g = s.granule g)
      ∧ tabGet ({} : ErrLog) u.logs.c id.toNat = {} ∧ u.obj 0x1202 id.toNat = 0
      ∧ (∀ i, (u.ledger i).st ≠ .free → (u.ledger i).owner.toNat ≠ id.toNat)
      ∧ (∀ i, (u.ledger i).version = (s.ledger i).version)
      ∧ u.cloaks.completions = s.cloaks.completions ++ [⟨.h, r.q.cmd.opcode, id.toNat, 0, .free, 0⟩]
      ∧ s.otherCloaks u id.toNat))

/-- LALLOC within quota: the lowest run of FREE entries that is long enough becomes EMPTY and the Cloak's, and the record gives
its first index. LFREE of entries that the Cloak holds: they are FREE with their version kept. LREAD writes the 16 bytes of an
entry of its own, and GETSEAL the 32 bytes of the sealing key, to the Cloak's destination and nowhere else. Each ends with OK.
The model's choices in it: assumptions 4, 27, 46. -/
def Obligations.LedgerAndSeal : Prop :=
  (∀ (s : State) (id : BitVec 8) (count : BitVec 32) (i : Nat), s.canonical → s.engineFree id.toNat →
    (s.cloak id.toNat).state = .running → 0 < count.toNat → count.toNat ≤ 65536 →
    s.ledgerHeld id.toNat + count.toNat ≤ s.obj 0x1E01 id.toNat → i + count.toNat ≤ 262144 →
    (∀ j ∈ rangeFrom i count.toNat, (s.ledger j).st = .free) →
    (∀ i', i' < i → ∃ j ∈ rangeFrom i' count.toNat, (s.ledger j).st ≠ .free) →
    Completes (.lalloc (.c id.toNat) id count) s (fun u =>
      (∀ j, u.ledger j = if i ≤ j ∧ j < i + count.toNat then { s.ledger j with st := .empty, owner := id } else s.ledger j)
      ∧ u.cloaks.completions = s.cloaks.completions ++ [⟨.c id.toNat, 16, id.toNat, 0, .running, i⟩]
      ∧ (∀ j, u.cloak j = s.cloak j) ∧ u.mem = s.mem ∧ u.cloaks.granules = s.cloaks.granules))
  ∧ (∀ (s : State) (id : BitVec 8) (first count : BitVec 32), s.canonical → s.engineFree id.toNat →
    (s.cloak id.toNat).state = .running → first.toNat + count.toNat ≤ 262144 →
    (∀ j ∈ rangeFrom first.toNat count.toNat, (s.ledger j).st ≠ .free ∧ (s.ledger j).owner = id) →
    Completes (.lfree (.c id.toNat) id first count) s (fun u =>
      (∀ j, u.ledger j = if first.toNat ≤ j ∧ j < first.toNat + count.toNat then { s.ledger j with st := .free, owner := 0 } else s.ledger j)
      ∧ u.cloaks.completions = s.cloaks.completions ++ [⟨.c id.toNat, 17, id.toNat, 0, .running, 0⟩]
      ∧ (∀ j, u.cloak j = s.cloak j) ∧ u.mem = s.mem ∧ u.cloaks.granules = s.cloaks.granules))
  ∧ (∀ (s : State) (id : BitVec 8) (index : BitVec 32) (dst : BitVec 44), s.canonical → s.engineFree id.toNat →
    (s.cloak id.toNat).state = .running → (s.ledger index.toNat).owner = id → s.rangeOwned id.toNat dst.toNat 16 = true →
    s.quietAt dst.toNat 16 →
    Completes (.lread (.c id.toNat) id index dst) s (fun u =>
      s.memAfter u dst.toNat (entryBytes (s.ledger index.toNat))
      ∧ u.cloaks.completions = s.cloaks.completions ++ [⟨.c id.toNat, 18, id.toNat, 0, .running, 0⟩]
      ∧ (∀ j, u.cloak j = s.cloak j) ∧ u.cloaks.granules = s.cloaks.granules ∧ ∀ j, u.ledger j = s.ledger j))
  ∧ (∀ (s : State) (id : BitVec 8) (dst : BitVec 44), s.canonical → s.engineFree id.toNat →
    (s.cloak id.toNat).state = .running → s.rangeOwned id.toNat dst.toNat 32 = true → s.quietAt dst.toNat 32 →
    Completes (.getseal (.c id.toNat) id dst) s (fun u =>
      s.memAfter u dst.toNat (natBe 32 (s.sealKey id.toNat).toNat)
      ∧ u.cloaks.completions = s.cloaks.completions ++ [⟨.c id.toNat, 15, id.toNat, 0, .running, 0⟩]
      ∧ (∀ j, u.cloak j = s.cloak j) ∧ u.cloaks.granules = s.cloaks.granules))

/-- DECAPSULATE by a RUNNING Cloak with a destination in its own granules and fewer than 64 requests waiting joins the Cloak's
queue; with 64 waiting it is refused with QFULL. DECAPSULATION_COMPLETE serves the oldest request of the first Cloak from the
turn on, in round-robin order, that has one: the 128-byte session record stands at its destination, memory elsewhere is as
before, and the turn goes to the next Cloak. A destination that is not the Cloak's own, at either moment, takes no keys, and the
request ends with DENIED (the model's choice). The model's choices in it: assumptions 4, 27, 62. -/
def Obligations.DecapsulationTurns : Prop :=
  (∀ (s : State) (id : BitVec 8) (enc kem : List (BitVec 8)) (dst : BitVec 44), 1 ≤ id.toNat → id.toNat ≤ 64 →
    (s.cloak id.toNat).state = .running → s.rangeOwned id.toNat dst.toNat 128 = true → (s.cloak id.toNat).decaps.length < 64 →
    Completes (.decapsulate id enc kem dst) s (fun u =>
      u = s.setCloak id.toNat { s.cloak id.toNat with decaps := (s.cloak id.toNat).decaps ++ [⟨enc, kem, dst.toNat⟩] }))
  ∧ (∀ (s : State) (id : BitVec 8) (enc kem : List (BitVec 8)) (dst : BitVec 44), 1 ≤ id.toNat → id.toNat ≤ 64 →
    (s.cloak id.toNat).state = .running → s.rangeOwned id.toNat dst.toNat 128 = true → 64 ≤ (s.cloak id.toNat).decaps.length →
    Completes (.decapsulate id enc kem dst) s (fun u =>
      (∀ j, u.cloak j = s.cloak j) ∧ ∃ c : Completion, u.cloaks.completions = s.cloaks.completions ++ [c] ∧ c.id = id.toNat ∧ c.result = 7))
  ∧ (∀ (s : State) (i k : Nat) (d : Decap) (ds : List Decap), s.canonical → 1 ≤ s.cloaks.decapNext → s.cloaks.decapNext ≤ 64 →
    i < 64 → k = (s.cloaks.decapNext - 1 + i) % 64 + 1 → (s.cloak k).decaps = d :: ds →
    (∀ j, j < i → (s.cloak ((s.cloaks.decapNext - 1 + j) % 64 + 1)).decaps = []) →
    s.rangeOwned k d.dst 128 = true → s.quietAt d.dst 128 →
    Completes .decapsulationComplete s (fun u =>
      s.memAfter u d.dst (s.sessionRecord k d)
      ∧ u.cloak k = { s.cloak k with decaps := ds } ∧ u.cloaks.decapNext = k % 64 + 1
      ∧ s.otherCloaks u k ∧ u.cloaks.granules = s.cloaks.granules
      ∧ (∀ t, (s.tilesOf k).head? = some t → (u.tile t).core.events = (s.tile t).core.events ++ [.completion])))
  ∧ (∀ (s : State) (id : BitVec 8) (enc kem : List (BitVec 8)) (dst : BitVec 44), 1 ≤ id.toNat → id.toNat ≤ 64 →
    (s.cloak id.toNat).state = .running → s.rangeOwned id.toNat dst.toNat 128 = false →
    Completes (.decapsulate id enc kem dst) s (fun u =>
      (∀ j, u.cloak j = s.cloak j) ∧ u.mem = s.mem ∧ ∃ c : Completion, u.cloaks.completions = s.cloaks.completions ++ [c] ∧ c.id = id.toNat ∧ c.result = 5))
  ∧ (∀ (s : State) (k : Nat) (d : Decap) (ds : List Decap), s.cloaks.decapNext = k → 1 ≤ k → k ≤ 64 → (s.cloak k).decaps = d :: ds →
    s.rangeOwned k d.dst 128 = false → s.sReady d.dst 128 = true →
    Completes .decapsulationComplete s (fun u =>
      u.mem = s.mem ∧ u.cloak k = { s.cloak k with decaps := ds } ∧ u.cloaks.decapNext = k % 64 + 1 ∧ s.otherCloaks u k
      ∧ ∃ c : Completion, u.cloaks.completions = s.cloaks.completions ++ [c] ∧ c.id = k ∧ c.result = 5))

/-- A command of Table 2.4 or 16.5 by a principal that may issue it, to a Cloak whose state does not accept it: BADSTATE, or
BADID for CREATE, and nothing but the record and its announcement. STOP of a STOPPED Cloak and DESTROY of a DESTROYING one: OK,
and likewise nothing else. RESUME by H of a Cloak that M stopped, and any command by a principal that may not issue it: DENIED,
and nothing else. The model's choices in it: assumption 10. -/
def Obligations.UnacceptedCommandsChangeNothing : Prop :=
  (∀ (s : State) (c : Instr) (q : QCmd), cloakCommand c = some q → s.engineFree q.id → q.cmd.allowed q.by_ q.id = true →
    (s.cloak q.id).state ∉ acceptedIn q.cmd → (s.cloak q.id).state ≠ .destroying →
    s.unlock.flag = false → s.unlock.busy = false →
    Completes c s (fun u => s.onlyRecord u q (if q.cmd.opcode = 1 then 2 else 1) 0))
  ∧ (∀ (s : State) (p : Principal) (id : BitVec 8), s.engineFree id.toNat → (p = .h ∨ p = .m) →
    (s.cloak id.toNat).state = .stopped →
    Completes (.stop p id) s (fun u => s.onlyRecord u ⟨p, id.toNat, .stop⟩ 0 0))
  ∧ (∀ (s : State) (p : Principal) (id : BitVec 8), s.engineFree id.toNat → (p = .h ∨ p = .m) →
    (s.cloak id.toNat).state = .destroying →
    Completes (.destroy p id) s (fun u => s.onlyRecord u ⟨p, id.toNat, .destroy⟩ 0 0))
  ∧ (∀ (s : State) (id : BitVec 8), s.engineFree id.toNat → (s.cloak id.toNat).state = .stopped →
    (s.cloak id.toNat).stoppedBy = some .m →
    Completes (.resume .h id) s (fun u => s.onlyRecord u ⟨.h, id.toNat, .resume⟩ 5 0))
  ∧ (∀ (s : State) (c : Instr) (q : QCmd), cloakCommand c = some q → s.engineFree q.id → q.cmd.allowed q.by_ q.id = false →
    Completes c s (fun u => s.onlyRecord u q 5 0))

/-! ### Engine streams and bundles (03, 05, 07) -/

/-- ELAUNCH after the C-core's older stores: with the sequencer idle the stream is the running one and rd reads RUNNING with its
ticket; otherwise it joins the queue of four and rd reads QUEUED; with four queued nothing is launched and rd reads FAULTED with
QFULL. ESTAT of a running, ended or expired ticket, and EWAIT of a stream that has ended, write the status word of Table 3.6.
ESTOP of a queued stream ends it with STOPPED and clears the FULL bits; of the running one it lets no further bundle issue; of
another ticket it has no effect. BFLUSH empties the prefetch queue at a boundary. A launch, a stop and a flush wake an array
island on the retention floor and pay for it (s1 is the state then). Each changes only its tile, and of its registers only rd.
The model's choices in it: assumptions 10, 48, 66. -/
def Obligations.StreamCommandsOfTheCore : Prop :=
  (∀ (s s1 : State) (t : TileNo) (user : Bool) (rd ra rb : Fin 32), s.coreReads t [rd, ra, rb] [] = true → s.storesDue t = false →
    s.fenced? t 0 = false → s.calm t → (s.tile t).eng.seq.queue.length < 4 → s.wakeArray t = (true, s1) →
    Completes (.elaunch t user rd ra rb) s (fun u =>
      let q := (s.tile t).eng.seq
      let st : Stream := { ticket := q.nextTicket, first := field (s.xreg t ra).toNat 20 5 * 32, args := field (s.xreg t rb).toNat 20 6 * 64
                           tctx := (s.tile t).xlat.tctx, kernel := !user }
      let now := q.run = none ∧ q.queue = []
      (u.tile t).eng.seq = (if now then { q with nextTicket := ticketNext q.nextTicket, run := some st }
                            else { q with nextTicket := ticketNext q.nextTicket, queue := q.queue ++ [st] })
      ∧ u.xreg t rd = (if rd = 0 then 0 else BitVec.ofNat 64 ((if now then 2 ^ 62 else 0) + q.nextTicket.toNat))
      ∧ (∀ r, r ≠ rd.val → u.xreg t r = s.xreg t r)
      ∧ u.tile t = { s1.tile t with eng := { (s.tile t).eng with seq := (u.tile t).eng.seq }
                                    core := { (s.tile t).core with x := (u.tile t).core.x } }
      ∧ s1.onlyTile u t))
  ∧ (∀ (s : State) (t : TileNo) (user : Bool) (rd ra rb : Fin 32), s.coreReads t [rd, ra, rb] [] = true → s.storesDue t = false →
    s.fenced? t 0 = false → 4 ≤ (s.tile t).eng.seq.queue.length →
    Completes (.elaunch t user rd ra rb) s (fun u => u = s.setX t rd (BitVec.ofNat 64 (3 * 2 ^ 62 + 7 * 2 ^ 48))))
  ∧ (∀ (s : State) (t : TileNo) (rd ra : Fin 32) (r : Stream), s.coreReads t [rd, ra] [] = true → (s.tile t).eng.seq.run = some r →
    r.ticket = (s.xreg t ra).setWidth 16 → (∀ x ∈ (s.tile t).eng.seq.queue, x.ticket ≠ r.ticket) →
    Completes (.estat t rd ra) s (fun u => u = s.setX t rd (BitVec.ofNat 64 (2 ^ 62 + r.bundle.toNat * 2 ^ 32 + r.ticket.toNat))))
  ∧ (∀ (s : State) (t : TileNo) (rd ra : Fin 32), s.coreReads t [rd, ra] [] = true →
    (s.tile t).eng.seq.alive ((s.xreg t ra).setWidth 16) = false →
    (∀ r ∈ (s.tile t).eng.seq.records, r.ticket ≠ (s.xreg t ra).setWidth 16) →
    Completes (.estat t rd ra) s (fun u =>
      u = s.setX t rd (BitVec.ofNat 64 (2 * 2 ^ 62 + 2 ^ 61 + ((s.xreg t ra).setWidth 16 : U16).toNat))))
  ∧ (∀ (s : State) (t : TileNo) (rd ra : Fin 32) (r : StreamRec) (rs : List StreamRec) (c : Instr), s.coreReads t [rd, ra] [] = true →
    (s.tile t).eng.seq.alive ((s.xreg t ra).setWidth 16) = false → (s.tile t).eng.seq.records = r :: rs →
    r.ticket = (s.xreg t ra).setWidth 16 → (c = .estat t rd ra ∨ c = .ewait t rd ra) →
    Completes c s (fun u =>
      u = s.setX t rd (BitVec.ofNat 64 ((if r.faulted then 3 else 2) * 2 ^ 62 + r.cause * 2 ^ 48 + r.bundle.toNat * 2 ^ 32 + r.ticket.toNat))))
  ∧ (∀ (s s1 : State) (t : TileNo) (ra : Fin 32) (st : Stream) (rest : List Stream), s.coreReads t [ra] [] = true →
    s.fenced? t 0 = false → s.calm t → s.wakeArray t = (true, s1) → (s.tile t).eng.seq.queue = st :: rest → st.ticket = (s.xreg t ra).setWidth 16 →
    Completes (.estop t ra) s (fun u =>
      (u.tile t).eng.seq = { (s.tile t).eng.seq with
        queue := rest, records := (⟨st.ticket, true, 5, st.bundle⟩ :: (s.tile t).eng.seq.records).take 8 }
      ∧ (∀ b ∈ (u.tile t).eng.staging, b.full = false)
      ∧ (u.tile t).pocket = (s.tile t).pocket ∧ (u.tile t).eng.accs = (s.tile t).eng.accs ∧ s1.onlyTile u t))
  ∧ (∀ (s s1 : State) (t : TileNo) (ra : Fin 32) (st : Stream), s.coreReads t [ra] [] = true → s.fenced? t 0 = false → s.calm t → s.wakeArray t = (true, s1) →
    (∀ x ∈ (s.tile t).eng.seq.queue, x.ticket ≠ (s.xreg t ra).setWidth 16) → (s.tile t).eng.seq.run = some st →
    Completes (.estop t ra) s (fun u =>
      u = if st.ticket = (s.xreg t ra).setWidth 16 then
            s1.setTile t { s1.tile t with eng := { (s.tile t).eng with seq := { (s.tile t).eng.seq with run := some { st with stopping := true } } } }
          else s))
  ∧ (∀ (s s1 : State) (t : TileNo) (st : Stream), s.coreRuns t = true → s.storesDue t = false → (s.tile t).eng.seq.run = some st →
    s.wakeArray t = (true, s1) → st.started = true → st.uncorr = none → (s.tile t).eng.seq.issuing = none →
    Completes (.bflush t) s (fun u =>
      (u.tile t).eng.seq.prefetch = [] ∧ (u.tile t).eng.seq.run = some st
      ∧ (u.tile t).eng.seq.fetchAt = (match (s.tile t).eng.seq.prefetch with | (i, _) :: _ => i % 65536 | [] => (s.tile t).eng.seq.fetchAt)
      ∧ (u.tile t).pocket = (s.tile t).pocket ∧ (u.tile t).core = (s.tile t).core ∧ s1.onlyTile u t))

/-- STREAM_START takes the next stream: its flags, DONEGATE and WAITLIM are those of its argument block, q0 to q11 its words,
q12 to q15 zero, and its first bundle is fetched next; where the block has an uncorrectable error the stream ends FAULTED with
UNCORR, and a record is made. BUNDLE_FETCH appends 32 Pocket bytes to a prefetch queue that is not full and whose head holds an
operation; an error in them is only marked. Both wake an array island on the retention floor and pay for it (s1 is the state
then). With END issued, or with ESTOP accepted, and nothing of a bundle half issued, STREAM_DONE and STREAM_STOP_COMPLETE end
the stream: what is in flight lands first. WAITLIMIT_EXPIRY ends one whose Gate wait is past its limit. The record of an ended
stream is the newest, FULL bits are cleared, DONEGATE counts and EVENT is raised. An uncorrectable error met by what lands
meanwhile is the subject of ResultsLand. The model's choices in it: assumptions 10, 48, 66. -/
def Obligations.StreamLife : Prop :=
  (∀ (s s1 : State) (t : TileNo) (r : Stream) (rest : List Stream), s.engineRuns t = true → s.nextStream t r rest → r.uncorr = none →
    s.wakeArray t = (true, s1) →
    Completes (.streamStart ⟨t, false⟩) s (fun u =>
      let byte := fun k => (memGet (s.tile t).pocket ((r.args + k) % 2097152)).toNat
      let q := (u.tile t).eng.seq
      q.run = some { r with started := true, strict := (byte 48).testBit 0, event := (byte 48).testBit 1
                            doneGate := byte 49, waitLim := Nat.min (byte 50) 31 }
      ∧ q.queue = rest ∧ q.prefetch = [] ∧ q.fetchAt = r.first / 32 % 65536
      ∧ (∀ k, k < 12 → qGet q.q k = leNat (ringRead 2097152 (s.tile t).pocket (r.args + 4 * k) 4))
      ∧ (∀ k, 12 ≤ k → k < 16 → qGet q.q k = 0)
      ∧ u.tile t = { s1.tile t with eng := { (s.tile t).eng with seq := q } } ∧ s1.onlyTile u t))
  ∧ (∀ (s s1 : State) (t : TileNo) (r : Stream), s.engineRuns t = true → s.nextStream t r [] → r.event = false → s.wakeArray t = (true, s1) →
    (s.tile t).eng.seq.flight = [] → (s.tile t).eng.seq.waitFrom = none → s.tag t = 0 →
    Completes (.streamStart ⟨t, true⟩) s (fun u =>
      let q := (u.tile t).eng.seq
      q.run = none ∧ q.queue = [] ∧ q.prefetch = []
      ∧ q.records = (⟨r.ticket, true, 4, r.uncorr.getD r.bundle⟩ :: (s.tile t).eng.seq.records).take 8
      ∧ s.recorded u 2 0x12 255 ∧ (u.tile t).pocket = (s.tile t).pocket ∧ (u.tile t).eng.accs = (s.tile t).eng.accs ∧ u.mem = s.mem))
  ∧ (∀ (s s1 : State) (t : TileNo) (r : Stream) (bad : Bool) (i : Nat) (h : BitVec 256) (rest : List (Nat × BitVec 256)), s.engineRuns t = true →
    s.wakeArray t = (true, s1) →
    (s.tile t).eng.seq.run = some r → r.started = true → r.ended = false → r.stopping = false → r.uncorr = none →
    (s.tile t).eng.seq.prefetch = (i, h) :: rest → rest.length < 3 → noOps h = false →
    Completes (.bundleFetch t bad) s (fun u =>
      let q := (s.tile t).eng.seq
      let b : BitVec 256 := BitVec.ofNat 256 (leNat (ringRead 2097152 (s.tile t).pocket (32 * q.fetchAt) 32))
      u.tile t = { s1.tile t with eng := { (s.tile t).eng with seq :=
        { q with prefetch := q.prefetch ++ [(if bad = true then q.fetchAt + 65536 else q.fetchAt, b)], fetchAt := (q.fetchAt + 1) % 65536 } } }
      ∧ s.otherTiles u t ∧ u = { s1 with tiles := u.tiles, freeCtr := s.freeCtr + 1 }))
  ∧ (∀ (s : State) (t : TileNo) (c : Instr) (r : Stream) (faulted : Bool),
    (s.tile t).eng.seq.run = some r → r.started = true → r.uncorr = none → (s.tile t).eng.seq.issuing = none →
    (s.tile t).eng.seq.queue = [] → (drain s.freeCtr (s.island t)).met = false →
    (c = .streamDone t ∧ r.ended = true ∧ faulted = false ∨ c = .streamStopComplete t ∧ r.stopping = true ∧ faulted = true) →
    Completes c s (fun u =>
      let d := drain s.freeCtr (s.island t)
      s.streamEnded u t r faulted (if faulted then 5 else 0) r.bundle
      ∧ (u.tile t).eng.accs = d.eng.accs ∧ (u.tile t).eng.tailor = d.eng.tailor ∧ (u.tile t).pocket = d.pk
      ∧ (u.tile t).eng.seq.q = d.eng.seq.q))
  ∧ (∀ (s : State) (t : TileNo) (r : Stream) (i : Nat) (b : BitVec 256),
    (s.tile t).eng.seq.run = some r → r.started = true → r.uncorr = none → (s.tile t).eng.seq.issuing = none →
    (s.tile t).eng.seq.queue = [] → r.waitLim ≠ 0 → headBundle (s.island t) = some (r, i, b) → gateMet (s.tile t).eng.seq b = false →
    (settle s.freeCtr ((s.tile t).eng.seq.waitFrom.getD (s.tile t).eng.seq.now + 2 ^ r.waitLim) (s.island t)).met = false →
    Completes (.waitlimitExpiry t) s (fun u => s.streamEnded u t r true 3 (BitVec.ofNat 16 i)))

/-- MMA, MMZ, MMAV, ACRD, ACZ, ACSV and ACLD, where the head bundle holds the operation in slot M0 or M1 and can begin: the
operation is put under way in its arrays with the sources it reads at issue, the slot has taken effect, and the bundle leaves
the queue with its last slot. Nothing else of the package changes. -/
def Obligations.MatrixSlotsIssue : Prop :=
  ∀ (c : Instr) (t : TileNo) (slot : Fin 2) (op : Nat) (s s1 : State) (b : BitVec 256) (st : Stream) (i : Nat) (x : Issuing),
    matrixCode c = some (t, slot, op) → s.slotOpens t slot op b s1 st i x →
    Completes c s (fun u =>
      s1.slotTook u t slot b x
        (issueMatrix x.q st.strict (BitVec.ofNat 16 i) slot (if slot = 0 then slotM0 b else slotM1 b) x.cycle (s1.island t)))

/-- Each of the 74 Tailor commands, where the head bundle holds its operation code of Table 7.3 in slot T and can begin: the
operation is put under way with the Pocket bytes and buffers it reads at issue, the slot has taken effect, and the bundle leaves
the queue with its last slot. -/
def Obligations.TailorSlotsIssue : Prop :=
  ∀ (c : Instr) (t : TileNo) (op : Nat) (s s1 : State) (b : BitVec 256) (st : Stream) (i : Nat) (x : Issuing),
    tailorCode c = some (t, op) → s.slotOpens t 2 op b s1 st i x →
    Completes c s (fun u =>
      s1.slotTook u t 2 b x (issueTailor x.q st.strict (BitVec.ofNat 16 i) (slotT b) x.cycle (s1.island t)))

/-- SKIP, BR, LOOP, BRZ, BRNZ, QSET, QADD, GWAIT, GWAITD, BFLUSH and END in the control slot of a head bundle that can begin:
the island takes the effect of Table 3.14 on the q register values from before the bundle (a bundle with GWAIT or GWAITD begins
only once its Gate holds the value, and GWAITD has lowered it then), the slot has taken effect, and the bundle leaves the queue
with its last slot. The model's choices in it: assumption 15. -/
def Obligations.ControlSlotsTakeEffect : Prop :=
  ∀ (c : Instr) (t : TileNo) (op : Nat) (s s1 : State) (b : BitVec 256) (st : Stream) (i : Nat) (x : Issuing),
    controlCode c = some (t, op) → s.slotOpens t 4 op b s1 st i x →
    Completes c s (fun u =>
      s1.slotTook u t 4 b x (controlEffect op (slotC b) (qGet x.q (cQ (slotC b))) x.cycle i (s1.island t)))

/-- For every legal matrix multiplication and every Tailor operation, strict mode has four times the occupancy of Table 3.15 and
its latency plus three times the occupancy; ACZ, ACRD, ACSV and ACLD keep theirs. The row period and span of R123 are four times
as long in strict mode. An operation issued at cycle t into an array whose rows are free has exactly that latency. -/
def Obligations.StrictModeTiming : Prop :=
  (∀ (w t e1 : Nat), 1 ≤ mMop w → mMop w ≤ 3 → pairAllowed (mFmtA w) (mFmtB w) = true → e1 ≤ t →
    matrixOcc false w = (matrixTable w).1 ∧ matrixLand false w t e1 = t + (matrixTable w).2
    ∧ matrixOcc true w = 4 * (matrixTable w).1 ∧ matrixLand true w t e1 = t + (matrixTable w).2 + 3 * (matrixTable w).1
    ∧ macSpan true w = 4 * macSpan false w)
  ∧ (∀ (strict : Bool) (w t e1 : Nat), 4 ≤ mMop w → mMop w ≤ 7 →
    matrixOcc strict w = (matrixTable w).1 ∧ matrixLand strict w t e1 = t + (matrixTable w).2)
  ∧ (∀ w : Nat, tTop w ≤ 0x9F →
    tailorOcc false w = (tailorTable (tTop w)).1 ∧ tailorLat false w = (tailorTable (tTop w)).2
    ∧ tailorOcc true w = 4 * (tailorTable (tTop w)).1 ∧ tailorLat true w = (tailorTable (tTop w)).2 + 3 * (tailorTable (tTop w)).1)

/-- A legal matrix operation issued at cycle t puts one operation under way in each array that it addresses whose rows are free:
issued at t, due at t plus the latency, and the array accepts no other before t plus the occupancy. A Tailor operation does the
same in the Tailor. Neither changes accumulators, buffers or the Pocket before it lands. -/
def Obligations.IssueTiming : Prop :=
  (∀ (q : List U32) (strict : Bool) (bundle : U16) (slot w t : Nat) (y : Isl) (j : Nat), 1 ≤ mMop w → mMop w ≤ 7 →
    (4 ≤ mMop w ∨ pairAllowed (mFmtA w) (mFmtB w) = true) → j ∈ mArrays w → tabGet 0 y.eng.seq.rowEnd j ≤ t →
    let z := issueMatrix q strict bundle slot w t y
    let o := if strict ∧ mMop w ≤ 3 then 4 * (matrixTable w).1 else (matrixTable w).1
    let l := if strict ∧ mMop w ≤ 3 then (matrixTable w).2 + 3 * (matrixTable w).1 else (matrixTable w).2
    (∃ f ∈ z.eng.seq.flight, f.unit = .array j ∧ f.word = w ∧ f.issue = t ∧ f.occ = o ∧ f.land = t + l)
    ∧ tabGet 0 z.eng.seq.arrayBusy j = t + o
    ∧ z.eng.accs = y.eng.accs ∧ z.eng.tailor = y.eng.tailor ∧ z.pk = y.pk)
  ∧ (∀ (q : List U32) (strict : Bool) (bundle : U16) (w t : Nat) (y : Isl), tTop w ≤ 0x9F →
    let z := issueTailor q strict bundle w t y
    let o := if strict then 4 * (tailorTable (tTop w)).1 else (tailorTable (tTop w)).1
    let l := if strict then (tailorTable (tTop w)).2 + 3 * (tailorTable (tTop w)).1 else (tailorTable (tTop w)).2
    (∃ f ∈ z.eng.seq.flight, f.unit = .tailor ∧ f.word = w ∧ f.issue = t ∧ f.occ = o ∧ f.land = t + l)
    ∧ z.eng.seq.tailorBusy = t + o
    ∧ z.eng.accs = y.eng.accs ∧ z.eng.tailor = y.eng.tailor ∧ z.pk = y.pk)

/-- MATRIX_RESULT with a matrix operation, and TAILOR_RESULT with a Tailor operation, as the one thing under way, due no later
than a bundle that is issuing, no accumulator's parity having failed: what the operation writes stands in the accumulators, the
Tailor and the Pocket, nothing is under way any more, and the island has reached the cycle of its latency. ACZ leaves its
accumulator zero, MMZ what does not depend on the accumulator before, and TZERO a buffer of zeros. Other tiles stay. With a
parity error nothing of the result is written, the array's planes fail where the error stands in them, the stream ends FAULTED
with UNCORR naming the bundle of the operation, and a record is made. The model's choices in it: assumption 1. -/
def Obligations.ResultsLand : Prop :=
  (∀ (s : State) (t : TileNo) (c : Instr) (f : InFlight), (s.tile t).eng.seq.flight = [f] → s.calm t → (s.island t).landsLater f = false →
    (∀ a ∈ (s.tile t).eng.accs, a.parityFailed = false) →
    (c = .matrixResult t false false ∧ f.isTailor = false ∨ c = .tailorResult t false ∧ f.isTailor = true) →
    Completes c s (fun u =>
      let y := applyWrs f (opWrites s.freeCtr (s.tile t).eng f) (s.island t)
      (u.tile t).eng.accs = y.eng.accs ∧ (u.tile t).eng.tailor = y.eng.tailor ∧ (u.tile t).pocket = y.pk
      ∧ (u.tile t).eng.seq.q = y.eng.seq.q ∧ (u.tile t).eng.seq.flight = [] ∧ f.land ≤ (u.tile t).eng.seq.now
      ∧ (u.tile t).eng.seq.run = (s.tile t).eng.seq.run
      ∧ s.otherTiles u t ∧ u = { s with tiles := u.tiles, freeCtr := s.freeCtr + 1 }))
  ∧ (∀ (s : State) (t : TileNo) (c : Instr) (f : InFlight) (plane : Bool) (r : Stream), (s.tile t).eng.seq.flight = [f] → 0 < f.land →
    (s.tile t).eng.seq.run = some r → r.uncorr = none → (s.tile t).eng.seq.issuing = none → (s.tile t).eng.seq.queue = [] → s.tag t = 0 →
    (c = .matrixResult t true plane ∧ f.isTailor = false ∨ c = .tailorResult t true ∧ f.isTailor = true) →
    Completes c s (fun u =>
      (u.tile t).eng.seq.run = none ∧ (u.tile t).eng.seq.flight = []
      ∧ (u.tile t).eng.seq.records = (⟨r.ticket, true, 4, f.bundle⟩ :: (s.tile t).eng.seq.records).take 8
      ∧ s.recorded u 2 (if f.isTailor = true then 0x14 else 0x13) 255
      ∧ (u.tile t).pocket = (s.tile t).pocket ∧ (u.tile t).eng.tailor = (s.tile t).eng.tailor
      ∧ (∀ k, tabGet {} (u.tile t).eng.accs k = { tabGet {} (s.tile t).eng.accs k with
          parityFailed := (tabGet {} (s.tile t).eng.accs k).parityFailed
            || (match f.unit with | .array j => plane && decide (k = 2 * j + mAccsel f.word) | .tailor => false) })
      ∧ u.mem = s.mem))
  ∧ (∀ (n j : Nat) (e : Engine) (f : InFlight), f.unit = .array j → mMop f.word = 5 →
    opWrites n e f = [.acc (2 * j + mAccsel f.word) {}])
  ∧ (∀ (n j : Nat) (e e' : Engine) (f : InFlight), f.unit = .array j → mMop f.word = 2 → f.early = false → tabGet 0 e.keys j = tabGet 0 e'.keys j →
    opWrites n e f = opWrites n e' f)
  ∧ (∀ (n : Nat) (e : Engine) (f : InFlight), f.unit = .tailor → tTop f.word = 5 →
    ∃ b : TBuf, Wr.buf (tTd f.word) b ∈ opWrites n e f ∧ ∀ k, tabGet 0 b.els k = 0)

/-! ### Scalar instructions of the C-core (03, 06, 12) -/

/-- A load or store of bytes of one line that nothing holds back; its address is looked up first, with what that installs and
counts (stated elsewhere). A load from the Pocket, or of a line that the L2 holds, writes the register its bytes spell: an f
register, an x register zero- or sign-extended, two x registers above 8 bytes, x0 never. A store to the Pocket writes its bytes
there; one to a line held E or M writes them into the L2, which is M then, and what was lent of the line is out of date. A store
to a range of a reduction rooted here is no such store. A line that the L2 does not hold (so that it allows the access) is asked
for with RDS, RDX or UPG, once the charge is met, and the access awaits it; a store stands in the store queue. A translation
fault, a refusal by the owner check or an uncorrectable table entry raises its exception, a page fault is counted, and nothing
is accessed. Registers, memory and state that the clause does not name are unchanged. The operand form is the model's reading of
the separate reference (assumption 3). The model's choices in it: assumptions 3, 14, 16. -/
def Obligations.CoreLoadAndStore : Prop :=
  (∀ (s : State) (t : TileNo) (user signed fp : Bool) (n : Fin 17) (rd base : Fin 32) (off : BitVec 16) (a : Nat) (shr : Bool) (x : Side) (b : Bytes),
    s.coreReads t (base.val :: (if fp then [] else pairRegs rd.val n.val)) (if fp then [rd.val] else []) = true → s.fenced? t 3 = false →
    memIllegal fp rd.val n.val = false → s.coreTakes t user .read (s.xreg t base.val + off.signExtend 64) n.val x →
    let s1 := s.looked t user .read (s.xreg t base.val + off.signExtend 64)
    (x = .pocket a ∧ b = ringRead 2097152 (s.tile t).pocket a n.val
      ∨ x = .mem a shr ∧ s1.storesOver t (s.pkg * 2 ^ 44 + a) n.val = [] ∧ s1.lineFree t (localOf (s.pkg * 2 ^ 44 + a) / 64)
        ∧ (s1.l2 t (localOf (s.pkg * 2 ^ 44 + a) / 64)).st ≠ .i
        ∧ b = ((s1.l2 t (localOf (s.pkg * 2 ^ 44 + a) / 64)).data.drop (a % 64)).take n.val) →
    Completes (.cCoreLoad t user n signed fp rd base off) s (fun u =>
      (∀ r, r < 32 → u.xreg t r =
        (if fp ∨ r = 0 then s.xreg t r
         else if n.val ≤ 8 then (if r = rd.val then extendTo64 signed b else s.xreg t r)
         else if r = rd.val then BitVec.ofNat 64 (leNat (b.take 8)) else if r = rd.val + 1 then extendTo64 signed (b.drop 8) else s.xreg t r))
      ∧ (∀ r, r < 32 → u.freg t r = if fp ∧ r = rd.val then BitVec.ofNat 64 (leNat b) else s.freg t r)
      ∧ u.tile t = { s1.tile t with core := { (s1.tile t).core with x := (u.tile t).core.x, f := (u.tile t).core.f } }
      ∧ s1.onlyTile u t))
  ∧ (∀ (s : State) (t : TileNo) (user fp : Bool) (n : Fin 17) (rs base : Fin 32) (off : BitVec 16) (o : Nat),
    s.coreReads t (base.val :: (if fp then [] else pairRegs rs.val n.val)) (if fp then [rs.val] else []) = true → s.fenced? t 2 = false →
    memIllegal fp rs.val n.val = false → s.coreTakes t user .write (s.xreg t base.val + off.signExtend 64) n.val (.pocket o) →
    let s1 := s.looked t user .write (s.xreg t base.val + off.signExtend 64)
    Completes (.cCoreStore t user n fp rs base off) s (fun u =>
      (∀ k, k < 2097152 → memGet (u.tile t).pocket k =
        if (k + 2097152 - o % 2097152) % 2097152 < n.val then (s.storeData t fp rs.val n.val).getD ((k + 2097152 - o % 2097152) % 2097152) 0
        else memGet (s.tile t).pocket k)
      ∧ s1.pocketFrame u t))
  ∧ (∀ (s : State) (t : TileNo) (user fp : Bool) (n : Fin 17) (rs base : Fin 32) (off : BitVec 16) (a : Nat) (shr : Bool),
    s.coreReads t (base.val :: (if fp then [] else pairRegs rs.val n.val)) (if fp then [rs.val] else []) = true → s.fenced? t 2 = false →
    memIllegal fp rs.val n.val = false → s.coreTakes t user .write (s.xreg t base.val + off.signExtend 64) n.val (.mem a shr) →
    let s1 := s.looked t user .write (s.xreg t base.val + off.signExtend 64)
    s1.ownRed t a shr = none → s1.lineFree t (localOf (s.pkg * 2 ^ 44 + a) / 64) →
    ((s1.l2 t (localOf (s.pkg * 2 ^ 44 + a) / 64)).st = .e ∨ (s1.l2 t (localOf (s.pkg * 2 ^ 44 + a) / 64)).st = .m) →
    Completes (.cCoreStore t user n fp rs base off) s (fun u =>
      let line := localOf (s.pkg * 2 ^ 44 + a) / 64
      let d := (s1.l2 t line).data
      u.l2 t line = { st := .m, data := d.take (a % 64) ++ s.storeData t fp rs.val n.val ++ d.drop (a % 64 + n.val) }
      ∧ (∀ k, k ≠ line → u.l2 t k = s1.l2 t k)
      ∧ u.tile t = { s1.tile t with l2 := { (s1.tile t).l2 with lines := (u.tile t).l2.lines } } ∧ s1.otherTiles u t
      ∧ u = { s1 with tiles := u.tiles, coh := { s1.coh with lent := s1.coh.lent.filter (fun p => decide (p.1 ≠ line)) } }))
  ∧ (∀ (s : State) (t : TileNo) (user signed fp : Bool) (n : Fin 17) (r base : Fin 32) (off : BitVec 16) (a : Nat) (shr load : Bool),
    s.coreReads t (base.val :: (if fp then [] else pairRegs r.val n.val)) (if fp then [r.val] else []) = true →
    s.fenced? t (if load then 3 else 2) = false → memIllegal fp r.val n.val = false →
    s.coreTakes t user (if load then .read else .write) (s.xreg t base.val + off.signExtend 64) n.val (.mem a shr) →
    let s1 := s.looked t user (if load then .read else .write) (s.xreg t base.val + off.signExtend 64)
    (load = true ∨ s1.ownRed t a shr = none) → s1.storesOver t (s.pkg * 2 ^ 44 + a) n.val = [] → s1.lineFree t (localOf (s.pkg * 2 ^ 44 + a) / 64) →
    (s1.l2 t (localOf (s.pkg * 2 ^ 44 + a) / 64)).st = .i → (s1.tile t).l2.out.length < 96 → (s1.tile t).core.storeQ.length < 72 →
    (Side.mem a shr).charge s.pkg n.val ≤ (s1.tile t).acct.memory + (s1.tile t).acct.unreserved →
    Completes (if load then .cCoreLoad t user n signed fp r base off else .cCoreStore t user n fp r base off) s (fun u =>
      let pa := s.pkg * 2 ^ 44 + a
      let c := (Side.mem a shr).charge s.pkg n.val
      u.coh = { s1.coh with net := s1.coh.net ++ [{ kind := if load then .rds else .rdx, line := localOf pa / 64, src := t, dst := homeNode }] }
      ∧ u.tile t = { s1.tile t with
          l2 := { (s1.tile t).l2 with out := (s1.tile t).l2.out ++ [{ line := localOf pa / 64, write := !load, addr := pa, size := n.val, dest := if load then (if fp then .freg r else .xreg r n.val signed) else .store }] }
          core := { (s1.tile t).core with storeQ := (s1.tile t).core.storeQ ++ (if load then [] else [⟨pa, s.storeData t fp r.val n.val, false⟩]) }
          acct := (s1.tile t).acct.take .memory c }
      ∧ s1.otherTiles u t ∧ u = { s1 with tiles := u.tiles, coh := u.coh, gov := { s1.gov with spent := s1.gov.spent + c } }))
  ∧ (∀ (s : State) (t : TileNo) (user signed fp load : Bool) (n : Fin 17) (r base : Fin 32) (off : BitVec 16) (x : Side) (e : U64 → CoreEvent),
    s.coreReads t (base.val :: (if fp then [] else pairRegs r.val n.val)) (if fp then [r.val] else []) = true →
    s.fenced? t (if load then 3 else 2) = false → memIllegal fp r.val n.val = false →
    s.coreTakes t user (if load then .read else .write) (s.xreg t base.val + off.signExtend 64) n.val x →
    let s1 := s.looked t user (if load then .read else .write) (s.xreg t base.val + off.signExtend 64)
    (x = .page ∧ e (s.xreg t base.val + off.signExtend 64) = .page (s.xreg t base.val + off.signExtend 64)
      ∨ x = .owner ∧ e (s.xreg t base.val + off.signExtend 64) = .owner (s.xreg t base.val + off.signExtend 64)
      ∨ x = .uncorr ∧ e (s.xreg t base.val + off.signExtend 64) = .machineCheck (s.xreg t base.val + off.signExtend 64)) →
    Completes (if load then .cCoreLoad t user n signed fp r base off else .cCoreStore t user n fp r base off) s (fun u =>
      u.tile t = { s1.tile t with
        core := { (s1.tile t).core with events := (s1.tile t).core.events ++ [e (s.xreg t base.val + off.signExtend 64)], waiting := false, tsync := false }
        xlat := (u.tile t).xlat }
      ∧ (x = .page → tabGet 0 (u.tile t).xlat.cnt 2 = Nat.min (tabGet 0 (s1.tile t).xlat.cnt 2 + 1) (2 ^ 64 - 1))
      ∧ (∀ i, i ≠ 2 → tabGet 0 (u.tile t).xlat.cnt i = tabGet 0 (s1.tile t).xlat.cnt i) ∧ s1.onlyTile u t))

/-- AMO_RMW, CAS, CAS128 and AMO_FP in a form of Table 12.7, naturally aligned, with nothing that holds them back: on a Pocket
location the old value goes to rd (32 bits sign-extended, DEDUCED, assumption 18; 128 bits to the pair) and the new value of
Table 12.8, or the old one where a CAS does not match, is stored in the same step; on a line of this package's memory, the ATOM
message with operation, operand and compare value goes to the line's home, rd awaits the old value, and with acquire later
accesses wait for it. Each is counted. A form that the table does not list is illegal, and a misaligned address raises its
exception; nothing is accessed then. The model's choices in it: assumptions 14, 16, 18. -/
def Obligations.ScalarAtomics : Prop :=
  (∀ (s : State) (t : TileNo) (user : Bool) (major : Nat) (func : BitVec 11) (rd ra rb : Fin 32) (op : AtomOp) (size o : Nat) (c : Instr),
    (major = 0x20 ∧ c = .amoRmw t user func rd ra rb ∨ major = 0x21 ∧ c = .cas t user func rd ra rb
      ∨ major = 0x22 ∧ c = .cas128 t user func rd ra rb ∨ major = 0x23 ∧ c = .amoFp t user func rd ra rb) →
    s.atomGoes t user major func rd ra rb op size (.pocket o) →
    let s1 := s.looked t user .atomic (s.xreg t ra.val)
    Completes c s (fun u =>
      let old := leNat (ringRead 2097152 (s.tile t).pocket o size)
      let arg := fun (r : Fin 32) => (s.xreg t r).toNat % 2 ^ (8 * size) + (if size = 16 then 2 ^ 64 * (s.xreg t (r + 1)).toNat else 0)
      leNat (ringRead 2097152 (u.tile t).pocket o size) = atomNew op size old (arg rb) (arg rd)
      ∧ (∀ k, k < 2097152 → size ≤ (k + 2097152 - o % 2097152) % 2097152 → memGet (u.tile t).pocket k = memGet (s.tile t).pocket k)
      ∧ (∀ r, r < 32 → u.xreg t r =
          (if r = 0 then 0 else if r = rd.val then (if size = 4 then (BitVec.ofNat 32 old).signExtend 64 else BitVec.ofNat 64 old)
           else if size = 16 ∧ r = rd.val + 1 then BitVec.ofNat 64 (old / 2 ^ 64) else s.xreg t r))
      ∧ u.tile t = { s1.tile t with
          pocket := (u.tile t).pocket, core := { (s1.tile t).core with x := (u.tile t).core.x }
          eng := { (s1.tile t).eng with seq := { (s1.tile t).eng.seq with flight := (u.tile t).eng.seq.flight } }
          xlat := { (s1.tile t).xlat with cnt := (u.tile t).xlat.cnt } }
      ∧ tabGet 0 (u.tile t).xlat.cnt 3 = Nat.min (tabGet 0 (s1.tile t).xlat.cnt 3 + 1) (2 ^ 64 - 1)
      ∧ s1.otherTiles u t ∧ u = { s1 with tiles := u.tiles, freeCtr := u.freeCtr }))
  ∧ (∀ (s : State) (t : TileNo) (user : Bool) (major : Nat) (func : BitVec 11) (rd ra rb : Fin 32) (op : AtomOp) (size a : Nat) (shr : Bool) (c : Instr),
    (major = 0x20 ∧ c = .amoRmw t user func rd ra rb ∨ major = 0x21 ∧ c = .cas t user func rd ra rb
      ∨ major = 0x22 ∧ c = .cas128 t user func rd ra rb ∨ major = 0x23 ∧ c = .amoFp t user func rd ra rb) →
    s.atomGoes t user major func rd ra rb op size (.mem a shr) →
    let s1 := s.looked t user .atomic (s.xreg t ra.val)
    s1.lineFree t (localOf (s.pkg * 2 ^ 44 + a) / 64) →
    s1.storesOver t ((s.pkg * 2 ^ 44 + a) / 64 * 64) 64 = [] →
    (Side.mem a shr).charge s.pkg size ≤ (s1.tile t).acct.memory + (s1.tile t).acct.unreserved →
    Completes c s (fun u =>
      let pa := s.pkg * 2 ^ 44 + a
      let arg := fun (r : Fin 32) => (s.xreg t r).toNat % 2 ^ (8 * size) + (if size = 16 then 2 ^ 64 * (s.xreg t (r + 1)).toNat else 0)
      u.coh = { s1.coh with net := s1.coh.net ++ [{ kind := .atom, line := localOf pa / 64, src := t, dst := homeNode, op := some op, a := arg rb, b := arg rd, off := pa % 64, size := size }] }
      ∧ (u.tile t).l2 = { (s1.tile t).l2 with out := (s1.tile t).l2.out ++ [{ line := localOf pa / 64, write := false, addr := pa, size := size, dest := .atom rd size }] }
      ∧ (u.tile t).core = { (s1.tile t).core with fences := (s1.tile t).core.fences ++ (if func.getLsbD 2 then [(16, 15)] else []) }
      ∧ u.tile t = { s1.tile t with l2 := (u.tile t).l2, core := (u.tile t).core, xlat := (u.tile t).xlat, acct := (u.tile t).acct }
      ∧ s1.otherTiles u t ∧ u = { s1 with tiles := u.tiles, coh := u.coh, gov := u.gov }))
  ∧ (∀ (s : State) (t : TileNo) (user : Bool) (major : Nat) (func : BitVec 11) (rd ra rb : Fin 32) (c : Instr),
    (major = 0x20 ∧ c = .amoRmw t user func rd ra rb ∨ major = 0x21 ∧ c = .cas t user func rd ra rb
      ∨ major = 0x22 ∧ c = .cas128 t user func rd ra rb ∨ major = 0x23 ∧ c = .amoFp t user func rd ra rb) →
    s.coreRuns t = true → atomOf (major * 2 ^ 26 + func.toNat) = none →
    Completes c s (fun u => u = s.coreEvent t .illegal))
  ∧ (∀ (s : State) (t : TileNo) (user : Bool) (func : BitVec 11) (rd ra rb : Fin 32),
    s.coreReads t [ra, rd, rb] [] = true → s.fenced? t 3 = false → s.fenced? t 2 = false →
    func.toNat / 16 % 4 = 3 → func.toNat / 64 ≤ 8 → (s.xreg t ra).toNat % 8 ≠ 0 →
    Completes (.amoRmw t user func rd ra rb) s (fun u => u = s.coreEvent t (.misaligned (s.xreg t ra))))

/-- SCALAR_FP_OP of a legal form takes its operands from f registers (a conversion from an integer from an x register), computes
in the strict column of Table 6.4 under fcsr.FRM, accumulates FFLAGS, and writes rd: an x register for a comparison or a
conversion to an integer, else the result in the low bits of an f register (the bits above it are free: the spec does not state
them). FCSR_WRITE keeps the fields of Table 6.5. FENCE holds the later accesses of its successor set while an earlier one of its
predecessor set is due. WAIT_FOR_EVENT waits for an event. IFLUSH changes nothing that the model holds, which fetches no C-core
instruction. Every instruction whose encoding stands in the spec (Tables 3.4, 4.4, 8.2, 11.8, 12.7) is what its word says, no
bit being dropped; FX, VFOP, VLOAD and VSTORE take their fields from their places; and a word that no row assigns raises
illegal-instruction at commit. The model's choices in it: assumptions 1, 3, 9, 10, 45. -/
def Obligations.ScalarAndSystem : Prop :=
  (∀ (s : State) (t : TileNo) (f : VFmt) (op : FpOp) (rd ra rb rc : Fin 32),
    s.coreReads t [ra.val, rd.val] [ra.val, rb.val, rc.val, rd.val] = true → scalarLegal f op = true →
    Completes (.scalarFpOp t f op rd ra rb rc) s (fun u =>
      let c := (s.tile t).core
      let src := match op with | .cvt (.sint _) _ => s.xreg t ra | .cvt (.uint _) _ => s.xreg t ra | _ => s.freg t ra
      let r := fpEval true (VFmt.fmt f) (frmOf c.fcsr) op src.toNat (s.freg t rb).toNat (s.freg t rc).toNat
      let toX := match op with | .cvt _ (.sint _) => true | .cvt _ (.uint _) => true | _ => r.truth
      let w := match op with | .cvt _ d => VFmt.width d | _ => VFmt.width f
      (u.tile t).core.fcsr = c.fcsr ||| (BitVec.ofNat 64 r.fl.toNat <<< 4)
      ∧ (∀ x, x < 32 → u.xreg t x = if toX = true ∧ x = rd.val ∧ x ≠ 0 then BitVec.ofNat 64 r.bits else s.xreg t x)
      ∧ (∀ x, x < 32 → x ≠ rd.val → u.freg t x = s.freg t x)
      ∧ (if toX = true then u.freg t rd = s.freg t rd else (u.freg t rd).toNat % 2 ^ w = r.bits % 2 ^ w)
      ∧ u.tile t = { s.tile t with core := { c with x := (u.tile t).core.x, f := (u.tile t).core.f, fcsr := (u.tile t).core.fcsr } }
      ∧ s.otherTiles u t ∧ u = { s with tiles := u.tiles, freeCtr := u.freeCtr }))
  ∧ (∀ (s : State) (t : TileNo) (f : VFmt) (op : FpOp) (rd ra rb rc : Fin 32),
    s.coreReads t [ra.val, rd.val] [ra.val, rb.val, rc.val, rd.val] = true → scalarLegal f op = false →
    Completes (.scalarFpOp t f op rd ra rb rc) s (fun u => u = s.coreEvent t .illegal))
  ∧ (∀ (s : State) (t : TileNo) (ra : Fin 32), s.coreReads t [ra] [] = true →
    Completes (.fcsrWrite t ra) s (fun u =>
      (u.tile t).core = { (s.tile t).core with fcsr := (u.tile t).core.fcsr }
      ∧ (∀ i, i < 64 → (u.tile t).core.fcsr.getLsbD i = ((s.xreg t ra).getLsbD i && (decide (4 ≤ i ∧ i ≤ 8) || decide (i = 13 ∨ i = 14))))
      ∧ s.onlyTile u t ∧ u.tile t = { s.tile t with core := (u.tile t).core }))
  ∧ (∀ (s : State) (t : TileNo) (pred succ : BitVec 4), s.coreRuns t = true →
    Completes (.fence t pred succ) s (fun u =>
      (∀ kind, kind < 4 → u.fenced? t kind
        = (s.fenced? t kind || (decide (pred ≠ 0) && succ.getLsbD kind && s.setDue t pred.toNat)))
      ∧ u.tile t = { s.tile t with core := { (s.tile t).core with fences := (u.tile t).core.fences } } ∧ s.onlyTile u t
      ∧ (pred = 0 ∨ succ = 0 → u = s)))
  ∧ (∀ (s : State) (t : TileNo), s.coreRuns t = true →
    Completes (.waitForEvent t) s (fun u => u = s.setTile t { s.tile t with core := { (s.tile t).core with waiting := true } }))
  ∧ (∀ (s : State) (t : TileNo), Completes (.iflush t) s (fun u => u = s))
  ∧ (∀ c : CoreWord, c.wf = true → ∃ w, c.word = some w ∧ w < 2 ^ 32 ∧ coreWord w = c)
  ∧ (∀ (d a b : Fin 32) (p : Fin 16) (z : Bool) (m : Fin 4) (fx : Fin 16) (n fmt : Bool) (f : Fin 32),
    coreWord (regWord 0x2E d a b (p.val * 128 + flag z * 64 + fx.val)) = .vector ⟨.fx (Fin.ofNat 64 fx.val), d, a, b, p, z, false⟩
    ∧ coreWord (regWord 0x30 d a b (p.val * 128 + flag n * 64 + flag fmt * 32 + f.val)) = .vector ⟨.vfop n fmt f, d, a, b, p, false, false⟩
    ∧ coreWord (regWord 0x32 d a b (p.val * 128 + flag z * 64 + m.val * 16)) = .vector ⟨.load (vmodeOf m.val), d, a, b, p, z, false⟩
    ∧ (m ≠ 3 → coreWord (regWord 0x33 d a b (p.val * 128 + flag z * 64 + m.val * 16)) = .vector ⟨.store (vmodeOf m.val), d, a, b, p, z, false⟩))
  ∧ (∀ (s : State) (t : TileNo) (w : U32),
    let op := (w.extractLsb' 26 6).toNat
    let fn := (w.extractLsb' 0 6).toNat
    let f := (w.extractLsb' 0 11).toNat
    (op ∈ [0x35, 0x36, 0x37, 0x3F] ∨ op = 0x2D ∧ 0x30 ≤ fn ∨ op = 0x2E ∧ 0x10 ≤ fn ∨ op = 0x2F ∧ 0x3C ≤ fn ∨ op = 0x31 ∧ 0x10 ≤ fn
      ∨ op = 0x33 ∧ fn / 16 = 3 ∨ op = 0x34 ∧ f ∉ [1, 2, 3, 4, 5, 6, 0x10] ∨ op = 0x3E ∧ f ∉ [1, 2, 3, 4, 0x10, 0x11] ∧ f / 256 ≠ 4
      ∨ op ∈ [0x20, 0x21, 0x22, 0x23] ∧ atomOf w.toNat = none) →
    s.commitWord t w = s.coreEvent t .illegal)

/-! ### Vectors (04) -/

/-- A vector instruction that the C-core can send enters the vector queue, with the scalar operands and the context that it is
sent with, while fewer than 32 are queued and no older scalar load awaits its data; an illegal one raises the illegal-
instruction exception instead, and a load or store that a FENCE holds waits. VSYNC with no vector work under way, or with a
fault pending, has no effect of its own; otherwise it holds the C-core until that work is done. VRESUME lets a queue that
stopped on a fault go on with the faulting instruction, at element VSTART; nothing else changes. The model's choices in it:
assumptions 3, 10. -/
def Obligations.VectorQueueCommands : Prop :=
  (∀ (s : State) (t : TileNo) (user : Bool) (pc : U64) (i : VInstr), s.coreReads t (vReadsX i ++ vxOut i) (vReadsF i ++ vfOut i) = true →
    vIllegal (s.tile t).lvu.sewSent i = false → s.coreLoadsDue t = false → (s.tile t).lvu.queue.length < 32 →
    (match i.kind with | .load _ => s.fenced? t 3 | .store _ => s.fenced? t 2 | _ => false) = false →
    Completes (.vectorQueueSend t user pc i) s (fun u =>
      let x := (s.tile t).lvu
      u.tile t = { s.tile t with core := { (s.tile t).core with vsync := false }, lvu := { x with queue := x.queue ++
        [{ i := i, pc := pc, xa := s.xreg t i.vsa, xb := s.xreg t i.vsb, fb := s.freg t i.vsb, tctx := (s.tile t).xlat.tctx, kernel := !user }] } }
      ∧ s.onlyTile u t))
  ∧ (∀ (s : State) (t : TileNo) (user : Bool) (pc : U64) (i : VInstr), s.coreReads t (vReadsX i ++ vxOut i) (vReadsF i ++ vfOut i) = true →
    vIllegal (s.tile t).lvu.sewSent i = true →
    Completes (.vectorQueueSend t user pc i) s (fun u => u = s.coreEvent t .illegal))
  ∧ (∀ (s : State) (t : TileNo), (s.coreRuns t = false ∨ s.vectorIdle t = true ∨ (s.tile t).lvu.faulted = true) → Completes (.vsync t) s (fun u => u = s))
  ∧ (∀ (s : State) (t : TileNo), s.coreRuns t = true → s.vectorIdle t = false → (s.tile t).lvu.faulted = false →
    Completes (.vsync t) s (fun u =>
      u.tile t = { s.tile t with core := { (s.tile t).core with vsync := true } } ∧ s.onlyTile u t ∧ u.coreRuns t = false))
  ∧ (∀ (s : State) (t : TileNo) (user : Bool) (pc : U64) (i : VInstr) (m : VMode), s.coreReads t (vReadsX i ++ vxOut i) (vReadsF i ++ vfOut i) = true →
    vIllegal (s.tile t).lvu.sewSent i = false → (i.kind = .load m ∧ s.fenced? t 3 = true ∨ i.kind = .store m ∧ s.fenced? t 2 = true) →
    Completes (.vectorQueueSend t user pc i) s (fun u => u = s))
  ∧ (∀ (s : State) (t : TileNo), s.coreRuns t = true → (s.tile t).lvu.faulted = true →
    Completes (.vresume t) s (fun u =>
      u.tile t = { s.tile t with core := { (s.tile t).core with vsync := false }, lvu := { (s.tile t).lvu with faulted := false, cur := (s.tile t).lvu.vstart.toNat } } ∧ s.onlyTile u t))

/-- At the head of the queue: SETVL sets vtype and vl, the smaller of the requested length and VLMAX, and answers it in x[VD].
VRELEASE zeroes vector and predicate registers and vcsr. VCSRR reads vcsr into x[VD]; VCSRW writes it but for its reserved bits.
VSEND puts its register into the staging buffer that it names, which is FULL then, and counts its Gate, on its way to both
views; while that buffer is FULL it waits in the send unit with its data, and STAGING_BUFFER_FILL delivers it once the buffer is
free. Each leaves the queue; what is not named is unchanged. That VCSRW and SETVL count as writes of vector state for R116 is
the model's inference. The model's choices in it: assumption 19. -/
def Obligations.VectorControlCommands : Prop :=
  (∀ (s : State) (t : TileNo) (e : VEntry) (c : Fin 4), s.vheadPaid t e 0 → e.i.kind = .setvl c →
    Completes (.setvl t) s (fun u =>
      let y := (u.tile t).lvu
      let n := Nat.min e.xa.toNat (1024 / 2 ^ c.val)
      y.vl.toNat = n ∧ y.vtype = BitVec.ofNat 2 c.val ∧ u.xreg t e.i.vd = (if e.i.vd = 0 then 0 else BitVec.ofNat 64 n)
      ∧ (∀ r, r ≠ e.i.vd.val → u.xreg t r = s.xreg t r) ∧ (u.tile t).core.f = (s.tile t).core.f
      ∧ y.v = (s.tile t).lvu.v ∧ y.p = (s.tile t).lvu.p ∧ y.vcsr = (s.tile t).lvu.vcsr ∧ y.released = false ∧ s.vectorDone u t 0))
  ∧ (∀ (s : State) (t : TileNo) (e : VEntry), s.vheadPaid t e 0 → e.i.kind = .vrelease →
    Completes (.vrelease t) s (fun u =>
      let y := (u.tile t).lvu
      (∀ r, r < 32 → y.vreg r = 0) ∧ (∀ r, 1 ≤ r → r < 16 → y.pred r = 0) ∧ y.vcsr = 0 ∧ y.released = true
      ∧ y.vl = (s.tile t).lvu.vl ∧ y.vtype = (s.tile t).lvu.vtype ∧ s.sameScalars u t ∧ s.vectorDone u t 0))
  ∧ (∀ (s : State) (t : TileNo) (e : VEntry) (write : Bool), s.vheadPaid t e 0 → e.i.kind = (if write then .vcsrw else .vcsrr) →
    Completes (if write then .vcsrw t else .vcsrr t) s (fun u =>
      let y := (u.tile t).lvu
      (∀ i, i < 64 → y.vcsr.getLsbD i = if write then (decide (4 ≤ i ∧ i ≤ 15) && e.xa.getLsbD i) else (s.tile t).lvu.vcsr.getLsbD i)
      ∧ u.xreg t e.i.vd = (if !write ∧ e.i.vd ≠ 0 then (s.tile t).lvu.vcsr else s.xreg t e.i.vd)
      ∧ (∀ r, r ≠ e.i.vd.val → u.xreg t r = s.xreg t r) ∧ (u.tile t).core.f = (s.tile t).core.f
      ∧ s.sameVectors u t ∧ s.vectorDone u t 0))
  ∧ (∀ (s : State) (t : TileNo) (e : VEntry) (sb : Fin 2) (pair : Fin 4) (gate : Fin 64), (s.tile t).lvu.sending = none →
    s.vheadPaid t e (unitCharge (s.tile t).lvu 1) → e.i.kind = .vsend sb pair gate → s.stagingFull t (2 * pair + sb) = false →
    Completes (.vsend t) s (fun u =>
      let v := tabGet 0 (s.tile t).lvu.v e.i.vsa
      s.staged u t (2 * pair + sb) gate v ∧ (u.tile t).core = (s.tile t).core ∧ (u.tile t).lvu.sending = none
      ∧ (u.tile t).lvu.queue = (s.tile t).lvu.queue.tail ∧ (u.tile t).lvu.v = (s.tile t).lvu.v ∧ (u.tile t).lvu.p = (s.tile t).lvu.p
      ∧ (u.tile t).lvu.vcsr = (s.tile t).lvu.vcsr ∧ s.sameVectors u t
      ∧ u.tile t = { s.tile t with eng := (u.tile t).eng, glide := (u.tile t).glide, seam := (u.tile t).seam, lvu := (u.tile t).lvu
                                   acct := (s.tile t).acct.take .vector (unitCharge (s.tile t).lvu 1) }
      ∧ s.otherTiles u t ∧ u = { s with tiles := u.tiles, freeCtr := s.freeCtr + 1, gov := u.gov }))
  ∧ (∀ (s : State) (t : TileNo) (e : VEntry) (sb : Fin 2) (pair : Fin 4) (gate : Fin 64), (s.tile t).lvu.sending = none →
    s.vheadPaid t e (unitCharge (s.tile t).lvu 1) → e.i.kind = .vsend sb pair gate → s.stagingFull t (2 * pair + sb) = true →
    Completes (.vsend t) s (fun u =>
      (u.tile t).lvu.sending = some (e.i, tabGet 0 (s.tile t).lvu.v e.i.vsa) ∧ (u.tile t).lvu.queue = (s.tile t).lvu.queue.tail
      ∧ (u.tile t).lvu.v = (s.tile t).lvu.v ∧ (u.tile t).lvu.p = (s.tile t).lvu.p ∧ (u.tile t).lvu.vcsr = (s.tile t).lvu.vcsr ∧ s.sameVectors u t
      ∧ u.tile t = { s.tile t with lvu := (u.tile t).lvu, acct := (u.tile t).acct }
      ∧ s.otherTiles u t ∧ u = { s with tiles := u.tiles, freeCtr := s.freeCtr + 1, gov := u.gov }))
  ∧ (∀ (s : State) (t : TileNo) (i : VInstr) (v : BitVec 8192) (sb : Fin 2) (pair : Fin 4) (gate : Fin 64), s.vectorRuns t = true →
    (s.tile t).lvu.sending = some (i, v) → i.kind = .vsend sb pair gate → s.stagingFull t (2 * pair + sb) = false →
    Completes (.stagingBufferFill t) s (fun u =>
      s.staged u t (2 * pair + sb) gate v ∧ (u.tile t).lvu = { (s.tile t).lvu with sending := none }
      ∧ u.tile t = { s.tile t with eng := (u.tile t).eng, glide := (u.tile t).glide, seam := (u.tile t).seam, lvu := (u.tile t).lvu }
      ∧ s.onlyTile u t))

/-- VECTOR_INTEGER_OP, VECTOR_FP_OP, VFOP and the sixteen fixed-point commands at the head of the queue: every active element
below vl becomes the value of the operation on the elements of the sources (or on the scalar operand), an inactive one is kept
or, with Z, zeroed, and the tail is kept; a comparison does so for the bits of a predicate, and VMVXS moves element 0 to x[VD]
(the bits above a narrower one are free). FFLAGS, SATCNV and FXSAT of vcsr accumulate. Nothing else changes but the queue, the
account and the count. Operations that the separate reference defines are those of Config (assumption 3). The model's choices in
it: assumptions 3, 20, 68, 72. -/
def Obligations.VectorArithmetic : Prop :=
  (∀ (s : State) (t : TileNo) (e : VEntry) (op : VIntOp), s.vheadPaid t e (vintCharge op (s.tile t).lvu) → e.i.kind = .int op →
    cmpWrites op = false → op ≠ .toScalar →
    Completes (.vectorIntegerOp t) s (fun u =>
      let x := (s.tile t).lvu
      let w := x.sew
      let a := elemOf (x.vreg e.i.vsa) w
      let b := vsbElem x e false w
      x.wrote (u.tile t).lvu e.i.vd w (vlmax w) (x.pred e.i.pg) e.i.z (fun k =>
        match op with
        | .slideUp => if k < b 0 then elemOf (x.vreg e.i.vd) w k else a (k - b 0)
        | .slideDown => if k + b 0 < vlmax w then a (k + b 0) else 0
        | .gather => if b k < vlmax w then a (b k) else 0
        | _ => intOp op w (a k) (b k))
      ∧ (u.tile t).lvu.vcsr = x.vcsr ∧ s.sameScalars u t ∧ s.vectorDone u t (vintCharge op x)))
  ∧ (∀ (s : State) (t : TileNo) (e : VEntry) (op : VIntOp), s.vheadPaid t e (vintCharge op (s.tile t).lvu) → e.i.kind = .int op →
    cmpWrites op = true →
    Completes (.vectorIntegerOp t) s (fun u =>
      let x := (s.tile t).lvu
      x.wroteP (u.tile t).lvu e.i.vd 1024 (x.pred e.i.pg) e.i.z
        (fun k => (intCmp op x.sew (elemOf (x.vreg e.i.vsa) x.sew k) (vsbElem x e false x.sew k)).getD false)
      ∧ (u.tile t).lvu.vcsr = x.vcsr ∧ s.sameScalars u t ∧ s.vectorDone u t (vintCharge op x)))
  ∧ (∀ (s : State) (t : TileNo) (e : VEntry), s.vheadPaid t e (vintCharge .toScalar (s.tile t).lvu) → e.i.kind = .int .toScalar →
    Completes (.vectorIntegerOp t) s (fun u =>
      let x := (s.tile t).lvu
      (u.xreg t e.i.vd).toNat % 2 ^ x.sew = (if e.i.vd = 0 then 0 else elemOf (x.vreg e.i.vsa) x.sew 0)
      ∧ (∀ r, r ≠ e.i.vd.val → u.xreg t r = s.xreg t r) ∧ (u.tile t).core.f = (s.tile t).core.f
      ∧ (u.tile t).lvu.v = x.v ∧ (u.tile t).lvu.p = x.p ∧ (u.tile t).lvu.vcsr = x.vcsr ∧ s.sameVectors u t
      ∧ s.vectorDone u t (vintCharge .toScalar x)))
  ∧ (∀ (s : State) (t : TileNo) (e : VEntry) (bf : Bool) (op : FpOp), s.vheadPaid t e (vfpCharge op (s.tile t).lvu) → e.i.kind = .fp bf op →
    Completes (.vectorFpOp t) s (fun u =>
      let x := (s.tile t).lvu
      let src := match op with | .cvt a _ => VFmt.width a | _ => x.sew
      let w := match op with | .cvt _ d => VFmt.width d | _ => x.sew
      let el := fun k => match op with
        | .cvt a d => fpCvt (vstrict x) (frmOf x.vcsr) a d (elemOf (x.vreg e.i.vsa) src k)
        | _ => fpEval (vstrict x) (vfpFmt bf w) (frmOf x.vcsr) op (elemOf (x.vreg e.i.vsa) w k) (vsbElem x e true w k) (elemOf (x.vreg e.i.vd) w k)
      let outs := vmap (8192 / w) x.len (x.pred e.i.pg) el
      (if fpIsCmp op = true then x.wroteP (u.tile t).lvu e.i.vd (8192 / w) (x.pred e.i.pg) e.i.z (fun k => decide ((el k).bits % 2 = 1))
       else x.wrote (u.tile t).lvu e.i.vd w (8192 / w) (x.pred e.i.pg) e.i.z (fun k => (el k).bits))
      ∧ (u.tile t).lvu.vcsr = setSatcnv (addFlags x.vcsr (vflags outs)) (vsat outs)
      ∧ s.sameScalars u t ∧ s.vectorDone u t (vfpCharge op x)))
  ∧ (∀ (s : State) (c : Instr) (t : TileNo) (fn : Nat) (e : VEntry), fixedCode c = some (t, fn) → s.vheadPaid t e (vfxCharge fn (s.tile t).lvu) →
    e.i.kind = .fx (Fin.ofNat 64 fn) →
    Completes c s (fun u =>
      let x := (s.tile t).lvu
      let w := x.sew
      let mode := field x.vcsr.toNat 12 11
      let wide := fun k => if 2 * w * (k + 1) ≤ 8192 then elemOf (x.vreg e.i.vsa) (2 * w) k else elemOf (x.vreg (e.i.vsa + 1)) (2 * w) (k - vlmax (2 * w))
      let el := fun k => if fn = 12 ∨ fn = 13 then fxNarrow (decide (fn = 12)) mode w (wide k) (vsbElem x e false w k)
        else fxOp fn mode w (elemOf (x.vreg e.i.vsa) w k) (vsbElem x e false w k) (elemOf (x.vreg e.i.vd) w k)
      x.wrote (u.tile t).lvu e.i.vd w (vlmax w) (x.pred e.i.pg) e.i.z (fun k => (el k).1)
      ∧ (u.tile t).lvu.vcsr = setFxsat x.vcsr ((List.range (vlmax w)).any (fun k => decide (k < x.len) && (x.pred e.i.pg).testBit k && (el k).2))
      ∧ s.sameScalars u t ∧ s.vectorDone u t (vfxCharge fn x)))
  ∧ (∀ (s : State) (t : TileNo) (e : VEntry) (zacc neg : Bool) (k : Fin 32), s.vheadPaid t e (arithCharge (s.tile t).lvu 8) →
    e.i.kind = .vfop zacc neg k → vIllegal (s.tile t).lvu.sew e.i = false →
    Completes (.vfop t) s (fun u =>
      let x := (s.tile t).lvu
      let w := x.sew
      (∀ r, r < 8 → ∀ c, c < vlmax w → elemOf ((u.tile t).lvu.vreg (e.i.vd + r)) w c =
        if c < x.len ∧ (x.pred e.i.pg).testBit c = true then
          let a := elemOf (x.vreg e.i.vsa) w (8 * k + r)
          (fpEval true (vfpFmt false w) (frmOf x.vcsr) .fma (if neg then a ^^^ 2 ^ (w - 1) else a) (elemOf (x.vreg e.i.vsb) w c)
            (if zacc then 0 else elemOf (x.vreg (e.i.vd + r)) w c)).bits % 2 ^ w
        else elemOf (x.vreg (e.i.vd + r)) w c)
      ∧ (∀ r, r < 32 → (r < e.i.vd ∨ e.i.vd + 8 ≤ r) → (u.tile t).lvu.vreg r = x.vreg r)
      ∧ (u.tile t).lvu.p = x.p ∧ s.sameVectors u t ∧ s.sameScalars u t ∧ s.vectorDone u t (arithCharge x 8)))

/-- PREDICATE_OP writes the bits of its predicate register (p0 never), or answers the count of active set bits, or the place of
the first one (free where there is none), in x[VD]. VFREDSUM, VFREDMAX and VFREDMIN combine the active elements in the balanced
tree, VFREDOSUM in order, into the low bits of f[VD] (the bits above them, and the value with no active element, are free: the
spec states none), a NaN always as the canonical one, and accumulate FFLAGS. That the tree pairs the active elements in order is
the model's reading of R105 and R166 (assumption 69). Nothing else changes but the queue, the account and the count. That a
reduction's VD names an f register is the model's reading of R105 (assumption 19). The model's choices in it: assumptions 1, 19,
69. -/
def Obligations.VectorPredicatesAndReductions : Prop :=
  (∀ (s : State) (t : TileNo) (e : VEntry) (op : PredOp), s.vheadPaid t e (unitCharge (s.tile t).lvu 1) → e.i.kind = .pred op →
    op ≠ .count → op ≠ .first →
    Completes (.predicateOp t) s (fun u =>
      let x := (s.tile t).lvu
      let a := x.pred e.i.vsa
      let b := x.pred e.i.vsb
      x.wroteP (u.tile t).lvu e.i.vd 1024 (x.pred e.i.pg) e.i.z (fun k =>
        match op with
        | .and => a.testBit k && b.testBit k
        | .or => a.testBit k || b.testBit k
        | .xor => a.testBit k != b.testBit k
        | .andn => a.testBit k && !b.testBit k
        | .not => !a.testBit k
        | .below => decide (k < e.xb.toNat)
        | .other fn => decide (otherOp 0x31 fn.val a b k % 2 = 1)
        | _ => false)
      ∧ (u.tile t).lvu.vcsr = x.vcsr ∧ s.sameScalars u t ∧ s.vectorDone u t (unitCharge x 1)))
  ∧ (∀ (s : State) (t : TileNo) (e : VEntry) (op : PredOp), s.vheadPaid t e (unitCharge (s.tile t).lvu 1) → e.i.kind = .pred op →
    (op = .count ∨ op = .first) →
    Completes (.predicateOp t) s (fun u =>
      let x := (s.tile t).lvu
      let l := (List.range x.len).filter (fun k => (x.pred e.i.pg).testBit k && (x.pred e.i.vsa).testBit k)
      (e.i.vd ≠ 0 → op = .count → u.xreg t e.i.vd = BitVec.ofNat 64 l.length)
      ∧ (e.i.vd ≠ 0 → op = .first → l ≠ [] → u.xreg t e.i.vd = BitVec.ofNat 64 (l.headD 0))
      ∧ (∀ r, r ≠ e.i.vd.val → u.xreg t r = s.xreg t r) ∧ (u.tile t).core.f = (s.tile t).core.f
      ∧ (u.tile t).lvu.v = x.v ∧ (u.tile t).lvu.p = x.p ∧ (u.tile t).lvu.vcsr = x.vcsr ∧ s.sameVectors u t
      ∧ s.vectorDone u t (unitCharge x 1)))
  ∧ (∀ (s : State) (t : TileNo) (c : Instr) (op : RedOp) (e : VEntry) (bf : Bool), reduceCode c = some (t, op) →
    s.vheadPaid t e (if op = .osum then 5 * (s.tile t).lvu.len else arithCharge (s.tile t).lvu 2) → e.i.kind = .red bf op →
    Completes c s (fun u =>
      let x := (s.tile t).lvu
      let f := vfpFmt bf x.sew
      let l := (List.range (vlmax x.sew)).map (fun k => if k < x.len && (x.pred e.i.pg).testBit k then some (elemOf (x.vreg e.i.vsa) x.sew k) else none)
      let l := l.filter Option.isSome
      let two := fun (o : FpOp) (a b : Nat) => fpEval (vstrict x) f (frmOf x.vcsr) o a b 0
      let r := redEnd f (match op with
        | .sum => redTreeGo (two .add) 10 l 0
        | .max => redTreeGo (two .max) 10 l 0
        | .min => redTreeGo (two .min) 10 l 0
        | .osum => redOrdered (two .add) l none 0)
      (match r.1 with | some v => decide ((u.freg t e.i.vd).toNat % 2 ^ x.sew = v % 2 ^ x.sew) | none => true) = true
      ∧ (∀ r, r ≠ e.i.vd.val → u.freg t r = s.freg t r) ∧ (u.tile t).core.x = (s.tile t).core.x
      ∧ (u.tile t).lvu.v = x.v ∧ (u.tile t).lvu.p = x.p ∧ (u.tile t).lvu.vcsr = addFlags x.vcsr r.2 ∧ s.sameVectors u t
      ∧ s.vectorDone u t (if op = .osum then 5 * x.len else arithCharge x 2)))

/-- Each of the seven memory commands, its instruction at the head of the queue and no older scalar store due. With every active
element in the Pocket window (aligned so that none crosses a line): a load writes to every active element below vl the bytes at
its address and leaves or zeroes the others; a store writes to each Pocket byte what the highest-numbered active element that
covers it holds, and changes no other byte. Looking up an address has what effect it has (TranslationCommands states it). Where
the first active element faults, the fault record is written, a page fault is counted, the vector fault trap is raised and the
queue stops with the instruction at its head; where a later element of VLOAD_FAULT_FIRST faults, vl becomes its number and
nothing is raised. The model's choices in it: assumptions 1, 17, 21, 72. -/
def Obligations.VectorMemory : Prop :=
  (∀ (s : State) (c : Instr) (t : TileNo) (m : VMode) (e : VEntry), vmemCode c = some (t, false, m) → s.vmemStarts t e (.load m) →
    (∀ k, k < (s.tile t).lvu.len → ((s.tile t).lvu.pred e.i.pg).testBit k = true → s.elemInPocket t e m k) →
    Completes c s (fun u =>
      let x := (s.tile t).lvu
      let n := x.sew / 8
      (m ≠ .indexed ∨ e.i.vsb ≠ e.i.vd →
        x.wrote (u.tile t).lvu e.i.vd x.sew (vlmax x.sew) (x.pred e.i.pg) e.i.z
          (fun k => leNat (ringRead 2097152 (s.tile t).pocket ((elemVa x e m k).toNat - 0x1FFFFFFFFE00000) n)))
      ∧ (u.tile t).lvu.queue = (s.tile t).lvu.queue.tail ∧ (u.tile t).pocket = (s.tile t).pocket ∧ (u.tile t).core = (s.tile t).core
      ∧ (u.tile t).lvu.vcsr = x.vcsr ∧ (u.tile t).eng = (s.tile t).eng ∧ u.freeCtr = s.freeCtr + 1 ∧ s.vmemFrame u t))
  ∧ (∀ (s : State) (c : Instr) (t : TileNo) (m : VMode) (e : VEntry), vmemCode c = some (t, true, m) → s.vmemStarts t e (.store m) →
    (∀ k, k < (s.tile t).lvu.len → ((s.tile t).lvu.pred e.i.pg).testBit k = true → s.elemInPocket t e m k) →
    Completes c s (fun u =>
      let x := (s.tile t).lvu
      let n := x.sew / 8
      let at_ := fun k => (elemVa x e m k).toNat - 0x1FFFFFFFFE00000
      (∀ o, o < 2097152 → memGet (u.tile t).pocket o =
        match (List.range x.len).reverse.find? (fun k => (x.pred e.i.pg).testBit k && decide (at_ k ≤ o ∧ o < at_ k + n)) with
        | some k => BitVec.ofNat 8 (elemOf (x.vreg e.i.vd) x.sew k / 2 ^ (8 * (o - at_ k)))
        | none => memGet (s.tile t).pocket o)
      ∧ (u.tile t).lvu.queue = (s.tile t).lvu.queue.tail ∧ (u.tile t).lvu.v = x.v ∧ (u.tile t).lvu.p = x.p
      ∧ (u.tile t).lvu.vcsr = x.vcsr ∧ s.sameVectors u t ∧ (u.tile t).core = (s.tile t).core
      ∧ ((s.tile t).eng.seq.flight = [] → u.freeCtr = s.freeCtr + 1) ∧ s.vmemFrame u t))
  ∧ (∀ (s s1 : State) (c : Instr) (t : TileNo) (write : Bool) (m : VMode) (e : VEntry) (f : Side) (a : U64), vmemCode c = some (t, write, m) →
    s.vmemStarts t e (if write then .store m else .load m) → 0 < (s.tile t).lvu.len → ((s.tile t).lvu.pred e.i.pg).testBit 0 = true →
    (s.vmemBegun t e (if write then .store m else .load m)).accessFault t .lvu e.tctx e.kernel (if write then .write else .read)
      (elemVa (s.tile t).lvu e m 0) ((s.tile t).lvu.sew / 8) = some (f, a, s1) → f.walking? = none →
    Completes c s (fun u =>
      let x := (s.tile t).lvu
      let y := (u.tile t).lvu
      y.vepc = e.pc ∧ y.vstart = 0 ∧ y.vaddr = a
      ∧ y.vcause = (match f with | .page => 1 | .uncorr => 3 | .window _ => 4 | _ => 2)
      ∧ y.faulted = true ∧ y.queue = x.queue ∧ y.v = x.v ∧ y.p = x.p ∧ y.vcsr = x.vcsr ∧ y.vl = x.vl
      ∧ (u.tile t).core = { (s1.tile t).core with events := (s1.tile t).core.events ++ [.vectorFault], waiting := false, tsync := false }
      ∧ (f = .page → tabGet 0 (u.tile t).xlat.cnt 2 = Nat.min (tabGet 0 (s.tile t).xlat.cnt 2 + 1) (2 ^ 64 - 1))
      ∧ (u.tile t).pocket = (s.tile t).pocket ∧ u.tile t = { s1.tile t with lvu := y, core := (u.tile t).core }
      ∧ s1.otherTiles u t ∧ u = { s1 with tiles := u.tiles, freeCtr := s1.freeCtr + 1 }))
  ∧ (∀ (s : State) (t : TileNo) (e : VEntry) (k : Nat), s.vmemStarts t e (.load .faultFirst) →
    0 < k → k < (s.tile t).lvu.len → (∀ j, j < k → ((s.tile t).lvu.pred e.i.pg).testBit j = true → s.elemInPocket t e .faultFirst j) →
    ((s.tile t).lvu.pred e.i.pg).testBit k = true →
    (s.accessFault t .lvu e.tctx e.kernel .read (elemVa (s.tile t).lvu e .faultFirst k) ((s.tile t).lvu.sew / 8)).any (fun f => f.1.walking?.isNone) = true →
    Completes (.vloadFaultFirst t) s (fun u =>
      let x := (s.tile t).lvu
      let y := (u.tile t).lvu
      y.vl.toNat = k ∧ y.faulted = false ∧ y.queue = x.queue.tail
      ∧ (∀ j, j < vlmax x.sew → elemOf (y.vreg e.i.vd) x.sew j =
          if j < k ∧ (x.pred e.i.pg).testBit j = true then leNat (ringRead 2097152 (s.tile t).pocket ((elemVa x e .faultFirst j).toNat - 0x1FFFFFFFFE00000) (x.sew / 8)) % 2 ^ x.sew
          else if j < k ∧ e.i.z = true then 0 else elemOf (x.vreg e.i.vd) x.sew j)
      ∧ (∀ r, r ≠ e.i.vd.val → y.vreg r = x.vreg r) ∧ y.p = x.p ∧ y.vcsr = x.vcsr
      ∧ u.tile t = { s.tile t with
          lvu := y, acct := (u.tile t).acct, core := (s.tile t).core.toldOf (u.tile t).core
          xlat := { (s.tile t).xlat with lvu := (u.tile t).xlat.lvu, cnt := (u.tile t).xlat.cnt } }
      ∧ s.lookFrame u t))

/-- RETENTION_ENTRY puts an idle ACTIVE vector island into RETENTION, COLD_ENTRY a released idle one from RETENTION into COLD
(unless the delay is 4,294,967,295), which zeroes the register files and lengths, and ISLAND_WAKE_COMPLETE makes an island that
something needs ACTIVE once its charge is met, counting its wake cycles. SEAM_ARRIVAL lets the oldest transfer in the tile's
Seam whose island is awake reach the Gate view that it is for; a register sent by VSEND becomes valid in its staging buffer
together with its Gate's count. What is for an island that sleeps stays. Only the tile (and for the wake the energy account)
changes. What the fault record holds after COLD is free. The model's choices in it: assumptions 1, 10. -/
def Obligations.VectorIslandAndSeam : Prop :=
  (∀ (s : State) (t : TileNo), s.runs t = true → (s.tile t).lvu.power = .active → s.lvuIdle t = true →
    Completes (.retentionEntry t) s (fun u =>
      let x := (s.tile t).lvu
      u.tile t = { s.tile t with lvu := { x with power := .retention, cnt := tabSet 0 x.cnt 1 (Nat.min (tabGet 0 x.cnt 1 + 1) (2 ^ 64 - 1)) } }
      ∧ s.onlyTile u t))
  ∧ (∀ (s : State) (t : TileNo), s.runs t = true → (s.tile t).lvu.power = .retention → s.lvuIdle t = true → (s.tile t).lvu.released = true →
    s.obj 0x1400 3 ≠ 4294967295 →
    Completes (.coldEntry t) s (fun u =>
      let x := (s.tile t).lvu
      let y := (u.tile t).lvu
      (∀ r, r < 32 → y.vreg r = 0) ∧ (∀ r, 1 ≤ r → r < 16 → y.pred r = 0)
      ∧ y = { x with v := y.v, p := y.p, vl := 0, vtype := 0, vcsr := 0, power := .cold, vepc := y.vepc, vstart := y.vstart, vcause := y.vcause
                     vaddr := y.vaddr, cnt := tabSet 0 x.cnt 2 (Nat.min (tabGet 0 x.cnt 2 + 1) (2 ^ 64 - 1)) }
      ∧ u.tile t = { s.tile t with lvu := y } ∧ s.otherTiles u t ∧ u = { s with tiles := u.tiles, freeCtr := s.freeCtr + 1 }))
  ∧ (∀ (s : State) (t : TileNo) (c n : Nat), s.runs t = true → s.lvuWanted t = true →
    ((s.tile t).lvu.power = .retention ∧ c = 300 ∧ n = 60 ∨ (s.tile t).lvu.power = .cold ∧ c = 6000 ∧ n = 1200) →
    c ≤ (s.tile t).acct.vector + (s.tile t).acct.unreserved →
    Completes (.islandWakeComplete t) s (fun u =>
      let x := (s.tile t).lvu
      u.tile t = { s.tile t with
        lvu := { x with power := .active, cnt := tabSet 0 x.cnt 3 (Nat.min (tabGet 0 x.cnt 3 + n) (2 ^ 64 - 1)) }
        acct := (s.tile t).acct.take .vector c }
      ∧ s.otherTiles u t ∧ u = { s with tiles := u.tiles, gov := { s.gov with spent := s.gov.spent + c } }))
  ∧ (∀ (s : State) (t : TileNo) (held rest : List SeamMsg) (g n : Nat) (set grp : Bool),
    (s.tile t).seam = held ++ (if grp then .grpGate g set n else .seqGate g set n) :: rest → (∀ m ∈ held, (s.tile t).seamHolds m = true) →
    (s.tile t).seamHolds (if grp then .grpGate g set n else .seqGate g set n) = false → g < 64 →
    Completes (.seamArrival t) s (fun u =>
      let old := if grp then (s.tile t).grp.gates else (s.tile t).eng.seq.gates
      let new := if grp then (u.tile t).grp.gates else (u.tile t).eng.seq.gates
      (u.tile t).seam = held ++ rest
      ∧ (gateVal new g = if set then n % 2 ^ 32 else Nat.min (gateVal old g + n) (2 ^ 32 - 1))
      ∧ (∀ h, h ≠ g → gateVal new h = gateVal old h)
      ∧ u.tile t = { s.tile t with seam := held ++ rest, grp := { (s.tile t).grp with gates := (u.tile t).grp.gates }
                                   eng := { (s.tile t).eng with seq := { (s.tile t).eng.seq with gates := (u.tile t).eng.seq.gates } } }
      ∧ (if grp then (u.tile t).eng.seq.gates = (s.tile t).eng.seq.gates else (u.tile t).grp.gates = (s.tile t).grp.gates)
      ∧ s.onlyTile u t))
  ∧ (∀ (s : State) (t : TileNo) (held rest : List SeamMsg) (b g n : Nat) (d : Bytes),
    (s.tile t).seam = held ++ .staged b d g n :: rest → (∀ m ∈ held, (s.tile t).seamHolds m = true) → (s.tile t).acct.arrayAsleep = false → g < 64 →
    Completes (.seamArrival t) s (fun u =>
      let y := (u.tile t).eng
      (∀ k, tabGet {} y.staging k = if k = b then { tabGet {} (s.tile t).eng.staging b with data := d } else tabGet {} (s.tile t).eng.staging k)
      ∧ (∀ h, gateVal y.seq.gates h = if h = g then Nat.min (gateVal (s.tile t).eng.seq.gates g + n) (2 ^ 32 - 1) else gateVal (s.tile t).eng.seq.gates h)
      ∧ u.tile t = { s.tile t with seam := held ++ rest, eng := { (s.tile t).eng with staging := y.staging, seq := { (s.tile t).eng.seq with gates := y.seq.gates } } }
      ∧ s.onlyTile u t))
  ∧ (∀ (s : State) (t : TileNo), (∀ m ∈ (s.tile t).seam, (s.tile t).seamHolds m = true) → Completes (.seamArrival t) s (fun u => u.tile t = s.tile t ∧ s.onlyTile u t))

/-! ### Thread groups (08) -/

/-- GLAUNCH after older stores writes the descriptor's fields as used back to the Pocket and queues the block under the next
ticket (status QUEUED), or refuses it with its cause where eight are queued or it can never fit. GSTAT, and GJOIN where the
block has ended or parked, answer the status of Table 8.4. GKILL ends a queued or resident block as KILLED. GREPLAY lets every
parked group that the mask names go on, but those parked with STOPPED. GPARKRD writes the record of Table 8.6 to the Pocket and
answers the status. GAREA answers 1 while a block is queued or resident, and else sets the area (its size clamped) and answers
0. What is not named is unchanged. The model's choices in it: assumptions 10, 22. -/
def Obligations.GroupControl : Prop :=
  (∀ (s : State) (t : TileNo) (user : Bool) (rd ra : Fin 32), s.coreReads t [rd, ra] [] = true → s.storesDue t = false →
    Completes (.glaunch t user rd ra) s (fun u =>
      let x := s.tile t
      let off := field (s.xreg t ra).toNat 20 6 * 64
      let b := x.descriptor off (!user)
      let full := decide (8 ≤ x.grp.queue.length)
      let big := decide (1024 < b.ngroups * b.nregu * 8 ∨ 16 * x.grp.areaSize < b.pocket)
      u.xreg t rd = (if rd = 0 then 0 else BitVec.ofNat 64 (if full then 4 * 2 ^ 61 + 0x10 * 2 ^ 48 else if big then 4 * 2 ^ 61 + 0x11 * 2 ^ 48 else x.grp.nextTicket.toNat))
      ∧ (∀ r, r ≠ rd.val → u.xreg t r = s.xreg t r)
      ∧ (u.tile t).pocket = ringWrite 2097152 x.pocket (off + 16) (b.usedBytes (memGet x.pocket (off + 22)).toNat)
      ∧ (u.tile t).grp = (if full || big then x.grp else
          { x.grp with queue := x.grp.queue ++ [{ b with ticket := x.grp.nextTicket }], nextTicket := ticketNext x.grp.nextTicket
                       cnt := tabSet 0 x.grp.cnt 0 (Nat.min (tabGet 0 x.grp.cnt 0 + 1) (2 ^ 64 - 1)) })
      ∧ u.tile t = { x with pocket := (u.tile t).pocket, eng := s.engSources u t, grp := (u.tile t).grp, core := { x.core with x := (u.tile t).core.x } }
      ∧ (x.eng.seq.flight = [] → (u.tile t).eng = x.eng ∧ u.freeCtr = s.freeCtr) ∧ s.otherTiles u t ∧ u = { s with tiles := u.tiles, freeCtr := u.freeCtr }))
  ∧ (∀ (s : State) (t : TileNo) (rd ra : Fin 32) (c : Instr), s.coreReads t [rd, ra] [] = true →
    (c = .gstat t rd ra ∨ c = .gjoin t rd ra ∧ (s.tile t).grp.joinWaits ((s.xreg t ra).setWidth 16) = false) →
    Completes c s (fun u => u = s.setX t rd ((s.tile t).grp.status ((s.xreg t ra).setWidth 16))))
  ∧ (∀ (s : State) (t : TileNo) (ra : Fin 32) (b : Block), s.coreReads t [ra] [] = true →
    ((s.tile t).grp.resident ++ (s.tile t).grp.queue).find? (fun b => decide (b.ticket = (s.xreg t ra).setWidth 16)) = some b →
    Completes (.gkill t ra) s (fun u =>
      let y := (u.tile t).grp
      (∀ g, u.group t g = if b.slots.contains g = true then none else s.group t g)
      ∧ y.records.head? = some ⟨b.ticket, true, b.cause⟩ ∧ y.resident = (s.tile t).grp.resident.filter (fun k => decide (k.ticket ≠ b.ticket))
      ∧ y.queue = (s.tile t).grp.queue.filter (fun k => decide (k.ticket ≠ b.ticket))
      ∧ (u.tile t).glide = (if b.doneGate < 64 then (s.tile t).glide.gateAdd b.doneGate 1 else (s.tile t).glide)
      ∧ (u.tile t).core = (if b.event then { (s.tile t).core with events := (s.tile t).core.events ++ [.group b.ticket], waiting := false, tsync := false } else (s.tile t).core)
      ∧ u.tile t = { s.tile t with grp := y, glide := (u.tile t).glide, seam := (u.tile t).seam, core := (u.tile t).core } ∧ s.blockEnded u t b))
  ∧ (∀ (s : State) (t : TileNo) (ra rb : Fin 32) (b : Block) (j g : Nat) (x : Group) (p : Park), s.coreReads t [ra, rb] [] = true →
    (s.tile t).grp.resident.find? (fun b => decide (b.ticket = (s.xreg t ra).setWidth 16)) = some b → b.slots[j]? = some g → b.slots.Nodup →
    s.group t g = some x → x.park = some p →
    Completes (.greplay t ra rb) s (fun u =>
      u.group t g = some (if (s.xreg t rb).getLsbD j = true ∧ p.cause ≠ 10 then { x with park := none, wdog := 0 } else x)
      ∧ (p.cause ≠ 10 → (s.xreg t rb).getLsbD j = true → ∀ c ∈ (u.tile t).grp.copies, c.ticket = b.ticket → c.slot = g → p.copy = some c.id → c.fault = none)
      ∧ (∀ h, h < 64 → b.slots.contains h = false → u.group t h = s.group t h) ∧ (u.tile t).core = (s.tile t).core ∧ s.onlyTile u t))
  ∧ (∀ (s : State) (t : TileNo) (rd ra rb : Fin 32) (b : Block) (g : Nat) (x : Group) (p : Park), s.coreReads t [rd, ra, rb] [] = true →
    (s.tile t).grp.resident.find? (fun b => decide (b.ticket = (s.xreg t ra).setWidth 16)) = some b →
    b.slots[(s.xreg t rb).toNat % 16]? = some g → s.group t g = some x → x.park = some p → x.pendingBar = false →
    Completes (.gparkrd t rd ra rb) s (fun u =>
      u.xreg t rd = (if rd = 0 then 0 else (s.tile t).grp.status ((s.xreg t ra).setWidth 16)) ∧ (∀ r, r ≠ rd.val → u.xreg t r = s.xreg t r)
      ∧ ringRead 2097152 (u.tile t).pocket (field (s.xreg t rb).toNat 20 6 * 64) 64 =
          natLe 8 x.pc.toNat ++ natLe 8 p.addr.toNat ++ natLe 8 x.running.toNat ++ natLe 8 x.live.toNat ++ natLe 2 p.flane ++ natLe 1 p.cause
          ++ natLe 1 x.stack.length ++ natLe 4 (if p.cause = 7 then x.wdog else 0) ++ natLe 8 p.copyCur.toNat ++ List.replicate 16 0
      ∧ u.tile t = { s.tile t with pocket := (u.tile t).pocket, eng := s.engSources u t, core := { (s.tile t).core with x := (u.tile t).core.x } }
      ∧ ((s.tile t).eng.seq.flight = [] → (u.tile t).eng = (s.tile t).eng ∧ u.freeCtr = s.freeCtr + 1)
      ∧ s.otherTiles u t ∧ u = { s with tiles := u.tiles, freeCtr := u.freeCtr }))
  ∧ (∀ (s : State) (t : TileNo) (rd ra : Fin 32), s.coreReads t [rd, ra] [] = true →
    Completes (.garea t rd ra) s (fun u =>
      let x := (s.tile t).grp
      let v := (s.xreg t ra).toNat
      let busy := !x.queue.isEmpty || !x.resident.isEmpty
      u.xreg t rd = (if busy && decide (rd ≠ 0) then 1 else 0) ∧ (∀ r, r ≠ rd.val → u.xreg t r = s.xreg t r)
      ∧ (u.tile t).grp = (if busy then x else { x with areaBase := v % 32, areaSize := Nat.min (v / 32 % 64) (32 - v % 32) })
      ∧ u.tile t = { s.tile t with grp := (u.tile t).grp, core := { (s.tile t).core with x := (u.tile t).core.x } } ∧ s.onlyTile u t))

/-- BLOCK_RESIDENT gives the head of the queue its slots, registers, Pocket bytes and Gates; every group starts at ENTRY with
all threads live and its six registers set. BLOCK_DONE ends the oldest block that is over, as DONE. BARRIER_COMPLETE releases a
group whose live threads all wait at GBAR, and the block's groups where all wait at BBAR. WATCHDOG_EXPIRY parks a group with a
pending barrier (DEADLOCK). SPIN_SWITCH puts the spinning path deepest in its set and runs the topmost one. GROUP_COPY_COMPLETE
drops a delivered copy and counts its Gate; GROUP_COPY_FAULT sets a copy back to its last complete 1 KiB and parks its group.
The model's choices in it: assumptions 10, 22. -/
def Obligations.BlockLife : Prop :=
  (∀ (s : State) (t : TileNo) (b : Block), s.vectorRuns t = true → (s.tile t).grp.canReside = some b →
    Completes (.blockResident t) s (fun u =>
      let y := (u.tile t).grp
      y.queue = (s.tile t).grp.queue.tail ∧ y.resident = (s.tile t).grp.resident ++ [b]
      ∧ (∀ h, b.slots.contains h = false → u.group t h = s.group t h)
      ∧ (∀ j, j < b.ngroups → u.group t (b.slots.getD j 0) = some (b.group j))
      ∧ (∀ g, b.gateBase ≤ g → g < b.gateBase + b.ngates → gateVal y.gates g = 0 ∧ gateVal (u.tile t).glide.gates g = 0 ∧ gateVal (u.tile t).eng.seq.gates g = 0)
      ∧ (∀ g, (g < b.gateBase ∨ b.gateBase + b.ngates ≤ g) → gateVal y.gates g = gateVal (s.tile t).grp.gates g
          ∧ gateVal (u.tile t).glide.gates g = gateVal (s.tile t).glide.gates g ∧ gateVal (u.tile t).eng.seq.gates g = gateVal (s.tile t).eng.seq.gates g)
      ∧ u.tile t = { s.tile t with
          grp := { (s.tile t).grp with queue := y.queue, resident := y.resident, slots := y.slots, gates := y.gates }
          glide := { (s.tile t).glide with gates := (u.tile t).glide.gates }
          eng := { (s.tile t).eng with seq := { (s.tile t).eng.seq with gates := (u.tile t).eng.seq.gates } }
          seam := (u.tile t).seam }
      ∧ s.onlyTile u t))
  ∧ (∀ (b : Block) (j l : Nat), j < 16 → l < 64 →
    (b.group j).pc = b.entry ∧ (b.group j).live = BitVec.allOnes 64 ∧ (b.group j).running = BitVec.allOnes 64 ∧ (b.group j).stack = []
    ∧ (b.group j).lanes 0 l 1 = 64 * j + l ∧ (b.group j).lanes 1 l 1 = j ∧ (b.group j).lanes 2 l 2 = b.arg.toNat
    ∧ (b.group j).lanes 4 l 1 = b.base % 2 ^ 32 ∧ (b.group j).lanes 5 l 1 = b.gateBase % 2 ^ 32)
  ∧ (∀ (s : State) (t : TileNo) (b : Block), s.runs t = true →
    (s.tile t).grp.resident.find? (fun b => (s.tile t).grp.blockOver b) = some b →
    Completes (.blockDone t) s (fun u =>
      let y := (u.tile t).grp
      (∀ g, u.group t g = if b.slots.contains g = true then none else s.group t g)
      ∧ y.records = (⟨b.ticket, false, b.cause⟩ :: (s.tile t).grp.records).take 8
      ∧ y.resident = (s.tile t).grp.resident.filter (fun k => decide (k.ticket ≠ b.ticket))
      ∧ (u.tile t).glide = (if b.doneGate < 64 then (s.tile t).glide.gateAdd b.doneGate 1 else (s.tile t).glide)
      ∧ (u.tile t).core = (if b.event then { (s.tile t).core with events := (s.tile t).core.events ++ [.group b.ticket], waiting := false, tsync := false } else (s.tile t).core)
      ∧ u.tile t = { s.tile t with grp := y, glide := (u.tile t).glide, seam := (u.tile t).seam, core := (u.tile t).core } ∧ s.blockEnded u t b))
  ∧ (∀ (s : State) (t : TileNo) (g : Fin 32) (x : Group) (b : Block), s.runs t = true → s.group t g = some x →
    (s.tile t).grp.blockOf g = some b → x.live ≠ 0 → x.allWait false = true →
    Completes (.barrierComplete t g) s (fun u => u = s.onGroup t g (fun _ => x.release false)))
  ∧ (∀ (s : State) (t : TileNo) (g : Fin 32) (x : Group) (b : Block), s.runs t = true → s.group t g = some x →
    (s.tile t).grp.blockOf g = some b → x.live ≠ 0 → x.allWait false = false → (s.tile t).grp.blockWaits b = true → b.slots.Nodup →
    Completes (.barrierComplete t g) s (fun u =>
      (∀ k, k < 32 → u.group t k = if b.slots.contains k = true then (s.group t k).map (fun z => z.release true) else s.group t k) ∧ s.onlyTile u t))
  ∧ (∀ (x : Group) (e : PathEntry) (pc m : U64) (blk : Bool) (a : Nat), x.bbar = false → e = .barrier pc m blk a → x.stack = [e] →
    x.release blk = { x with pc := pc, running := m, stack := [], wdog := 0 } ∧ (x.allWait blk = true ↔ m = x.live))
  ∧ (∀ (s : State) (t : TileNo) (g : Fin 32) (x : Group) (b : Block), s.runs t = true → s.group t g = some x → x.pendingBar = true → x.park = none →
    (s.tile t).grp.blockOf g = some b →
    Completes (.watchdogExpiry t g) s (fun u =>
      u.group t g = some { x with wdog := 2 ^ 20, park := some { cause := 7 } } ∧ (∀ h, h ≠ g.val → u.group t h = s.group t h)
      ∧ (u.tile t).core.events = (s.tile t).core.events ++ (if b.event then [.group b.ticket] else []) ∧ s.onlyTile u t))
  ∧ (∀ (s : State) (t : TileNo) (g : Fin 32) (x : Group) (pc m : U64) (q : List PathEntry), s.runs t = true → s.group t g = some x →
    x.spin = true → x.park = none → popPath (pathSet x.stack).1 = some (pc, m, q) →
    Completes (.spinSwitch t g) s (fun u => u = s.onGroup t g (fun _ =>
      { x with spin := false, pc := pc, running := m, stack := q ++ (.path x.pc x.running :: (pathSet x.stack).2) })))
  ∧ (∀ (s : State) (t : TileNo) (c : GCopyJob), (s.tile t).grp.copies.find? (fun c => !c.busy && (decide (c.len ≤ c.cursor) || (c.killed && c.fault.isSome))) = some c →
    Completes (.groupCopyComplete t) s (fun u =>
      (u.tile t).grp = { (s.tile t).grp with copies := (s.tile t).grp.copies.filter (fun d => decide (d.id ≠ c.id)) }
      ∧ (u.tile t).glide = (if c.killed then (s.tile t).glide else (s.tile t).glide.gateAdd c.gate 1)
      ∧ u.tile t = { s.tile t with grp := (u.tile t).grp, glide := (u.tile t).glide, seam := (u.tile t).seam } ∧ s.onlyTile u t))
  ∧ (∀ (s : State) (t : TileNo) (c : GCopyJob) (cause : Nat) (va : U64) (x : Group) (b : Block), (s.tile t).grp.copies.find? (fun c => s.copyParks t c) = some c →
    c.fault = some (cause, va) → s.group t c.slot = some x → (s.tile t).grp.blockOf c.slot = some b →
    Completes (.groupCopyFault t) s (fun u =>
      u.group t c.slot = some { x with park := some { cause := if cause = 3 then 3 else 9, addr := va, copyCur := BitVec.ofNat 64 (c.cursor / 1024 * 1024), copy := some c.id } }
      ∧ (u.tile t).grp.copies = (s.tile t).grp.copies.map (fun d => if d.id = c.id then { d with cursor := c.cursor / 1024 * 1024 } else d)
      ∧ (u.tile t).core.events = (s.tile t).core.events ++ (if b.event then [.group b.ticket] else []) ∧ s.onlyTile u t))

/-- GROUP_ARITH, GSHFL, GVOTE, GRED and GMMA of a group that can issue write their destination in the running threads only, and
go on at the next instruction; GFENCE only goes on. A shuffle from a thread that is not running yields zero; GVOTE gives every
thread the mask of non-zero values; GRED gives the sum modulo 2^32 (and a maximum or minimum where signed and unsigned order
agree). GMMA needs a converged group and parks others with DIVCOLL (its element layout is the separate reference's). GCOPY
queues a copy with the operands of the lowest-numbered running thread, clamped, or parks with BADGATE. Forms that do not exist
park with ILLEGAL. One constant is the rounding mode of fixed-point work (assumption 85), and bits above narrower results are
free. The model's choices in it: assumptions 1, 3, 22, 68, 85. -/
def Obligations.GroupArithmeticAndCollectives : Prop :=
  (∀ (s : State) (t : TileNo) (g : Fin 32) (o : GArith) (rd ra rb rc : GReg) (x : Group) (b : Block), garithOk o rd ra rb rc = true →
    s.groupIssues t g x b (groupOcc o) (garithRegs o rd ra rb rc) →
    Completes (.groupArith t g o rd ra rb rc) s (fun u =>
      let s1 := s.fetched t x b
      let y := (u.group t g).getD {}
      s1.groupDone u t g (groupOcc o) y
      ∧ x.wrote y rd (garithSpan o) (fun l => garithVal s1.freeCtr (garith b x o rd ra rb rc l) l) ∧ x.wentOn y (x.pc + 8)))
  ∧ (∀ (b : Block) (x : Group) (rd ra rb rc : GReg) (l : Nat) (op : VIntOp) (c : Fin 3), garithOk (.int op c) rd ra rb rc = true →
    garith b x (.int op c) rd ra rb rc l =
      (let w := 8 * 2 ^ c.val
       let p := x.lanes ra l 1 % 2 ^ w
       let q := x.lanes rb l 1 % 2 ^ w
       if cmpWrites op = true then (flag ((intCmp op w p q).getD false), 32) else (intOp op w p q, w)))
  ∧ (∀ (b : Block) (x : Group) (rd ra rb rc : GReg) (l : Nat) (f : VFmt) (op : FpOp), garithOk (.fp f op) rd ra rb rc = true →
    (garith b x (.fp f op) rd ra rb rc l).1 =
      (let w := VFmt.width f
       let v := fun r => x.lanes r l ((w + 31) / 32) % 2 ^ w
       match op with
       | .cvt p q => (fpCvt b.strict (rmOfBits b.frm) p q (x.lanes ra l ((VFmt.width p + 31) / 32) % 2 ^ VFmt.width p)).bits
       | _ => (fpEval b.strict (VFmt.fmt f) (rmOfBits b.frm) op (v ra) (v rb) (v rc)).bits))
  ∧ (∀ (s : State) (t : TileNo) (g : Fin 32) (o : GArith) (rd ra rb rc : GReg) (x : Group) (b : Block), garithOk o rd ra rb rc = false →
    s.groupIssues t g x b 1 [] →
    Completes (.groupArith t g o rd ra rb rc) s (fun u => (s.fetched t x b).groupParked u t g 1 b x { cause := 5 }))
  ∧ (∀ (s : State) (t : TileNo) (g : Fin 32) (x : Group) (b : Block), s.groupIssues t g x b 1 [] →
    Completes (.gfence t g) s (fun u => (s.fetched t x b).groupDone u t g 1 { x with pc := x.pc + 8 }))
  ∧ (∀ (s : State) (t : TileNo) (g : Fin 32) (rd ra rb : GReg) (x : Group) (b : Block), s.groupIssues t g x b 4 [rd, ra, rb] →
    Completes (.gshfl t g rd ra rb) s (fun u =>
      let s1 := s.fetched t x b
      let y := (u.group t g).getD {}
      s1.groupDone u t g 4 y ∧ x.wentOn y (x.pc + 8)
      ∧ x.wrote y rd 1 (fun l => if x.running.getLsbD (x.lanes rb l 1 % 64) then x.lanes ra (x.lanes rb l 1 % 64) 1 else 0)))
  ∧ (∀ (s : State) (t : TileNo) (g : Fin 32) (rd ra : GReg) (x : Group) (b : Block), s.groupIssues t g x b 1 [rd.val, rd.val + 1, ra.val] →
    Completes (.gvote t g rd ra) s (fun u =>
      let s1 := s.fetched t x b
      let y := (u.group t g).getD {}
      s1.groupDone u t g 1 y ∧ x.wentOn y (x.pc + 8)
      ∧ (∀ l k, l < 64 → k < 64 → x.running.getLsbD l = true → (y.lanes rd l 2).testBit k = (x.running.getLsbD k && decide (x.lanes ra k 1 ≠ 0)))
      ∧ (∀ l, l < 64 → x.running.getLsbD l = false → y.lanes rd l 2 = x.lanes rd l 2)
      ∧ (∀ k, (k < rd.val ∨ rd.val + 2 ≤ k) → y.reg k = x.reg k)))
  ∧ (∀ (s : State) (t : TileNo) (g : Fin 32) (rd ra : GReg) (imm : BitVec 16) (x : Group) (b : Block), imm.toNat % 4 ≠ 3 → s.groupIssues t g x b 2 [rd, ra] →
    Completes (.gred t g rd ra imm) s (fun u =>
      let s1 := s.fetched t x b
      let y := (u.group t g).getD {}
      let vals := ((List.range 64).filter (fun l => x.running.getLsbD l)).map (fun l => x.lanes ra l 1)
      let signed := vals.map (fun v => v ^^^ 0x80000000)
      let pick := fun (f : Nat → Nat → Nat) (l : List Nat) => l.foldl f (l.headD 0)
      s1.groupDone u t g 2 y ∧ x.wentOn y (x.pc + 8)
      ∧ (∀ k, k ≠ rd.val → y.reg k = x.reg k) ∧ (∀ l, l < 64 → x.running.getLsbD l = false → y.lanes rd l 1 = x.lanes rd l 1)
      ∧ (∀ l, l < 64 → x.running.getLsbD l = true →
          if imm.toNat % 4 = 0 then y.lanes rd l 1 = sumNat vals % 2 ^ 32
          else y.lanes rd l 1 = pick (if imm.toNat % 4 = 1 then Nat.max else Nat.min) vals
            ∨ y.lanes rd l 1 = (pick (if imm.toNat % 4 = 1 then Nat.max else Nat.min) signed) ^^^ 0x80000000)))
  ∧ (∀ (s : State) (t : TileNo) (g : Fin 32) (bf : Bool) (rd ra rb rc : GReg) (x : Group) (b : Block),
    s.groupIssues t g x b 32 (spanOf rd 4 ++ spanOf ra 2 ++ spanOf rb 2 ++ spanOf rc 4) →
    Completes (.gmma t g bf rd ra rb rc) s (fun u =>
      let s1 := s.fetched t x b
      let y := (u.group t g).getD {}
      if x.converged then s1.groupDone u t g 32 y ∧ x.wentOn y (x.pc + 8) ∧ (∀ k, (k < rd.val ∨ rd.val + 4 ≤ k) → y.reg k = x.reg k)
      else s1.groupParked u t g 32 b x { cause := 6 }))
  ∧ (∀ (s : State) (t : TileNo) (g : Fin 32) (addr off len : GReg) (store : Bool) (gate : BitVec 16) (x : Group) (b : Block),
    (s.tile t).grp.copies.length < 32 → s.groupIssues t g x b 1 (spanOf addr 2 ++ [off.val, len.val]) →
    Completes (.gcopy t g addr off len store gate) s (fun u =>
      let s1 := s.fetched t x b
      if b.ngates ≤ gate.toNat then s1.groupParked u t g 1 b x { cause := 8 }
      else
        let o := x.lanes off x.low 1
        u.group t g = some { x with pc := x.pc + 8 } ∧ s1.groupFrame u t g 1
        ∧ (u.tile t).grp.copies = (s1.tile t).grp.copies ++ [{ id := (s1.tile t).grp.nextCopy, ticket := b.ticket, slot := g, va := BitVec.ofNat 64 (x.lanes addr x.low 2), off := b.base + o, len := Nat.min (Nat.min (x.lanes len x.low 1) 65536) (4096 * b.pocket - o), store := store, gate := b.gateBase + gate.toNat, tctx := b.tctx, kernel := b.kernel }]
        ∧ u.tile t = { s1.tile t with acct := (u.tile t).acct, grp := (u.tile t).grp }))

/-- With every running thread's access in the Pocket (within a line): GROUP_LOAD gives each running thread the bytes at its own
address (narrower signed ones sign-extended to 32 bits); GROUP_STORE leaves in each byte what the highest-numbered running
thread that covers it stores; GROUP_ATOMIC executes once for each running thread in increasing lane order, each thread getting
the old value that it found. The group goes on at the next instruction; threads that do not run, other registers, other bytes
and other groups are unchanged. Where the first running thread's access faults, the group parks with the cause, the address and
the lane, and a page fault is counted. The model's choices in it: assumptions 3, 22, 73. -/
def Obligations.GroupMemory : Prop :=
  (∀ (s : State) (t : TileNo) (g : Fin 32) (size : Fin 4) (signed : Bool) (rd base : GReg) (pair : Bool) (off : BitVec 16) (x : Group) (b : Block),
    s.groupMemory t g x b ⟨.load size signed rd, base, pair, off⟩ .read → x.inPocket ⟨.load size signed rd, base, pair, off⟩ →
    Completes (.groupLoad t g size signed rd base pair off) s (fun u =>
      let s1 := s.fetched t x b
      let o : GMemOp := ⟨.load size signed rd, base, pair, off⟩
      let y := (u.group t g).getD {}
      x.wrote y rd (if size = 3 then 2 else 1) (fun l =>
        let v := leNat (ringRead 2097152 (s1.tile t).pocket ((x.va o l).toNat - 0x1FFFFFFFFE00000) (2 ^ size.val))
        if signed ∧ size.val < 2 then ofSigned 32 (toSigned (8 * 2 ^ size.val) v) else v)
      ∧ x.wentOn y (x.pc + 8) ∧ (u.group t g).isSome = true ∧ (u.tile t).pocket = (s1.tile t).pocket ∧ (u.tile t).core = (s1.tile t).core
      ∧ s1.groupMemFrame u t g 0))
  ∧ (∀ (s : State) (t : TileNo) (g : Fin 32) (size : Fin 4) (rs base : GReg) (pair : Bool) (off : BitVec 16) (x : Group) (b : Block),
    s.groupMemory t g x b ⟨.store size rs, base, pair, off⟩ .write → x.inPocket ⟨.store size rs, base, pair, off⟩ →
    Completes (.groupStore t g size rs base pair off) s (fun u =>
      let s1 := s.fetched t x b
      let o : GMemOp := ⟨.store size rs, base, pair, off⟩
      let at_ := fun l => (x.va o l).toNat - 0x1FFFFFFFFE00000
      u.group t g = some { x with pc := x.pc + 8 }
      ∧ (∀ k, k < 2097152 → memGet (u.tile t).pocket k =
          match (List.range 64).reverse.find? (fun l => x.running.getLsbD l && decide (at_ l ≤ k ∧ k < at_ l + 2 ^ size.val)) with
          | some l => BitVec.ofNat 8 (x.lanes rs l 2 / 2 ^ (8 * (k - at_ l)))
          | none => memGet (s1.tile t).pocket k)
      ∧ s1.groupMemFrame u t g 0))
  ∧ (∀ (s : State) (t : TileNo) (g : Fin 32) (op : AtomOp) (size : Fin 5) (rd rs base : GReg) (rc : Option GReg) (pair : Bool) (off imm : BitVec 16) (x : Group) (b : Block),
    s.groupMemory t g x b ⟨.atomic op size rd rs rc imm, base, pair, off⟩ .atomic → x.inPocket ⟨.atomic op size rd rs rc imm, base, pair, off⟩ →
    Completes (.groupAtomic t g op size rd rs base rc pair off imm) s (fun u =>
      let s1 := s.fetched t x b
      let o : GMemOp := ⟨.atomic op size rd rs rc imm, base, pair, off⟩
      let n := 2 ^ size.val
      let at_ := fun l => (x.va o l).toNat - 0x1FFFFFFFFE00000
      let v := fun l => x.lanes rs l (n / 4)
      let cmp := fun l => match rc with | some r => x.lanes r l (n / 4) | none => imm.toNat
      let run := fun k => (List.range k).filter (fun l => x.running.getLsbD l)
      let y := (u.group t g).getD {}
      x.wrote y rd (n / 4) (fun l => leNat (ringRead 2097152 (atomicsOn op n at_ v cmp (run l) (s1.tile t).pocket) (at_ l) n))
      ∧ x.wentOn y (x.pc + 8) ∧ (u.group t g).isSome = true ∧ (u.tile t).pocket = atomicsOn op n at_ v cmp (run 64) (s1.tile t).pocket
      ∧ s1.groupMemFrame u t g (run 64).length))
  ∧ (∀ (s s2 : State) (t : TileNo) (g : Fin 32) (o : GMemOp) (c : Instr) (k : XKind) (x : Group) (b : Block) (l : Nat) (f : Side) (a : U64),
    (match o.kind with
      | .load n sg rd => decide (c = .groupLoad t g n sg rd o.base o.pair o.off ∧ k = .read)
      | .store n rs => decide (c = .groupStore t g n rs o.base o.pair o.off ∧ k = .write)
      | .atomic op n rd rs rc imm => decide (c = .groupAtomic t g op n rd rs o.base rc o.pair o.off imm ∧ k = .atomic)) = true →
    s.groupMemory t g x b o k → nextLane x.running 0 = some l → (isAtomicOp o = true → (x.va o l).toNat % gsize o.kind = 0) →
    (s.gmemBegun t g x b o k).accessFault t .lvu b.tctx b.kernel k (x.va o l) (gsize o.kind) = some (f, a, s2) → f.walking? = none →
    Completes c s (fun u =>
      let s1 := s.fetched t x b
      ((u.group t g).map (fun y => y.park)) = some (some { cause := (match f with | .page => 1 | .uncorr => 3 | .window _ => 4 | _ => 2), addr := a, flane := l })
      ∧ ((u.group t g).map (fun y => (y.pc, y.regs))) = some (x.pc, x.regs)
      ∧ ((u.group t g).map (fun y => y.mem)) = some (match f with | .uncorr => none | .window _ => none | _ => some { op := o, lane := l })
      ∧ (u.tile t).core.events = (s2.tile t).core.events ++ (if b.event then [.group b.ticket] else [])
      ∧ (f = .page → tabGet 0 (u.tile t).xlat.cnt 2 = Nat.min (tabGet 0 (s1.tile t).xlat.cnt 2 + 1) (2 ^ 64 - 1))
      ∧ (u.tile t).pocket = (s1.tile t).pocket ∧ (∀ h, h ≠ g.val → u.group t h = s1.group t h)
      ∧ u.tile t = { s2.tile t with
          grp := { (s2.tile t).grp with slots := (u.tile t).grp.slots, cnt := (u.tile t).grp.cnt, resident := (u.tile t).grp.resident }, core := (u.tile t).core }
      ∧ s2.otherTiles u t ∧ u = { s2 with tiles := u.tiles, freeCtr := s2.freeCtr + 1 }))

/-- GBRA, GBRC, GMARK, GSYNC, SPIN, GBAR, BBAR, GEXIT, GTRAP, GWAITG and GWAITGD of a group that can issue, on its path stack as
the rules say: a divergent GBRC runs the threads that take the branch and keeps the others as a path; GMARK pushes its mark;
both park with STACKOVF on a full stack of 16. GSYNC runs the topmost path of the path set, or the mark's target with the
threads that are live and at no barrier, or goes on. GEXIT removes the running threads from the live mask and every entry and
continues as GSYNC does. GBAR in a converged group goes on and BBAR waits; in a diverged one the path becomes the deepest entry
of its set. A Gate wait goes on when the Gate holds the value, which GWAITGD takes from it, and parks with BADGATE for a Gate
that the block does not have. One whose fetch faults parks with the cause and the address. The 64-bit word of an instruction has
its fields and classes at the places of R202. The model's choices in it: assumption 22. -/
def Obligations.GroupControlFlow : Prop :=
  (∀ (s : State) (t : TileNo) (g : Fin 32) (imm : BitVec 16) (x : Group) (b : Block), s.groupIssues t g x b 1 [] →
    Completes (.gbra t g imm) s (fun u => (s.fetched t x b).groupDone u t g 1 { x with pc := x.pc + (imm.signExtend 64) * 8 }))
  ∧ (∀ (s : State) (t : TileNo) (g : Fin 32) (ra : GReg) (imm : BitVec 16) (x : Group) (b : Block), s.groupIssues t g x b 1 [ra] →
    Completes (.gbrc t g ra imm) s (fun u =>
      let s1 := s.fetched t x b
      let m := x.nonzero ra
      if m = 0 then s1.groupDone u t g 1 { x with pc := x.pc + 8 }
      else if m = x.running then s1.groupDone u t g 1 { x with pc := x.pc + (imm.signExtend 64) * 8 }
      else if 16 ≤ x.stack.length then s1.groupParked u t g 1 b x { cause := 12 }
      else s1.groupDone u t g 1 { x with pc := x.pc + (imm.signExtend 64) * 8, running := m, stack := .path (x.pc + 8) (x.running &&& ~~~m) :: x.stack }))
  ∧ (∀ (x : Group) (ra : GReg) (l : Nat), l < 64 → (x.nonzero ra).getLsbD l = (x.running.getLsbD l && decide (x.lanes ra l 1 ≠ 0)))
  ∧ (∀ (s : State) (t : TileNo) (g : Fin 32) (imm : BitVec 16) (x : Group) (b : Block), s.groupIssues t g x b 1 [] →
    Completes (.gmark t g imm) s (fun u =>
      let s1 := s.fetched t x b
      if 16 ≤ x.stack.length then s1.groupParked u t g 1 b x { cause := 12 }
      else s1.groupDone u t g 1 { x with pc := x.pc + 8, stack := .mark (x.pc + (imm.signExtend 64) * 8) x.running :: x.stack }))
  ∧ (∀ (s : State) (t : TileNo) (g : Fin 32) (x : Group) (b : Block), s.groupIssues t g x b 1 [] →
    Completes (.gsync t g) s (fun u => (s.fetched t x b).groupDone u t g 1
      (match popPath (pathSet x.stack).1, (pathSet x.stack).2 with
       | some (pc, m, q), r => { x with pc := pc, running := m, stack := q ++ r }
       | none, [] => { x with pc := x.pc + 8 }
       | none, _ => x.resync)))
  ∧ (∀ (s : State) (t : TileNo) (g : Fin 32) (imm : BitVec 16) (c : Instr) (x : Group) (b : Block), s.gready t g = some (x, b) → x.mem = none →
    ((s.fetched t x b).resolve t .lvu b.tctx b.kernel .fetch x.pc 8).faults = true → (c = .gfence t g ∨ c = .gbra t g imm ∨ c = .gsync t g ∨ c = .gexit t g) →
    Completes c s (fun u =>
      let s1 := s.fetched t x b
      u.group t g = some { x with park := some { cause := (match s1.resolve t .lvu b.tctx b.kernel .fetch x.pc 8 with | .page => 1 | .uncorr => 3 | .window _ => 4 | _ => 2), addr := x.pc } }
      ∧ (∀ h, h ≠ g.val → u.group t h = s1.group t h) ∧ (u.tile t).pocket = (s1.tile t).pocket ∧ (u.tile t).acct = (s1.tile t).acct))
  ∧ (∀ (x : Group) (target m : U64) (r : List PathEntry), m &&& x.live ≠ 0 → x.stack = .mark target m :: r → (∀ e ∈ r, isBarrier e = false) →
    x.resync = { x with pc := target, running := m &&& x.live, stack := r })
  ∧ (∀ (s : State) (t : TileNo) (g : Fin 32) (x : Group) (b : Block), s.groupIssues t g x b 1 [] →
    Completes (.spin t g) s (fun u => (s.fetched t x b).groupDone u t g 1 { x with pc := x.pc + 8, spin := (popPath (pathSet x.stack).1).isSome }))
  ∧ (∀ (s : State) (t : TileNo) (g : Fin 32) (block : Bool) (x : Group) (b : Block), s.groupIssues t g x b 1 [] →
    Completes (if block then .bbar t g else .gbar t g) s (fun u =>
      let s1 := s.fetched t x b
      if x.converged then s1.groupDone u t g 1 (if block then { x with bbar := true } else { x with pc := x.pc + 8 })
      else if 16 ≤ x.stack.length then s1.groupParked u t g 1 b x { cause := 12 }
      else
        let n := (s1.tile t).grp.arrivals
        u.group t g = some (Group.resync { x with running := 0, stack := (pathSet x.stack).1 ++ (PathEntry.barrier (x.pc + 8) x.running block n :: (pathSet x.stack).2) })
        ∧ (u.tile t).grp.arrivals = n + 1 ∧ s1.groupFrame u t g 1
        ∧ u.tile t = { s1.tile t with acct := (u.tile t).acct, grp := { (s1.tile t).grp with slots := (u.tile t).grp.slots, cnt := (u.tile t).grp.cnt, arrivals := n + 1 } }))
  ∧ (∀ (s : State) (t : TileNo) (g : Fin 32) (x : Group) (b : Block), s.groupIssues t g x b 1 [] →
    Completes (.gexit t g) s (fun u => (s.fetched t x b).groupDone u t g 1
      (Group.resync { x with live := x.live &&& ~~~x.running, stack := dropThreads x.running x.stack, running := 0 })))
  ∧ (∀ (s : State) (t : TileNo) (g : Fin 32) (x : Group) (b : Block), s.groupIssues t g x b 1 [] →
    Completes (.gtrap t g) s (fun u => (s.fetched t x b).groupParked u t g 1 b { x with pc := x.pc + 8 } { cause := 11 }))
  ∧ (∀ (s : State) (t : TileNo) (g : Fin 32) (rb : GReg) (imm : BitVec 16) (take : Bool) (x : Group) (b : Block), s.groupIssues t g x b 1 [rb] →
    imm.toNat % 64 < b.ngates → x.lanes rb x.low 1 ≤ gateVal (s.tile t).grp.gates (b.gateBase + imm.toNat % 64) →
    Completes (if take then .gwaitgd t g rb imm else .gwaitg t g rb imm) s (fun u =>
      let s1 := s.fetched t x b
      let k := b.gateBase + imm.toNat % 64
      let v := x.lanes rb x.low 1
      u.group t g = some { x with pc := x.pc + 8 } ∧ s1.groupFrame u t g 1
      ∧ gateVal (u.tile t).grp.gates k = gateVal (s1.tile t).grp.gates k - (if take then v else 0)
      ∧ (∀ j, j ≠ k → gateVal (u.tile t).grp.gates j = gateVal (s1.tile t).grp.gates j)
      ∧ (u.tile t).glide = (if take then (s1.tile t).glide.gateSub k v else (s1.tile t).glide)
      ∧ u.tile t = { s1.tile t with acct := (u.tile t).acct, grp := (u.tile t).grp, glide := (u.tile t).glide, seam := (u.tile t).seam, eng := (u.tile t).eng }))
  ∧ (∀ (s : State) (t : TileNo) (g : Fin 32) (rb : GReg) (imm : BitVec 16) (take : Bool) (x : Group) (b : Block), s.groupIssues t g x b 1 [rb] →
    b.ngates ≤ imm.toNat % 64 →
    Completes (if take then .gwaitgd t g rb imm else .gwaitg t g rb imm) s (fun u => (s.fetched t x b).groupParked u t g 1 b x { cause := 8 }))
  ∧ (∀ (rd ra rb rc : GReg) (fn : Fin 1024) (imm : BitVec 16) (op : Fin 64),
    let w := op.val * 2 ^ 58 + rd.val * 2 ^ 50 + ra.val * 2 ^ 42 + rb.val * 2 ^ 34 + rc.val * 2 ^ 26 + fn.val * 2 ^ 16 + imm.toNat
    groupWord w =
      if op = 0x35 then .arithmetic fn.val rd ra rb rc imm.toNat
      else if op = 0x36 then .memory fn.val rd ra rb rc imm.toNat
      else if op ≠ 0x37 then .illegal
      else if fn = 0x000 then .gbra imm.toNat else if fn = 0x001 then .gbrc ra imm.toNat else if fn = 0x002 then .gmark imm.toNat
      else if fn = 0x003 then .gsync else if fn = 0x004 then .spin else if fn = 0x005 then .gbar else if fn = 0x006 then .bbar
      else if fn = 0x007 then .gexit else if fn = 0x008 then .gtrap else if fn = 0x009 then .gwaitg rb imm.toNat
      else if fn = 0x00A then .gwaitgd rb imm.toNat else if fn = 0x010 then .gshfl rd ra rb else if fn = 0x011 then .gvote rd ra
      else if fn = 0x012 then .gred rd ra imm.toNat else if fn = 0x020 then .gmma rd ra rb rc else .illegal)

/-! ### Glide, Gates and Stitch units (09) -/

/-- GSTART, GCREDIT, GHALT and GADD in the Glide slot of a head bundle that can begin act on the stream (or Gate) that the slot
names, under the engine stream's context, and the slot has taken effect. GSTART, GCREDIT, GHALT, GLIDE_RESUME and GLIDE_ABORT as
GCMD writes by a principal that reaches the tile's window do the same, under ETCTX; by any other principal, or on a fenced tile,
they have no effect. A command acts by the stream's state: credit is added up to the slots of the ring; HALT halts a RUNNING
stream when its tiles in flight are counted; RESUME restarts a HALTED stream, or a FAULTED one whose cause allows it; ABORT
makes a RUNNING or HALTED stream FAULTED with ABORTED, its key going with its last tile in flight (assumption 80); where the
state forbids it, REFUSED is set. START of an IDLE, DONE, HALTED or FAULTED stream reads, clamps and writes back the descriptor
and makes it RUNNING, or FAULTED with BADDESC; of a RUNNING or STOPPED one it is refused. The model's choices in it: assumptions
10, 26, 80. -/
def Obligations.GlideStreamCommands : Prop :=
  (∀ (c : Instr) (op : Nat) (t : TileNo) (s s1 s2 : State) (b : BitVec 256) (st : Stream) (i : Nat) (x : Issuing), s.slotOpens t 3 op b s1 st i x →
    (op = 1 ∧ c = .gstart t .bundle ∧ s2 = s1.gStartCmd t (gStream (slotG b)) ((qGet x.q (gDreg (slotG b)) + gDoff (slotG b) * 64) % 2097152) st.tctx st.kernel
      ∨ op = 2 ∧ c = .gcredit t .bundle ∧ s2 = s1.gCreditCmd t (gStream (slotG b)) (gCount (slotG b))
      ∨ op = 3 ∧ c = .ghalt t .bundle ∧ s2 = s1.gHaltCmd t (gStream (slotG b))
      ∨ op = 4 ∧ c = .gadd t ∧ s2 = s1.gateAdd t (gGate (slotG b)) (gCount (slotG b))) →
    Completes c s (fun u => s2.slotTook u t 3 b x (s2.island t)))
  ∧ (∀ (s : State) (p : Principal) (t : TileNo) (i : Fin 16) (a : U64), s.glideAccess p t true = true → s.fenced t = false →
    Completes (.gstart t (.window p i a)) s (fun u => u = s.gStartCmd t i (a.toNat / 2 ^ 32 % 2 ^ 21) (s.tile t).xlat.etctx ((s.tile t).xlat.etctx.getLsbD 62))
    ∧ Completes (.gcredit t (.window p i a)) s (fun u => u = s.gCreditCmd t i (a.toNat % 2 ^ 20))
    ∧ Completes (.ghalt t (.window p i a)) s (fun u => u = s.gHaltCmd t i)
    ∧ Completes (.glideResume p t i) s (fun u => u = s.gResumeCmd t i)
    ∧ Completes (.glideAbort p t i) s (fun u => u = s.gAbortCmd t i))
  ∧ (∀ (s : State) (p : Principal) (t : TileNo) (i : Fin 16) (a : U64) (c : Instr), (s.glideAccess p t true = false ∨ s.fenced t = true) →
    (c = .gstart t (.window p i a) ∨ c = .gcredit t (.window p i a) ∨ c = .ghalt t (.window p i a) ∨ c = .glideResume p t i ∨ c = .glideAbort p t i) →
    Completes c s (fun u => u = s))
  ∧ (∀ (s : State) (t i n : Nat), i < 16 →
    let x := s.stream t i
    let u := s.gCreditCmd t i n
    u.stream t i = { x with credit := if x.state ≠ .idle ∧ dRkind x.desc = true then x.credit
                                      else BitVec.ofNat 8 (Nat.min (x.credit.toNat + n) (if x.state = .idle then 64 else dNslot x.desc)) }
    ∧ (∀ j, j ≠ i → u.stream t j = s.stream t j) ∧ s.onlyTile u t)
  ∧ (∀ (s : State) (t i : Nat), i < 16 →
    let x := s.stream t i
    let u := s.gHaltCmd t i
    u.stream t i = (if x.state ≠ .running then x
      else if x.flight = [] then (if x.stopping then { x with state := .stopped, stopping := false, halting := false, nextTile := x.cursor.toNat }
        else { x with state := .halted, halting := false, nextTile := x.cursor.toNat })
      else { x with halting := true })
    ∧ (∀ j, j ≠ i → u.stream t j = s.stream t j) ∧ s.onlyTile u t)
  ∧ (∀ (s : State) (t i : Nat), i < 16 →
    let x := s.stream t i
    let u := s.gResumeCmd t i
    u.stream t i = (if x.state = .halted ∨ x.state = .faulted ∧ x.cause ≠ 6 ∧ x.cause ≠ 7 ∧ x.cause ≠ 8 ∧ x.cause ≠ 10
      then { x with state := .running, cause := 0, nextTile := x.cursor.toNat, aborting := false, flight := [] } else { x with refused := true })
    ∧ (∀ j, j ≠ i → u.stream t j = s.stream t j) ∧ s.onlyTile u t)
  ∧ (∀ (s : State) (t i : Nat), i < 16 →
    let x := s.stream t i
    let u := s.gAbortCmd t i
    let kept := if x.flight = [] then none else x.key
    u.stream t i = (match x.state with
      | .running => { x with state := .faulted, cause := 10, key := kept, keyDue := false, halting := false, aborting := true }
      | .halted => { x with state := .faulted, cause := 10, key := kept, keyDue := false, halting := false, aborting := true }
      | .faulted => { x with cause := 10, key := kept, keyDue := false }
      | .stopped => { x with refused := true }
      | _ => x)
    ∧ (u.tile t).core.events = (s.tile t).core.events ++ (if x.state = .running ∨ x.state = .halted then [.glide i] else [])
    ∧ (∀ j, j ≠ i → u.stream t j = s.stream t j) ∧ s.onlyTile u t)
  ∧ (∀ (s : State) (t i off : Nat) (ctx : U64) (kernel : Bool) (d : List U64), i < 16 → (s.stream t i).state ≠ .running → (s.stream t i).state ≠ .stopped →
    d = clampDesc ((List.range 8).map (fun w => BitVec.ofNat 64 (leNat (ringRead 2097152 (s.tile t).pocket (off % 2097152 / 64 * 64 + 8 * w) 8)))) →
    (badDesc d = true ∨ dCmode d = 0) →
    let u := s.gStartCmd t i off ctx kernel
    let x := u.stream t i
    x.desc = d ∧ x.cursor = 0 ∧ x.flight = [] ∧ x.nextTile = 0 ∧ x.tctx = ctx ∧ x.kernel = kernel ∧ x.refused = false
    ∧ x.state = (if badDesc d then .faulted else .running) ∧ x.cause = (if badDesc d then 8 else 0)
    ∧ (badDesc d = false → x.credit.toNat = dCredit d % 256
        ∧ (u.tile t).pocket = ringWrite 2097152 (ringWrite 2097152 (s.tile t).pocket (off % 2097152 / 64 * 64 + 16) (natLe 8 (dWord d 2))) (off % 2097152 / 64 * 64 + 48) (natLe 8 (dWord d 6)))
    ∧ (∀ j, j < 16 → j ≠ i → u.stream t j = s.stream t j) ∧ s.otherTiles u t ∧ u = { s with tiles := u.tiles, freeCtr := u.freeCtr }
    ∧ ((s.tile t).eng.seq.flight = [] → (u.tile t).eng = (s.tile t).eng ∧ u.freeCtr = s.freeCtr))
  ∧ (∀ (s : State) (t i off : Nat) (ctx : U64) (kernel : Bool), ((s.stream t i).state = .running ∨ (s.stream t i).state = .stopped) →
    s.gStartCmd t i off ctx kernel = s.setStream t i { s.stream t i with refused := true })

/-- GLIDE_TILE_START puts the next tile of a stream that can start one in flight and takes its credit. GLIDE_REQUEST_ISSUE
serves the next requester in rotation: a plain tile that reads memory and writes its Pocket ring moves the bytes of one request,
neither more nor less, and changes no other byte (its address is looked up first, and the tile keeps the translation that it has
used). TILE_COUNTED counts the oldest tile whose bytes have all landed: the cursor advances, its Stitch units absorb it, its
Gate increases unless NOGATE, and with its last tile the stream is DONE (raising its event where it asks for one).
GLIDE_STREAM_FAULT makes a stream whose oldest tile met a fault FAULTED with its cause; tiles in flight give back their credit
and are not counted. The model's choices in it: assumptions 4, 26. -/
def Obligations.GlideTiles : Prop :=
  (∀ (s : State) (t : TileNo) (i : Fin 16), s.runs t = true → (s.stream t i).canStart = true →
    (dGathers (s.stream t i).desc = false ∨ dKsrc (s.stream t i).desc ≠ 0) →
    Completes (.glideTileStart t i) s (fun u =>
      let x := s.stream t i
      u.stream t i = { x with flight := x.flight ++ [{ k := x.nextTile }], nextTile := x.nextTile + 1
                              credit := if dRkind x.desc then x.credit else x.credit - 1 }
      ∧ u.tile t = { s.tile t with glide := { (s.tile t).glide with streams := (u.tile t).glide.streams }
                                   xlat := { (s.tile t).xlat with misses := (u.tile t).xlat.misses, cnt := (u.tile t).xlat.cnt } }
      ∧ (∀ j, j < 16 → j ≠ i.val → u.stream t j = s.stream t j) ∧ s.onlyTile u t))
  ∧ (∀ (s s1 : State) (t : TileNo) (i : Fin 16) (j : TileJob) (n a : Nat) (shr : Bool), s.ready = true → s.fenced t = false →
    (s.tile t).glide.reqs.length < 512 → (rrOrder (s.tile t).glide.rr).find? (fun q => s.wantsGlide t q) = some i.val →
    (s.stream t i).keyDue = false → (s.stream t i).nextJob = some j → dGathers (s.stream t i).desc = false → dDir (s.stream t i).desc = false → dRkind (s.stream t i).desc = false →
    j.second = false → (∀ f ∈ (s.stream t i).flight, f.tagBad = false) → n = requestLen (s.stream t i).desc j j.next →
    s1 = s.glideReads t i j → (s1.glideSide t (s1.stream t i) true .read j.k j.next n).1 = .mem a shr → s1.quietAt a n →
    s.jobCharge t i j ≤ (s.tile t).acct.memory + (s.tile t).acct.unreserved →
    Completes (.glideRequestIssue t false) s (fun u =>
      let x := s.stream t i
      let b := memRead s.mem.bytes a n
      (u.tile t).pocket = ringWrite 2097152 (s.tile t).pocket (dRing x.desc j.k j.next) b
      ∧ (∃ used : List XEntry, u.stream t i = { x with flight := x.flight.map (fun f =>
          if f.k = j.k then { f with next := j.next + n, plain := bytesPut f.plain j.next b, got := f.got + n, xl := f.xl ++ used } else f) })
      ∧ (u.tile t).glide.rr = i.val ∧ (u.tile t).glide.reqs = (s.tile t).glide.reqs
      ∧ (u.tile t).acct = (s.tile t).acct.take .memory (s.jobCharge t i j)
      ∧ u.mem.bytes = s.mem.bytes ∧ s1.otherTiles u t ∧ (u.tile t).core = (s1.tile t).core ∧ (u.tile t).eng = s.engSources u t))
  ∧ (∀ (s : State) (t : TileNo) (i : Fin 16) (j : TileJob) (r : List TileJob), (s.stream t i).flight = j :: r →
    (s.stream t i).state = .running → (s.stream t i).aborting = false → dGathers (s.stream t i).desc = false → (s.stream t i).halting = false →
    (s.stream t i).stopping = false → j.got = jobTotal (s.stream t i).desc j → j.fault = none →
    Completes (.tileCounted t i) s (fun u =>
      let x := s.stream t i
      let fin := decide ((x.cursor + 1).toNat = dTiles x.desc)
      u.stream t i = { x with flight := r, cursor := x.cursor + 1, state := if fin then .done else .running, key := if fin then none else x.key }
      ∧ (∀ k, k < 8 →
          let w := tabGet {} (s.tile t).glide.stitch k
          tabGet {} (u.tile t).glide.stitch k = if w.en && decide (w.stream = i)
            then { w with alive := w.alive + 1, sval := BitVec.ofNat 64 (stitchRun w.poly w.sval.toNat j.plain) } else w)
      ∧ (∀ g, gateVal (u.tile t).glide.gates g = if dNogate x.desc = false ∧ g = dGate x.desc then Nat.min (gateVal (s.tile t).glide.gates g + 1) (2 ^ 32 - 1)
          else gateVal (s.tile t).glide.gates g)
      ∧ (u.tile t).seam = (s.tile t).seam ++ (if dNogate x.desc then [] else [.seqGate (dGate x.desc) false 1, .grpGate (dGate x.desc) false 1])
      ∧ (u.tile t).core.events = (s.tile t).core.events ++ (if fin && dEvent x.desc then [.glide i.val] else [])
      ∧ u.tile t = { s.tile t with glide := (u.tile t).glide, seam := (u.tile t).seam, core := (u.tile t).core } ∧ s.onlyTile u t))
  ∧ (∀ (s : State) (t : TileNo) (i : Fin 16) (j : TileJob) (r : List TileJob) (cause : Nat) (va : U64), (s.stream t i).flight = j :: r →
    j.fault = some (cause, va) → (s.stream t i).aborting = false →
    Completes (.glideStreamFault t i) s (fun u =>
      let x := s.stream t i
      u.stream t i = { x with
        state := .faulted, cause := cause, flight := [], halting := false, stopping := false, aborting := false, nextTile := x.cursor.toNat
        credit := if dRkind x.desc then x.credit else BitVec.ofNat 8 (Nat.min (x.credit.toNat + (r.length + 1)) (dNslot x.desc))
        faddr := if cause = 1 ∨ cause = 2 then va else x.faddr, base := (s.tile t).glide.nextReq }
      ∧ (u.tile t).glide.gates = (s.tile t).glide.gates ∧ (u.tile t).core.events.getLast? = some (.glide i.val)
      ∧ (∀ k, k < 16 → k ≠ i.val → u.stream t k = s.stream t k)
      ∧ u.tile t = { s.tile t with glide := (u.tile t).glide, core := (u.tile t).core }
      ∧ (cause ≠ 4 ∧ cause ≠ 5 → (u.tile t).core.events = (s.tile t).core.events ++ [.glide i.val] ∧ s.otherTiles u t ∧ u = { s with tiles := u.tiles, freeCtr := s.freeCtr + 1 })))

/-- By a principal that reaches the tile's window: GATE_WRITE sets a Gate to the low 32 bits written, at once in Glide and
through the Seam in both views; GATEOVF_CLEAR and GATEUNDER_CLEAR clear the bits written as one and no other; SCTL_WRITE sets
the unit's stream, EN and POLY, and zeroes ALIVE when the unit is enabled or its stream changes while it is; SVAL_WRITE sets the
running value (under CRC-32C its low half only); SVAL_READ copies ALIVE into LALIVE. A principal without access changes nothing,
and no write reaches a fenced tile. Nothing but the tile's Glide unit (and its Seam) changes. The model's choices in it:
assumptions 10, 15, 64. -/
def Obligations.GlideWindowRegisters : Prop :=
  (∀ (s : State) (p : Principal) (t : TileNo) (g : Fin 64) (v : U64), s.glideAccess p t true = true → s.fenced t = false →
    Completes (.gateWrite p t g v) s (fun u =>
      gateVal (u.tile t).glide.gates g = v.toNat % 2 ^ 32
      ∧ (∀ h, h ≠ g.val → gateVal (u.tile t).glide.gates h = gateVal (s.tile t).glide.gates h)
      ∧ (u.tile t).seam = (s.tile t).seam ++ [.seqGate g true (v.toNat % 2 ^ 32), .grpGate g true (v.toNat % 2 ^ 32)]
      ∧ u.tile t = { s.tile t with glide := { (s.tile t).glide with gates := (u.tile t).glide.gates }, seam := (u.tile t).seam } ∧ s.onlyTile u t))
  ∧ (∀ (s : State) (p : Principal) (t : TileNo) (v : U64), s.glideAccess p t true = true → s.fenced t = false →
    Completes (.gateovfClear p t v) s (fun u => u.tile t = { s.tile t with glide := { (s.tile t).glide with ovf := (s.tile t).glide.ovf &&& ~~~v } } ∧ s.onlyTile u t)
    ∧ Completes (.gateunderClear p t v) s (fun u => u.tile t = { s.tile t with glide := { (s.tile t).glide with under := (s.tile t).glide.under &&& ~~~v } } ∧ s.onlyTile u t))
  ∧ (∀ (s : State) (p : Principal) (t : TileNo) (k : Fin 8) (v : U64), s.glideAccess p t true = true → s.fenced t = false →
    Completes (.sctlWrite p t k v) s (fun u =>
      let w := tabGet {} (s.tile t).glide.stitch k
      let x := tabGet {} (u.tile t).glide.stitch k
      x.stream.val = v.toNat % 16 ∧ x.en = v.getLsbD 4 ∧ x.poly = v.getLsbD 5 ∧ x.lalive = w.lalive ∧ x.sval = w.sval
      ∧ x.alive = (if (x.en && !w.en) || (w.en && decide (x.stream ≠ w.stream)) then 0 else w.alive) ∧ s.onlyStitch u t k))
  ∧ (∀ (s : State) (p : Principal) (t : TileNo) (k : Fin 8) (v : U64), s.glideAccess p t true = true → s.fenced t = false →
    Completes (.svalWrite p t k v) s (fun u =>
      let w := tabGet {} (s.tile t).glide.stitch k
      (tabGet {} (u.tile t).glide.stitch k).svalRead = (if w.poly then v.toNat else v.toNat % 2 ^ 32)
      ∧ tabGet {} (u.tile t).glide.stitch k = { w with sval := (tabGet {} (u.tile t).glide.stitch k).sval } ∧ s.onlyStitch u t k))
  ∧ (∀ (s : State) (p : Principal) (t : TileNo) (k : Fin 8), s.glideAccess p t false = true → s.fenced t = false →
    Completes (.svalRead p t k) s (fun u =>
      let w := tabGet {} (s.tile t).glide.stitch k
      tabGet {} (u.tile t).glide.stitch k = { w with lalive := w.alive } ∧ s.onlyStitch u t k))
  ∧ (∀ (s : State) (p : Principal) (t : TileNo) (g : Fin 64) (k : Fin 8) (v : U64) (c : Instr), (s.glideAccess p t true = false ∨ s.fenced t = true) →
    (c = .gateWrite p t g v ∨ c = .gateovfClear p t v ∨ c = .gateunderClear p t v ∨ c = .sctlWrite p t k v ∨ c = .svalWrite p t k v) →
    Completes c s (fun u => u = s))
  ∧ (∀ (s : State) (p : Principal) (t : TileNo), s.glideAccess p t true =
    (match p with
     | .h => decide ((s.tile t).owner = 0)
     | .f => decide ((s.tile t).owner = 0) && decide (s.unlock.scope ≠ 0)
     | .c k => decide (k ≠ 0) && (decide ((s.tile t).owner = 0) || decide ((s.tile t).owner.toNat = k))
     | _ => false))

/-! ### Translation (11) -/

/-- At kernel privilege TINVA, TINVS and TINVD (after older stores) queue their invalidation, TSYNC holds the C-core while one
is queued, and TCTX_WRITE (after earlier vector instructions) and ETCTX_WRITE set their context but for bits that read as zero;
at user privilege each raises illegal-instruction. CUFF_MISS hands an access that its Cuff does not cover to the Collar.
COLLAR_RESPONSE serves the oldest miss of its row: the Collar's entry is installed in the Cuff, each as the most recently used,
or a walk begins; where the row's walkers are all busy it waits, and no other row does. WALK_COMPLETE ends the n-th walk of its
row and installs what the walk and its checks give, or nothing, a fault of a C-core access being counted and raising its
exception; a walk that waits for an entry asks for it. INVALIDATION_COMPLETE waits for the accesses that a removed entry can
have translated; then it removes every entry that the oldest invalidation names from the Cuffs and walk caches of the domain's
tiles and from the Collars, and no other. The look-up of an access changes nothing but the Cuff, the Collars, the counts, what
errors of table lines record, and its place in the order of their homes. The model's choices in it: assumptions 10, 14, 60. -/
def Obligations.TranslationCommands : Prop :=
  (∀ (s : State) (t : TileNo) (sa sb : Fin 32) (c : Instr) (i : Inv), s.coreReads t [sa, sb] [] = true → s.storesDue t = false →
    (c = .tinva t false sa sb ∧ i = ⟨0, s.xreg t sa, (s.xreg t sb).setWidth 16⟩ ∨ c = .tinvs t false sb ∧ i = ⟨1, 0, (s.xreg t sb).setWidth 16⟩
      ∨ c = .tinvd t false ∧ i = ⟨2, 0, 0⟩) →
    Completes c s (fun u => u.tile t = { s.tile t with core := { (s.tile t).core with tsync := false }
                                                       xlat := { (s.tile t).xlat with inv := (s.tile t).xlat.inv ++ [i] } } ∧ s.onlyTile u t))
  ∧ (∀ (s : State) (t : TileNo), s.coreRuns t = true → Completes (.tsync t false) s (fun u =>
      if (s.tile t).xlat.inv = [] then u = s
      else u.tile t = { s.tile t with core := { (s.tile t).core with tsync := true } } ∧ u.coreRuns t = false ∧ s.onlyTile u t))
  ∧ (∀ (s : State) (t : TileNo) (sa sb : Fin 32) (c : Instr), s.coreReads t [sa, sb] [] = true →
    (c = .tinva t true sa sb ∨ c = .tinvs t true sb ∨ c = .tinvd t true ∨ c = .tsync t true ∨ c = .tctxWrite t true sa ∨ c = .etctxWrite t true sa) →
    Completes c s (fun u => u = s.coreEvent t .illegal))
  ∧ (∀ (s : State) (t : TileNo) (sa : Fin 32), s.coreReads t [sa] [] = true → s.vectorIdle t = true →
    Completes (.tctxWrite t false sa) s (fun u =>
      u.tile t = { s.tile t with xlat := { (s.tile t).xlat with tctx := (u.tile t).xlat.tctx } } ∧ s.onlyTile u t
      ∧ (∀ i, i < 64 → (u.tile t).xlat.tctx.getLsbD i = ((s.xreg t sa).getLsbD i && (decide (i < 60) || decide (i = 63))))))
  ∧ (∀ (s : State) (t : TileNo) (sa : Fin 32), s.coreReads t [sa] [] = true →
    Completes (.etctxWrite t false sa) s (fun u =>
      u.tile t = { s.tile t with xlat := { (s.tile t).xlat with etctx := (u.tile t).xlat.etctx } } ∧ s.onlyTile u t
      ∧ (∀ i, i < 64 → (u.tile t).xlat.etctx.getLsbD i = ((s.xreg t sa).getLsbD i && (decide (i < 60) || decide (62 ≤ i))))))
  ∧ (∀ (s : State) (t : TileNo) (w : WalkRow) (va ctx : U64) (kernel : Bool) (k : XKind), s.runs t = true → va.toNat % 2 ^ 57 < 0x1FFFFFFFFE00000 →
    ctx.getLsbD 63 = true → (∀ e ∈ (s.cuff t (rowCuff w)).entries, e.hits (ctxAsid ctx) (va.toNat % 2 ^ 57) = false) →
    Completes (.cuffMiss t w va ctx kernel k) s (fun u =>
      u.tile t = { s.tile t with xlat := { (s.tile t).xlat with
        misses := (s.tile t).xlat.misses ++ [{ row := w, va := va, tctx := ctx, kernel := kernel, kind := k, walking := false }]
        cnt := tabSet 0 (s.tile t).xlat.cnt 0 (Nat.min (tabGet 0 (s.tile t).xlat.cnt 0 + 1) (2 ^ 64 - 1)) } }
      ∧ s.onlyTile u t))
  ∧ (∀ (s : State) (r : RowAt) (m : Miss), (s.tile r.t).xlat.asking r.row = some m →
    Completes (.collarResponse r) s (fun u =>
      let c := rowCuff r.row
      let old := s.cuff r.t c
      let d := tileDie r.t
      let x := (s.tile r.t).xlat
      (match s.collarFind r.t (ctxAsid m.tctx) (m.va.toNat % 2 ^ 57) with
       | some o => decide ((u.cuff r.t c).entries.head? = some o.e ∧ (u.cuff r.t c).entries.length ≤ 64 ∧ (u.cuff r.t c).walk = old.walk
           ∧ (u.tile r.t).xlat.misses = x.misses.erase m ∧ u.collar d = o :: (s.collar d).erase o ∧ (u.tile r.t).xlat.cnt = x.cnt)
       | none => decide (u.cuff r.t c = old ∧ u.collar d = s.collar d
           ∧ (if rowWalkers r.row ≤ (x.walks r.row).length then (u.tile r.t).xlat = x
              else (u.tile r.t).xlat.misses = x.misses.erase m ++ [{ m with walking := true }]
                ∧ (u.tile r.t).xlat.cnt = tabSet 0 x.cnt 1 (Nat.min (tabGet 0 x.cnt 1 + 1) (2 ^ 64 - 1))))) = true
      ∧ (∀ e ∈ (u.cuff r.t c).entries, e ∈ old.entries ∨ s.collarHit r.t (ctxAsid m.tctx) (m.va.toNat % 2 ^ 57) = some e)
      ∧ (∀ k, k ≠ c → u.cuff r.t k = s.cuff r.t k) ∧ u.collar (1 - d) = s.collar (1 - d) ∧ (u.tile r.t).xlat.inv = x.inv
      ∧ u.tile r.t = { s.tile r.t with xlat := (u.tile r.t).xlat } ∧ s.otherTiles u r.t ∧ u = { s with tiles := u.tiles, collars := u.collars }))
  ∧ (∀ (s : State) (r : WalkAt) (m : Miss) (a : Nat), ((s.tile r.t).xlat.walks r.row)[r.n.val]? = some m →
    (s.walkAll (walkReader r.t (rowCuff r.row)) (s.tag r.t) (s.cuff r.t (rowCuff r.row)) m.tctx (m.va.toNat % 2 ^ 57) m.kernel m.kind).1 = .error (.wait a) →
    Completes (.walkComplete r) s (fun u => u = s.askEntry (walkReader r.t (rowCuff r.row)) a))
  ∧ (∀ (s : State) (r : WalkAt) (m : Miss) (z : Except Xl XEntry), ((s.tile r.t).xlat.walks r.row)[r.n.val]? = some m →
    z = (s.walkAll (walkReader r.t (rowCuff r.row)) (s.tag r.t) (s.cuff r.t (rowCuff r.row)) m.tctx (m.va.toNat % 2 ^ 57) m.kernel m.kind).1 →
    (match z with | .error (.wait _) => false | _ => true) = true →
    Completes (.walkComplete r) s (fun u =>
      let c := rowCuff r.row
      let x := (s.tile r.t).xlat
      (match z with
       | .ok e => decide ((u.cuff r.t c).entries.head? = some e ∧ ((u.collar (tileDie r.t)).head?.map (·.e)) = some e
           ∧ (u.tile r.t).core = (s.tile r.t).core ∧ (u.tile r.t).xlat.cnt = x.cnt)
       | .error f =>
         let raised : List CoreEvent := if r.row = .core then (match f with | .page => [.page m.va] | .owner => [.owner m.va] | .uncorr => [.machineCheck m.va] | _ => []) else []
         decide (u.cuff r.t c = s.cuff r.t c ∧ u.collars = s.collars
           ∧ tabGet 0 (u.tile r.t).xlat.cnt 2 = (if r.row = .core ∧ (f = .page ∨ f = .owner) then Nat.min (tabGet 0 x.cnt 2 + 1) (2 ^ 64 - 1)
               else tabGet 0 x.cnt 2)
           ∧ (u.tile r.t).core.events.take (s.tile r.t).core.events.length = (s.tile r.t).core.events
           ∧ (raised ≠ [] → (u.tile r.t).core.events.getLast? = raised.head?))) = true
      ∧ (u.tile r.t).xlat.misses = x.misses.erase m ∧ (∀ k, k ≠ c → u.cuff r.t k = s.cuff r.t k)
      ∧ u.tile r.t = { s.tile r.t with xlat := (u.tile r.t).xlat, core := (s.tile r.t).core.toldOf (u.tile r.t).core }
      ∧ s.lookFrame u r.t))
  ∧ (∀ (s : State) (t : TileNo) (i : Inv) (rest : List Inv), (s.tile t).xlat.inv = i :: rest → s.xlOutstanding (s.tag t) [i] = false →
    Completes (.invalidationComplete t) s (fun u =>
      (u.tile t).xlat.inv = rest
      ∧ (∀ x c, x < 192 → (u.cuff x c).entries = (if s.tag x = s.tag t then (s.cuff x c).entries.filter (fun e => !i.removes e) else (s.cuff x c).entries)
          ∧ (u.cuff x c).walk = (if s.tag x = s.tag t then (s.cuff x c).walk.filter (fun w => !i.removesPtr w) else (s.cuff x c).walk))
      ∧ (∀ d, d < 2 → u.collar d = (s.collar d).filter (fun c => !(decide (c.dom.toNat = s.tag t) && i.removes c.e)))
      ∧ (∀ x, x < 192 → u.tile x = { s.tile x with xlat := (u.tile x).xlat })
      ∧ u = { s with tiles := u.tiles, collars := u.collars, coh := { s.coh with fetched := [] }, hedom := { s.hedom with txns := s.hedom.txns.map RTxn.stale } }))
  ∧ (∀ (s : State) (t : TileNo) (i : Inv) (rest : List Inv), (s.tile t).xlat.inv = i :: rest →
    (∃ x, x < 192 ∧ s.tag x = s.tag t ∧ ((s.tile x).l2.out ≠ []
      ∨ ∃ f ∈ (s.tile x).glide.streams, ∃ j ∈ f.flight, ∃ e ∈ j.xl, i.removes e = true)) →
    Completes (.invalidationComplete t) s (fun u => u = s))
  ∧ (∀ (s : State) (t : TileNo) (c : CuffId) (ctx : U64) (kernel : Bool) (k : XKind) (v : U64),
    let u := s.translated t c ctx kernel k v
    (v.toNat % 2 ^ 57 < 0x1FFFFFFFFE00000 → ctx.getLsbD 63 = true →
      (match (s.cuff t c).entries.find? (fun e => e.hits (ctxAsid ctx) (v.toNat % 2 ^ 57)), s.collarHit t (ctxAsid ctx) (v.toNat % 2 ^ 57) with
      | some e, _ => decide ((u.cuff t c).entries = e :: (s.cuff t c).entries.erase e ∧ u.collars = s.collars ∧ (u.tile t).xlat.cnt = (s.tile t).xlat.cnt)
      | none, some e => decide ((u.cuff t c).entries.head? = some e ∧ ((u.collar (tileDie t)).head?.map (·.e)) = some e)
      | none, none => decide (tabGet 0 (u.tile t).xlat.cnt 1 = Nat.min (tabGet 0 (s.tile t).xlat.cnt 1 + 1) (2 ^ 64 - 1))) = true)
    ∧ (∀ d, d ≠ c → u.cuff t d = s.cuff t d) ∧ tabGet 0 (u.tile t).xlat.cnt 2 = tabGet 0 (s.tile t).xlat.cnt 2
    ∧ u.tile t = { s.tile t with
        xlat := { (s.tile t).xlat with core := u.cuff t .core, lvu := u.cuff t .lvu, glide := u.cuff t .glide, cnt := (u.tile t).xlat.cnt }
        core := (s.tile t).core.toldOf (u.tile t).core }
    ∧ s.lookFrame u t ∧ u.gov = s.gov ∧ u.freeCtr = s.freeCtr)

/-- A principal whose write the dictionary lets pass: SHOOTDOWN_TAIL_WRITE stores the tail, one ahead of the completed epoch
clamped to it plus the ring's size (serial arithmetic), and with the ring enabled and the tail ahead the device starts work.
SHOOTDOWN_RING_ENABLE stores the enable, and enabling sets the completed epoch to the tail. A write is an operation that is
counted; a refused one changes nothing else. SHOOTDOWN_EPOCH_COMPLETE asks for a record that it must wait for, and waits for the
accesses that a removed entry can have translated; then it applies the records in order to the open domain, writes the tail as
the completed epoch and as the completion word behind the ring, and the device's work ends. The model's choices in it:
assumptions 1, 10, 60, 89. -/
def Obligations.ShootdownRing : Prop :=
  (∀ (s : State) (p : Principal) (v : U32), s.dictFree = true → s.writeCheck p 0x1A01 3 = 0 → s.obj 0x1A01 4 < 2 ^ 32 → s.obj 0x1A01 2 < 2 ^ 31 →
    Completes (.shootdownTailWrite p v) s (fun u =>
      let d := (v.toNat + 2 ^ 32 - s.obj 0x1A01 4) % 2 ^ 32
      let ahead := decide (0 < d) && decide (d < 2 ^ 31)
      u.obj 0x1A01 3 = (if ahead = true ∧ s.obj 0x1A01 2 < d then (s.obj 0x1A01 4 + s.obj 0x1A01 2) % 2 ^ 32 else v.toNat)
      ∧ u.collars.shooting = (s.collars.shooting || (decide (s.obj 0x1A01 5 = 1) && ahead))
      ∧ (∀ j, j ≠ 3 → u.obj 0x1A01 j = s.obj 0x1A01 j)
      ∧ (let s1 := s.countedWrite p 0x1A01 3 (decide (u.obj 0x1A01 3 ≠ v.toNat))
         (∀ n, n ≠ pairOf 0x1A01 3 → kvGet none u.objs n = kvGet none s1.objs n)
         ∧ u = { s1 with objs := u.objs, collars := { s.collars with shooting := u.collars.shooting } })))
  ∧ (∀ (s : State) (p : Principal) (b : Bool), s.dictFree = true → s.writeCheck p 0x1A01 5 = 0 →
    Completes (.shootdownRingEnable p b) s (fun u =>
      u.obj 0x1A01 5 = (if b then 1 else 0) ∧ u.obj 0x1A01 4 = (if b ∧ s.obj 0x1A01 5 = 0 then s.obj 0x1A01 3 else s.obj 0x1A01 4)
      ∧ u.obj 0x1A01 3 = s.obj 0x1A01 3
      ∧ (let s1 := s.countedWrite p 0x1A01 5 false
         (∀ n, n ≠ pairOf 0x1A01 5 → n ≠ pairOf 0x1A01 4 → kvGet none u.objs n = kvGet none s1.objs n) ∧ u = { s1 with objs := u.objs })))
  ∧ (∀ (s : State) (p : Principal) (v : U32) (b : Bool) (c : Instr) (j : Nat), (c = .shootdownTailWrite p v ∧ j = 3 ∨ c = .shootdownRingEnable p b ∧ j = 5) →
    s.writeCheck p 0x1A01 j ≠ 0 ∨ s.dictFree = false → Completes c s (fun u => u = if s.dictFree then s.countedWrite p 0x1A01 j false else s))
  ∧ (∀ (s : State) (r : Bytes), s.collars.shooting = true → s.obj 0x1A01 4 < 2 ^ 32 - 1 → s.obj 0x1A01 3 = s.obj 0x1A01 4 + 1 → s.shootRecord (s.obj 0x1A01 4) = .ok r →
    s.xlOutstanding 0 (recordInvs r) = false → s.canonical → s.reaches 0 (s.obj 0x1A01 1 + 16 * s.obj 0x1A01 2) = true → s.quietAt (s.obj 0x1A01 1 + 16 * s.obj 0x1A01 2) 8 →
    Completes .shootdownEpochComplete s (fun u =>
      let i := (recordInvs r).head?.getD ⟨2, 0, 0⟩
      let a := s.obj 0x1A01 1 + 16 * s.obj 0x1A01 2
      u.obj 0x1A01 4 = s.obj 0x1A01 3 ∧ u.collars.shooting = false ∧ s.memAfter u a (natLe 8 (s.obj 0x1A01 3))
      ∧ ((recordInvs r).length = 1 → (∀ x c, x < 192 → (u.cuff x c).entries = (if s.tag x = 0 then (s.cuff x c).entries.filter (fun e => !i.removes e) else (s.cuff x c).entries))
          ∧ (∀ d, d < 2 → u.collar d = (s.collar d).filter (fun c => !(decide (c.dom.toNat = 0) && i.removes c.e))))))
  ∧ (∀ (s : State) (d : Nat) (l : Except Nat (List Inv)), s.collars.shooting = true → d = (s.obj 0x1A01 3 + 2 ^ 32 - s.obj 0x1A01 4) % 2 ^ 32 →
    (s.reaches 0 (s.obj 0x1A01 1 + 16 * s.obj 0x1A01 2) = true → s.sReady (s.obj 0x1A01 1 + 16 * s.obj 0x1A01 2) 8 = true) →
    l = s.shootRecords (s.obj 0x1A01 4) (if d < 2 ^ 31 then d else 0) → (l.toBool = false ∨ ∃ x, x < 192 ∧ s.tag x = 0 ∧ (s.tile x).l2.out ≠ []) →
    Completes .shootdownEpochComplete s (fun u => u = match l with | .error a => s.askEntry 0xFFFE a | .ok _ => s))

/-! ### Coherence (12) -/

/-- A request of a tile for a line of this package's memory reaches its home. One that the owner check refuses is answered ERR;
one for a line with a transaction in hand waits; each other moves the priority pointer past its node. Where no L2 owns the line:
RDS gets the data in E with no other sharer, else in S; RDX the data in E, UPG of an S copy only CMP, and every other sharer an
INV, the transaction staying in hand until they answer; RDNC the data; WRNC and ATOM with no copy left write memory under the
mask, or the atomic's new value, and answer CMP or the old value. Where another node owns the line, the owner gets the snoop of
Table 12.4 and the transaction stays in hand. A read that meets an error which cannot be corrected, on a line that had one or
that this read finds, is answered ERR, recorded, and changes neither the line nor who holds it; a home under a cap that leaves
no room in the window serves no request. Where no such request is under way the command is the transfer of an access that waits
at its unit (assumption 30): the line has the fault that it finds. The model's choices in it: assumptions 30, 31, 71. -/
def Obligations.HomeServesRequests : Prop :=
  (∀ (s : State) (n : Fin 195) (at_ : LineRead) (k : MsgKind) (c : Instr) (m : Msg) (rest : List Msg), n < 192 →
    (k, c) ∈ [(MsgKind.rds, Instr.rds n at_), (.rdx, .rdx n at_), (.upg, .upg n at_), (.rdnc, .rdnc n at_), (.wrnc, .wrnc n at_), (.atom, .atom n at_)] →
    s.arrives k at_.line.toNat (fun m => decide (m.src = n) && decide (m.dst = homeNode)) m rest →
    (s.reachesAll (s.nodeTag n) (64 * at_.line.toNat) 64 = false →
      Completes c s (fun u => u.coh = { s.coh with net := rest ++ [{ kind := .err, line := m.line, src := homeNode, dst := m.src, unit_ := m.unit_, off := m.off, size := m.size, tag := m.tag, refused := true }] }
        ∧ u = { s with coh := u.coh, freeCtr := s.freeCtr + 1 }))
    ∧ (s.reachesAll (s.nodeTag n) (64 * at_.line.toNat) 64 = true → (s.handOf at_.line.toNat).isSome = true →
      Completes c s (fun u => u.coh.wait = s.coh.wait ++ [m] ∧ u.coh.net = rest ∧ u.coh.hand = s.coh.hand ∧ u.coh.filter = s.coh.filter
        ∧ u = { s with coh := u.coh, freeCtr := s.freeCtr + 1 }))
    ∧ (∀ o, s.reachesAll (s.nodeTag n) (64 * at_.line.toNat) 64 = true → s.capped (64 * at_.line.toNat) = false → s.noneWaits at_.line.toNat → s.handOf at_.line.toNat = none → (s.filterOf at_.line.toNat).owner = some o → o ≠ n.val → o < 192 →
      Completes c s (fun u =>
        let w : MsgKind := match k with | .rds => .snps | .rdnc => .snpcur | .wrnc => .snpinv | .atom => .snpinv | _ => .snpx
        u.coh.net = rest ++ [{ kind := w, line := m.line, src := homeNode, dst := o, req := m.src + 256 * m.unit_, unit_ := m.unit_ }]
        ∧ u.handOf at_.line.toNat = some { msg := m, snoop := true } ∧ u.coh.filter = s.coh.filter ∧ u.coh.wait = s.coh.wait
        ∧ u = { s.meet at_.line.toNat at_.found (decide (k = .wrnc)) with coh := u.coh, freeCtr := s.freeCtr + 1 })))
  ∧ (∀ (s : State) (n : Fin 195) (at_ : LineRead) (k : MsgKind) (c : Instr) (m : Msg) (rest : List Msg), n < 192 → s.capped (64 * at_.line.toNat) = false →
    (k, c) ∈ [(MsgKind.rds, Instr.rds n at_), (.rdx, .rdx n at_), (.upg, .upg n at_), (.rdnc, .rdnc n at_)] →
    s.arrives k at_.line.toNat (fun m => decide (m.src = n) && decide (m.dst = homeNode)) m rest → s.reachesAll (s.nodeTag n) (64 * at_.line.toNat) 64 = true →
    s.handOf at_.line.toNat = none → (s.filterOf at_.line.toNat).owner = none → (s.filterOf at_.line.toNat).sharers.getLsbD 192 = false → s.filterRoom at_.line.toNat →
    s.noneWaits at_.line.toNat → lineErr (s.meet at_.line.toNat at_.found).mem at_.line.toNat = none →
    Completes c s (fun u =>
      let f := s.filterOf at_.line.toNat
      let others := (List.range 193).filter (fun j => f.sharers.getLsbD j && decide (j ≠ m.src))
      let data := memRead s.mem.bytes (64 * at_.line.toNat) 64
      let ans := fun (k : MsgKind) (d : Bytes) (e : Bool) => ({ kind := k, line := m.line, src := homeNode, dst := m.src, data := d, excl := e, unit_ := m.unit_, off := m.off, size := m.size, tag := m.tag } : Msg)
      let invs := others.map (fun j => ({ kind := .inv, line := m.line, src := homeNode, dst := j, req := m.src + 256 * m.unit_, unit_ := m.unit_ } : Msg))
      let hasS := f.sharers.getLsbD m.src
      u.coh.net = rest ++ (match k with
        | .rds => [ans .data data others.isEmpty]
        | .rdnc => [ans .data data false]
        | .upg => if hasS then invs ++ (if others.isEmpty then [ans .cmp [] false] else []) else invs ++ [ans .datax data (!others.isEmpty)]
        | _ => invs ++ [ans .datax data (!others.isEmpty)])
      ∧ u.filterOf at_.line.toNat = (match k with
        | .rds => if others.isEmpty then { owner := some m.src } else { sharers := f.sharers ||| bit193 m.src }
        | .rdnc => f
        | _ => { owner := some m.src })
      ∧ u.handOf at_.line.toNat = (match k with
        | .rds => none
        | .rdnc => none
        | _ => if others.isEmpty then none else some { msg := m, acks := others })
      ∧ (∀ l, l ≠ at_.line.toNat → u.filterOf l = s.filterOf l ∧ u.handOf l = s.handOf l)
      ∧ kvGet 0 u.coh.prio (homeOf (64 * at_.line.toNat)) = (n.val + 1) % 195
      ∧ u.mem.bytes = s.mem.bytes ∧ u.coh.wait = s.coh.wait ∧ (s.meet at_.line.toNat at_.found).homeFrame u))
  ∧ (∀ (s : State) (n : Fin 195) (at_ : LineRead) (m : Msg) (rest : List Msg) (atomic : Bool), n < 192 → s.capped (64 * at_.line.toNat) = false →
    s.arrives (if atomic then .atom else .wrnc) at_.line.toNat (fun m => decide (m.src = n) && decide (m.dst = homeNode)) m rest →
    s.reachesAll (s.nodeTag n) (64 * at_.line.toNat) 64 = true → s.handOf at_.line.toNat = none → s.filterOf at_.line.toNat = {} → s.noneWaits at_.line.toNat →
    lineErr (s.meet at_.line.toNat at_.found (!atomic)).mem at_.line.toNat = none → (s.meet at_.line.toNat at_.found (!atomic)).writeFails at_.line.toNat = false →
    s.canonical → (if atomic then m.off + m.size ≤ 64 ∧ m.op.isSome = true else m.mask.length = 64 ∧ m.data.length = 64) →
    Completes (if atomic then .atom n at_ else .wrnc n at_) s (fun u =>
      let a := 64 * at_.line.toNat
      let old := leNat (memRead s.mem.bytes (a + m.off) m.size)
      (∀ x, memGet u.mem.bytes x =
        if x < a ∨ a + 64 ≤ x then memGet s.mem.bytes x
        else if atomic then
          (if m.off ≤ x - a ∧ x - a < m.off + m.size then (natLe m.size (atomNew (m.op.getD .swap) m.size old m.a m.b)).getD (x - a - m.off) 0 else memGet s.mem.bytes x)
        else if m.mask.getD (x - a) false then m.data.getD (x - a) 0 else memGet s.mem.bytes x)
      ∧ (∃ w ∈ u.coh.net, w.dst = m.src ∧ w.line = m.line ∧ w.kind = (if atomic then .atomrsp else .cmp) ∧ (atomic = true → w.data = natLe m.size old))
      ∧ u.coh.net.length = rest.length + 1 ∧ u.handOf at_.line.toNat = none ∧ u.coh.wait = s.coh.wait ∧ u.tiles = s.tiles))
  ∧ (∀ (s : State) (n : Fin 195) (at_ : LineRead) (k : MsgKind) (c : Instr) (m : Msg) (rest : List Msg) (e : LineErr), n < 192 → s.capped (64 * at_.line.toNat) = false →
    (k, c) ∈ [(MsgKind.rds, Instr.rds n at_), (.rdx, .rdx n at_), (.rdnc, .rdnc n at_)] →
    s.arrives k at_.line.toNat (fun m => decide (m.src = n) && decide (m.dst = homeNode)) m rest → s.reachesAll (s.nodeTag n) (64 * at_.line.toNat) 64 = true →
    s.handOf at_.line.toNat = none → (s.filterOf at_.line.toNat).owner = none →
    s.noneWaits at_.line.toNat → s.filterRoom at_.line.toNat → lineErr (s.meet at_.line.toNat at_.found).mem at_.line.toNat = some e → e ≠ .correctable →
    Completes c s (fun u =>
      let x := u.coh.net.getLast?
      (x.map (fun w => (w.kind, w.line, w.dst, w.refused))) = some (.err, m.line, m.src, false) ∧ u.coh.net.length = rest.length + 1
      ∧ u.coh.filter = s.coh.filter ∧ u.handOf at_.line.toNat = none ∧ u.mem.bytes = s.mem.bytes ∧ lineErr u.mem at_.line.toNat = some e
      ∧ u.logs.uncorr = s.logs.uncorr + 1))
  ∧ (∀ (s : State) (n : Fin 195) (at_ : LineRead) (k : MsgKind) (c : Instr) (x : Option (Msg × List Msg)), n < 192 →
    (k, c) ∈ [(MsgKind.rds, Instr.rds n at_), (.rdx, .rdx n at_), (.upg, .upg n at_), (.rdnc, .rdnc n at_), (.wrnc, .wrnc n at_), (.atom, .atom n at_)] →
    x = takeMsg (fun m => decide (m.kind = k) && decide (m.line = at_.line.toNat) && (decide (m.src = n) && decide (m.dst = homeNode))) s.coh.net →
    (x = none ∨ s.capped (64 * at_.line.toNat) = true ∧ s.handOf at_.line.toNat = none ∧ s.reachesAll (s.nodeTag n) (64 * at_.line.toNat) 64 = true) →
    Completes c s (fun u => u = { if x.isSome then s else s.meet at_.line.toNat at_.found (decide (k = .wrnc)) with freeCtr := s.freeCtr + 1 }))

/-- A snoop (SNPS, SNPX, SNPCUR, SNPINV, INV) at an L2 that neither awaits the line nor writes it back: the copy is given up,
kept in S, or kept as it is, its data goes to the requester, and the home gets MISS, CLEAN or DIRTY (with the data where memory
must take it), or INVACK; while the line stands in the write-back buffer the answer is WBPEND; while the line's own grant is due
the snoop is held. DATA, DATAX and CMP perform the accesses that await the line, a CMP that comes before its DATAX being kept;
ATOMRSP delivers the old value; ERR raises the exception of a refusal or an uncorrectable error. At the home, the last INVACK
ends the transaction with CMP; SNPRSP of an owner hands the line on; a WB is written to memory, clears its owner and is
acknowledged with WBACK, which frees the buffer; WB with none under way evicts an M line. A line's home stands on the die that
holds it, and a channel's at the tile of its station (Table 1.3). The model's choices in it: assumptions 30, 31, 74. -/
def Obligations.CachesAndHomeExchange : Prop :=
  (∀ (s : State) (t : Fin 193) (line : BitVec 38) (k : MsgKind) (c : Instr) (m : Msg) (rest : List Msg) (l : L2Line), t < 192 →
    (k, c) ∈ [(MsgKind.snps, Instr.snps t line), (.snpx, .snpx t line), (.snpcur, .snpcur t line), (.snpinv, .snpinv t line), (.inv, .inv t line)] →
    s.arrives k line.toNat (fun m => decide (m.dst = t)) m rest → m.req % 256 < 192 → (∀ o ∈ (s.tile t).l2.out, o.line ≠ line.toNat) →
    s.wbOf t line.toNat = none → l = s.l2 t line.toNat →
    Completes c s (fun u =>
      let rsp := fun (r : SnpRsp) (d : Bytes) => ({ kind := .snprsp, line := line.toNat, src := t, dst := homeNode, rsp := r, data := d, req := m.req } : Msg)
      let give := fun (k : MsgKind) => ({ kind := k, line := line.toNat, src := t, dst := m.req % 256, data := l.data, unit_ := m.req / 256 } : Msg)
      let mine := if l.st = .m then SnpRsp.dirty else .clean
      let dirty := if l.st = .m then l.data else []
      u.coh = { s.coh with net := rest ++ (
        if k = .inv then [{ kind := .invack, line := line.toNat, src := t, dst := homeNode }]
        else if l.st = .i then [rsp .miss []]
        else match k with
          | .snps => [give .data, rsp mine dirty]
          | .snpx => [give .datax, rsp mine []]
          | .snpcur => [give .data, rsp mine []]
          | _ => [rsp mine dirty]) }
      ∧ (u.l2 t line.toNat).st = (if l.st = .i then .i else match k with | .snps => .s | .snpcur => l.st | _ => .i)
      ∧ (∀ x, x ≠ line.toNat → u.l2 t x = s.l2 t x)
      ∧ u.tile t = { s.tile t with l2 := { (s.tile t).l2 with lines := (u.tile t).l2.lines }, xlat := { (s.tile t).xlat with cnt := (u.tile t).xlat.cnt } }
      ∧ s.otherTiles u t ∧ u = { s with tiles := u.tiles, coh := u.coh }))
  ∧ (∀ (s : State) (t : Fin 193) (line : BitVec 38) (m : Msg) (rest : List Msg) (d : Bytes), t < 192 →
    s.arrives .snps line.toNat (fun m => decide (m.dst = t)) m rest → s.wbOf t line.toNat = some d →
    Completes (.snps t line) s (fun u => u.coh.net = rest ++ [{ kind := .snprsp, line := line.toNat, src := t, dst := homeNode, rsp := .wbpend, req := m.req }]
      ∧ (u.tile t).l2 = (s.tile t).l2 ∧ s.otherTiles u t))
  ∧ (∀ (s : State) (t : Fin 193) (line : BitVec 38) (m : Msg) (rest : List Msg) (o : Outstanding), t < 192 →
    s.arrives .snpx line.toNat (fun m => decide (m.dst = t)) m rest → (s.tile t).l2.out = [o] → o.line = line.toNat → o.dest = .store →
    (s.l2 t line.toNat).st = .i → s.wbOf t line.toNat = none →
    Completes (.snpx t line) s (fun u => u.tile t = { s.tile t with l2 := { (s.tile t).l2 with held := (s.tile t).l2.held ++ [(line.toNat, 1, m.req)] } }
      ∧ s.cacheFrame u t rest))
  ∧ (∀ (s : State) (t : Fin 193) (line : BitVec 38) (m : Msg) (rest : List Msg) (o : Outstanding), t < 192 →
    s.arrives .data line.toNat (fun m => decide (m.dst = t)) m rest → (s.tile t).l2.out = [o] → o.line = line.toNat → o.write = false →
    m.unit_ = 0 → (s.tile t).l2.held = [] → (s.tile t).l2.lines.length < 16384 →
    Completes (.data t line) s (fun u =>
      u.l2 t line.toNat = { st := if m.excl then .e else .s, data := m.data } ∧ (u.tile t).l2.out = []
      ∧ (u.tile t).core = ((s.deliver t o.dest ((m.data.drop (o.addr % 64)).take o.size)).tile t).core
      ∧ u.tile t = { s.tile t with l2 := (u.tile t).l2, core := (u.tile t).core } ∧ s.cacheFrame u t rest))
  ∧ (∀ (s : State) (t : Fin 193) (line : BitVec 38) (m : Msg) (rest : List Msg) (o : Outstanding) (p : PendStore) (upgraded : Bool), t < 192 →
    s.arrives (if upgraded then .cmp else .datax) line.toNat (fun m => decide (m.dst = t)) m rest → (s.tile t).l2.out = [o] → o.line = line.toNat →
    o.write = true → (s.tile t).l2.held = [] → (s.tile t).l2.lines.length < 16384 → (s.tile t).core.storeQ = [p] → p.addr = o.addr → p.data.length = o.size →
    (if upgraded then (s.l2 t line.toNat).st = .s else m.excl = false ∨ o.done = true) →
    Completes (if upgraded then .cmp t line else .datax t line) s (fun u =>
      let d := if upgraded then (s.l2 t line.toNat).data else m.data
      u.l2 t line.toNat = { st := .m, data := d.take (o.addr % 64) ++ p.data ++ d.drop (o.addr % 64 + o.size) }
      ∧ (u.tile t).l2.out = [] ∧ (u.tile t).core = { (s.tile t).core with storeQ := [] }
      ∧ u.tile t = { s.tile t with l2 := (u.tile t).l2, core := (u.tile t).core } ∧ s.otherTiles u t
      ∧ u = { s with tiles := u.tiles, freeCtr := u.freeCtr, coh := { s.coh with net := rest, lent := s.coh.lent.filter (fun q => decide (q.1 ≠ line.toNat)) } }))
  ∧ (∀ (s : State) (t : Fin 193) (line : BitVec 38) (m : Msg) (rest : List Msg) (o : Outstanding), t < 192 →
    s.arrives .cmp line.toNat (fun m => decide (m.dst = t)) m rest → (s.tile t).l2.out = [o] → o.line = line.toNat → (s.l2 t line.toNat).st = .i →
    Completes (.cmp t line) s (fun u => u.tile t = { s.tile t with l2 := { (s.tile t).l2 with out := [{ o with done := true }] } } ∧ s.cacheFrame u t rest))
  ∧ (∀ (s : State) (t : Fin 193) (line : BitVec 38) (m : Msg) (rest : List Msg) (o : Outstanding), t < 192 →
    s.arrives .atomrsp line.toNat (fun m => decide (m.dst = t)) m rest → (s.tile t).l2.out = [o] → o.line = line.toNat → (s.tile t).l2.held = [] →
    Completes (.atomrsp t line) s (fun u => (u.tile t).l2 = { (s.tile t).l2 with out := [] } ∧ (u.tile t).core = ((s.deliver t o.dest m.data).tile t).core
      ∧ s.cacheFrame u t rest))
  ∧ (∀ (s : State) (t : Fin 193) (line : BitVec 38) (m : Msg) (rest : List Msg) (o : Outstanding), t < 192 →
    s.arrives .err line.toNat (fun m => decide (m.dst = t)) m rest → (s.tile t).l2.out = [o] → o.line = line.toNat → o.write = false → (s.tile t).l2.held = [] →
    Completes (.err t line) s (fun u => (u.tile t).l2 = { (s.tile t).l2 with out := [] }
      ∧ (u.tile t).core.events = (s.tile t).core.events ++ [if m.refused then .owner (BitVec.ofNat 64 o.addr) else .machineCheck (BitVec.ofNat 64 o.addr)]
      ∧ (u.tile t).core.x = (s.tile t).core.x ∧ s.cacheFrame u t rest))
  ∧ (∀ (s : State) (n : Fin 193) (line : BitVec 38) (m : Msg) (rest : List Msg) (x : Txn), n < 192 →
    s.arrives .invack line.toNat (fun m => decide (m.src = n)) m rest → s.handOf line.toNat = some x → n.val ∈ x.acks → x.inner = false → x.msg.src < 192 →
    (x.msg.kind = .rdx ∨ x.msg.kind = .upg) → s.coh.wait = [] →
    Completes (.invack n line) s (fun u =>
      u.handOf line.toNat = (if x.acks.erase n ≠ [] then some { x with acks := x.acks.erase n } else none)
      ∧ u.coh.net = rest ++ (if x.acks.erase n ≠ [] then [] else [reply x.msg .cmp [] false]) ∧ u.coh.filter = s.coh.filter
      ∧ u = { s with coh := u.coh, freeCtr := s.freeCtr + 1 }))
  ∧ (∀ (s : State) (n : Fin 193) (line : BitVec 38) (m : Msg) (rest : List Msg) (x : Txn), n < 192 →
    s.arrives .snprsp line.toNat (fun m => decide (m.src = n)) m rest → s.handOf line.toNat = some x → x.snoop = true → x.inner = false → (m.rsp = .clean ∨ m.rsp = .dirty) →
    m.data.length = 64 → (x.msg.kind = .rds ∨ x.msg.kind = .rdx) → s.coh.wait = [] → s.scrubbed line.toNat = false → s.writeFails line.toNat = false → s.canonical →
    Completes (.snprsp n line) s (fun u =>
      u.handOf line.toNat = none ∧ u.coh.net = rest
      ∧ u.filterOf line.toNat = (if x.msg.kind = .rds then { sharers := bit193 n ||| bit193 x.msg.src } else { owner := some x.msg.src })
      ∧ s.memAfter u (64 * line.toNat) (if m.rsp = .dirty ∧ x.msg.kind = .rds then m.data else []) ∧ u.tiles = s.tiles))
  ∧ (∀ (s : State) (n : Fin 193) (line : BitVec 38) (m : Msg) (rest : List Msg), n < 192 →
    s.arrives .wb line.toNat (fun m => decide (m.src = n)) m rest → s.scrubbed line.toNat = false → s.handOf line.toNat = none → m.data.length = 64 → s.writeFails line.toNat = false → s.canonical →
    Completes (.wb n line) s (fun u =>
      s.memAfter u (64 * line.toNat) m.data
      ∧ u.filterOf line.toNat = (if (s.filterOf line.toNat).owner = some n.val then { s.filterOf line.toNat with owner := none } else s.filterOf line.toNat)
      ∧ u.coh.net = rest ++ [{ kind := .wback, line := line.toNat, src := homeNode, dst := n }] ∧ u.tiles = s.tiles))
  ∧ (∀ (s : State) (t : Fin 193) (line : BitVec 38), t < 192 → lineHost line.toNat = false → (s.l2 t line.toNat).st = .m →
    (∀ m ∈ s.coh.net, m.kind ≠ .wb) →
    Completes (.wb t line) s (fun u =>
      u.l2 t line.toNat = {} ∧ (u.tile t).l2.wb = (s.tile t).l2.wb ++ [(line.toNat, (s.l2 t line.toNat).data)]
      ∧ u.coh.net = s.coh.net ++ [{ kind := .wb, line := line.toNat, src := t, dst := homeNode, data := (s.l2 t line.toNat).data }]
      ∧ s.otherTiles u t))
  ∧ (∀ (s : State) (t : Fin 193) (line : BitVec 38) (m : Msg) (rest : List Msg), t < 192 → s.arrives .wback line.toNat (fun m => decide (m.dst = t)) m rest →
    Completes (.wback t line) s (fun u =>
      u.tile t = { s.tile t with l2 := { (s.tile t).l2 with wb := (s.tile t).l2.wb.filter (fun p => decide (p.1 ≠ line.toNat)) } } ∧ s.cacheFrame u t rest))
  ∧ (∀ (a : Nat), (place a = .lining ∨ place a = .hbm) → tileDie (homeTile a) = memDie a)
  ∧ (∀ (stack : Fin 8) (ch : Fin 32), channelStation stack.val ch.val =
      (([[0, 12, 24, 36], [48, 60, 72, 84], [11, 23, 35, 47], [59, 71, 83, 95], [96, 108, 120, 132], [144, 156, 168, 180], [107, 119, 131, 143],
        [155, 167, 179, 191]] : List (List Nat)).getD stack.val []).getD (ch.val / 8) 0)

/-! ### Links (14 and 15) -/

/-- A control write that the dictionary lets pass stores its value, brings the link to the state of Table 14.2 (a link that
starts over holds nothing; the Hedom link that trains again keeps what it held, R342) and counts a retrain; a refused one is
counted and changes no state. TRAINING_START, LANE_LOCK and TRAINING_TIMEOUT move a link between DOWN, TRAINING, ATTESTING (a
port, with a fresh value and its newest report, which it sends on MGT) and UP (the Hedom link, with full credits, or going on
from where it was). RETRAIN_LOCK brings a link UP and sends its replay buffer again; where the counts that the peer sends break
a sum, and at RETRAIN_TIMEOUT, the link is FAILED, holds nothing and is recorded; a failed Hedom link loses the host's lines and
requests. CHANNEL_STALL counts and alerts. REFERENCE_LOSS counts and records the reference; without REF156 every port and the
Hedom link are FAILED. Where packets wait on a link, clauses leave open what giving back their room changes on other links. The
model's choices in it: assumptions 4, 10, 39, 93. -/
def Obligations.LinkStates : Prop :=
  (∀ (s : State) (p : Principal) (l : Link) (w : BitVec 8) (c : Instr),
    c = (match l with | .port n => .portControlWrite p n w | .hedom => .hedomLinkControlWrite p w) →
    s.dictFree = true → s.writeCheck p (ctlObj l).1 (ctlObj l).2 = 0 →
    Completes c s (fun u =>
      let v := Nat.min w.toNat 2
      let x := s.linkOf l
      let st := controlled (decide (l = .hedom)) (s.pins.refLost.getLsbD 1) v x.st
      let s1 := s.countedWrite p (ctlObj l).1 (ctlObj l).2 (decide (2 < w.toNat))
      u.obj (ctlObj l).1 (ctlObj l).2 = v
      ∧ (if (st = x.st ∧ st ≠ .disabled) ∨ st = .retraining then u.linkOf l = { x with st := st }
         else if x.st = .up ∧ st = .training then u.linkOf l = { x with st := st, lanes := 0, resume := true } else (u.linkOf l).empty st)
      ∧ s.linkCounted u l (fun i => if i = 5 ∧ (x.st = .failed ∧ st ≠ .failed ∨ x.st = .up ∧ (st = .retraining ∨ st = .training)) then 1 else 0)
      ∧ (x.out = [] → x.freed = [] → s.otherLinks u l
          ∧ (∀ n, n ≠ pairOf (ctlObj l).1 (ctlObj l).2 → n ≠ linkPair l 5 → kvGet none u.objs n = kvGet none s1.objs n))
      ∧ u = { s1 with fab := { s.fab with ports := u.fab.ports }, hedom := { s.hedom with link := u.hedom.link }, objs := u.objs, freeCtr := s.freeCtr + 1
                      dict := { s1.dict with hold := u.dict.hold } }))
  ∧ (∀ (s : State) (p : Principal) (l : Link) (w : BitVec 8) (c : Instr),
    c = (match l with | .port n => .portControlWrite p n w | .hedom => .hedomLinkControlWrite p w) →
    (s.dictFree = false ∨ s.writeCheck p (ctlObj l).1 (ctlObj l).2 ≠ 0) →
    Completes c s (fun u => u = { if s.dictFree then s.countedWrite p (ctlObj l).1 (ctlObj l).2 false else s with freeCtr := s.freeCtr + 1 }))
  ∧ (∀ (s : State) (n : Fin 32), s.linkLives (.port n) = true → (s.port n.val).st = .down →
    Completes (.trainingStart n) s (fun u => u.port n.val = { s.port n.val with st := .training } ∧ s.linkFrame u (.port n) ∧ u.objs = s.objs))
  ∧ (∀ (s : State) (n : Fin 32) (lanes : Fin 4), s.linkLives (.port n) = true → (s.port n.val).st = .training → lanes ≠ 0 → (s.port n.val).still = true →
    Completes (.laneLock (.port n) lanes) s (fun u =>
      let y := u.port n.val
      y.st = .attesting ∧ y.lanes = lanes.val ∧ y.reportSent = s.fw.report ∧ y.peerReport = [] ∧ y.peerKey = [] ∧ y.step = 0
      ∧ y.ack = 65535 ∧ y.parts = [] ∧ y.buf = [] ∧ y.tx = none ∧ y.rx = none ∧ y.seq = y.replay.length
      ∧ (∀ q ∈ y.replay, q.vc = 5 ∧ q.kind = 15) ∧ y.wire.length = (s.port n.val).wire.length + y.replay.length
      ∧ s.linkCounted u (.port n) (fun i => if i = 0 then y.replay.length else 0) ∧ s.linkFrame u (.port n)))
  ∧ (∀ (s : State) (lanes : Fin 4), s.linkLives .hedom = true → s.hedom.link.st = .training → lanes ≠ 0 → s.hedom.link.out = [] → s.hedom.link.resume = false →
    Completes (.laneLock .hedom lanes) s (fun u =>
      u.hedom.link = { s.hedom.link with st := .up, lanes := lanes.val, credits := [32, 0, 32, 0, 32, 0, 32, 0, 32, 0, 8, 0, 0, 0], pool := 856, seq := 0, ack := 4095
                                         buf := [], back := [], asking := false, rtry := false, news := false, replay := [], replays := 0, parts := [], tails := [] }
      ∧ s.linkFrame u .hedom ∧ s.linkCounted u .hedom (fun _ => 0)))
  ∧ (∀ (s : State) (lanes : Fin 4), s.linkLives .hedom = true → s.hedom.link.st = .training → lanes ≠ 0 → s.hedom.link.still = true → s.hedom.link.resume = true →
    s.hedom.link.rtry = false → s.hedom.link.news = false →
    Completes (.laneLock .hedom lanes) s (fun u =>
      hedomLink.resent { s.hedom.link with st := .up, lanes := lanes.val, replays := 0, resume := false } u.hedom.link
      ∧ s.linkCounted u .hedom (fun i => if i = 0 then s.hedom.link.replay.length else 0) ∧ s.linkFrame u .hedom))
  ∧ (∀ (s : State) (l : Link), (s.linkOf l).st = .training →
    Completes (.trainingTimeout l) s (fun u => (u.linkOf l).empty .down ∧ ((s.linkOf l).still = true → s.linkFrame u l ∧ u.objs = s.objs)))
  ∧ (∀ (s : State) (l : Link) (peer : LinkCounts), s.linkLives l = true → (s.linkOf l).st = .retraining → (s.linkOf l).still = true →
    (s.linkOf l).rtry = false → (s.linkOf l).news = false → s.keyFresh l (s.linkOf l).replay.length = true →
    (∀ i, i < 15 → let x := s.linkOf l
      (if i = 14 then x.pool else tabGet 0 x.credits i) + (x.replay.filter (fun q => decide (q.kind = i) && !seqCovered (linkKind l).seqMod q.seq peer.ack.toNat)).length
        + tabGet 0 peer.buffered i + tabGet 0 peer.back i = (linkKind l).room i
      ∧ tabGet 0 peer.credits i + tabGet 0 peer.flying i + tabGet 0 x.buf i + tabGet 0 x.back i = (linkKind l).room i) →
    Completes (.retrainLock l peer) s (fun u =>
      (linkKind l).resent { s.linkOf l with st := .up, replays := 0 } (u.linkOf l)
      ∧ s.linkCounted u l (fun i => if i = 0 then (s.linkOf l).replay.length else 0) ∧ s.linkFrame u l))
  ∧ (∀ (s : State) (l : Link) (c : Instr) (peer : LinkCounts), (s.linkOf l).st = .retraining → (s.linkOf l).still = true →
    (c = .retrainTimeout l ∨ c = .retrainLock l peer ∧ s.linkLives l = true ∧ (s.linkOf l).countsHold (linkKind l) peer = false) →
    s.hedom.txns = [] → (l = .hedom → s.coh.hand = []) →
    Completes c s (fun u =>
      (u.linkOf l).st = .failed ∧ (u.linkOf l).replay = [] ∧ (u.linkOf l).buf = [] ∧ (u.linkOf l).tx = none ∧ (u.linkOf l).rx = none
      ∧ s.recorded u 3 (match l with | .port _ => 0x31 | .hedom => 0x32) (match l with | .port n => n.val | .hedom => 255)
      ∧ u.boot.alert.getLsbD 9 = true ∧ s.linkCounted u l (fun i => if i = 6 ∧ c ≠ .retrainTimeout l then 1 else 0)
      ∧ (l = .hedom → u.hedom.inbox = [] ∧ (∀ m ∈ u.coh.wait ++ u.coh.net, m.src ≠ 192) ∧ (∀ t, t < 192 → ∀ q ∈ (u.tile t).l2.lines, place (64 * q.1) ≠ .host))
      ∧ (l ≠ .hedom → u.hedom.inbox = s.hedom.inbox ∧ u.coh = s.coh ∧ (∀ t, t < 192 → (u.tile t).l2 = (s.tile t).l2))
      ∧ (∀ n : Fin 32, l ≠ .port n → u.port n.val = s.port n.val)
      ∧ (∀ t, u.tile t = { s.tile t with l2 := (u.tile t).l2, core := (s.tile t).core.toldOf (u.tile t).core })
      ∧ u.mem = s.mem ∧ u.cloaks = s.cloaks))
  ∧ (∀ (s : State) (n : Fin 32), ((s.port n.val).st = .up ∨ (s.port n.val).st = .retraining) →
    Completes (.channelStall n) s (fun u =>
      u.obj 0x1C60 4 = Nat.min (s.obj 0x1C60 4 + 1) (2 ^ 32 - 1) ∧ u.boot = { s.boot with alert := s.boot.alert ||| 0x10 }
      ∧ (∀ k, k ≠ pairOf 0x1C60 4 → kvGet none u.objs k = kvGet none s.objs k) ∧ u = { s with objs := u.objs, boot := u.boot }))
  ∧ (∀ (s : State) (r : RefClock) (k : Nat), k = (match r with | .ref100 => 0 | .ref156 => 1 | .ref25 => 2) → s.pins.refLost.getLsbD k = false →
    s.hedom.txns = [] → s.coh.hand = [] →
    Completes (.referenceLoss r) s (fun u =>
      (∀ j, j < 3 → u.pins.refLost.getLsbD j = (s.pins.refLost.getLsbD j || decide (j = k)))
      ∧ u.obj 0x2302 0x13 = Nat.min (s.obj 0x2302 0x13 + 1) (2 ^ 32 - 1)
      ∧ (r = .ref156 → (∀ p, p < 32 → (u.port p).st = .failed) ∧ u.hedom.link.st = .failed ∧ u.boot.alert.getLsbD 9 = true)
      ∧ (r ≠ .ref156 → u.fab = s.fab ∧ u.hedom.link.st = s.hedom.link.st ∧ u.boot = s.boot ∧ s.recorded u 8 6 k)
      ∧ tabGet 0 u.logs.byClass 8 = Nat.min (tabGet 0 s.logs.byClass 8 + 1) (2 ^ 64 - 1)
      ∧ u.mem = s.mem ∧ u.cloaks = s.cloaks))

/-- FLIT_RECEIVE: a link neither UP nor ATTESTING takes nothing. Otherwise the flit, its corrected symbols and bad codewords are
counted. One whose check fails, or that leaves one out, is discarded and its replay asked for with RTRY; until that arrives
every other one is. Else its ACK frees the replay buffer and its credits are added; a sum above the peer's buffer is an audit
failure and fails the link. A flit in sequence takes room in the input buffer, gives its complete packets, in order, and is
acknowledged; requests stay in the buffer. RTRY sends the replay buffer again, and the sixteenth such replay in a row retrains.
LINK_ATTESTATION_MESSAGE: step 1's checks, failing which the port is FAILED and counted, bring the port to the signing of step
2; a verified key then brings it UP with keys, full credits and phase 0. REKEY: a verified exchange sends under the next phase
at once and keeps the receive key. Nothing waits to be sent, and no key is due, where a clause says what a link becomes. The
model's choices in it: assumptions 4, 10, 35, 41, 76. -/
def Obligations.LinkTraffic : Prop :=
  (∀ (s : State) (l : Link) (f : Flit), (s.linkOf l).st ≠ .up → (s.linkOf l).st ≠ .attesting →
    Completes (.flitReceive l f) s (fun u => u = { s with freeCtr := s.freeCtr + 1 }))
  ∧ (∀ (s : State) (l : Link) (f : Flit) (x : Port), x = s.linkOf l → (x.st = .up ∨ x.st = .attesting) → x.still = true → s.keyFresh l 0 = true →
    (x.checkFlit (linkKind l) f = none ∨ (x.checkFlit (linkKind l) f).isSome = true ∧ x.st = .up ∧ x.asking = false ∧ f.vc.val < 6
      ∧ f.seq.toNat % (linkKind l).seqMod ≠ (x.ack + 1) % (linkKind l).seqMod ∧ seqCovered (linkKind l).seqMod (f.seq.toNat % (linkKind l).seqMod) x.ack = false) →
    Completes (.flitReceive l f) s (fun u =>
      let y := u.linkOf l
      y = { x with asking := true, rtry := decide (x.st = .attesting), news := y.news, rx := y.rx, rxKph := y.rxKph, rekeying := y.rekeying, wire := y.wire, back := y.back }
      ∧ (x.st = .up → y.news = false ∧ y.wire.length = x.wire.length + 1 ∧ (y.wire.getLast?.map (fun g => (g.rtry, g.vc, g.ack))) = some (true, 6, BitVec.ofNat 16 x.ack))
      ∧ (x.st = .attesting → y.wire = x.wire ∧ y.news = x.news)
      ∧ s.linkCounted u l (fun i => if i = 0 then flag (decide (x.st = .up)) else if i = 1 then 1 else if i = 2 then f.syms.val else if i = 3 then f.words.val else 0)
      ∧ s.linkFrame u l))
  ∧ (∀ (s : State) (l : Link) (f : Flit) (x : Port), x = s.linkOf l → x.st = .up → (x.checkFlit (linkKind l) f).isSome = true → x.asking = true →
    (6 ≤ f.vc.val ∨ f.seq.toNat % (linkKind l).seqMod ≠ (x.ack + 1) % (linkKind l).seqMod) →
    Completes (.flitReceive l f) s (fun u =>
      u.linkOf l = { x with rx := (u.linkOf l).rx, rxKph := (u.linkOf l).rxKph, rekeying := (u.linkOf l).rekeying }
      ∧ s.linkCounted u l (fun i => if i = 1 then 1 else if i = 2 then f.syms.val else if i = 3 then f.words.val else 0) ∧ s.linkFrame u l))
  ∧ (∀ (s : State) (l : Link) (f : Flit) (b : Bytes) (x : Port) (ps : List Packet) (i : Nat), x = s.linkOf l → x.st = .up → x.checkFlit (linkKind l) f = some b →
    x.pool + f.scnt.toNat ≤ (linkKind l).pool →
    (∀ i, i < 14 → tabGet 0 x.credits i + (if i = 2 * f.cvc.val + flag f.ccls then f.ccnt.toNat else 0) ≤ tabGet 0 (fullCredits (linkKind l)) i) →
    f.rtry = false → f.vc.val < 5 → f.seq.toNat % (linkKind l).seqMod = (x.ack + 1) % (linkKind l).seqMod → x.still = true → s.keyFresh l 0 = true →
    x.roomFor (linkKind l) (2 * f.vc.val + flag f.cls) = some i → (∀ q ∈ x.parts, ∀ h ∈ q.held, h.port = linkNo l) →
    ps = (x.absorb (linkKind l) (linkNo l) i f b).1 → (∀ p ∈ ps, listed (linkKind l) f.vc.val p.opc = true ∧ (l ≠ .hedom → p.dpid = s.pkg)) →
    Completes (.flitReceive l f) s (fun u =>
      let y := u.linkOf l
      let asks := fun (p : Packet) => if l = .hedom then decide (p.opc < 8) else decide (p.opc ≤ 3)
      y.ack = f.seq.toNat % (linkKind l).seqMod
      ∧ y.replay = x.replay.filter (fun q => !seqCovered (linkKind l).seqMod q.seq f.ack.toNat)
      ∧ y.pool = x.pool + f.scnt.toNat
      ∧ (∀ i, i < 14 → tabGet 0 y.credits i = tabGet 0 x.credits i + (if i = 2 * f.cvc.val + flag f.ccls then f.ccnt.toNat else 0))
      ∧ y.parts = (x.absorb (linkKind l) (linkNo l) i f b).2.parts
      ∧ (ps ≠ [] → (∀ p ∈ ps, asks p = true) → ∀ j, j < 15 → tabGet 0 y.buf j = tabGet 0 x.buf j + (if j = i then 1 else 0))
      ∧ (let got := ps.map (fun p => if asks p then p else { p with held := [] })
         (l = .hedom → y.rx = x.rx ∧ u.hedom.inbox = s.hedom.inbox ++ got ∧ u.fab = s.fab) ∧ (l ≠ .hedom → u.fab.inbox = s.fab.inbox ++ got ∧ u.hedom = s.hedom))
      ∧ x.wire.length < y.wire.length ∧ ((y.wire.drop x.wire.length).map (fun g => (g.vc, g.ack))).head? = some (6, BitVec.ofNat 16 y.ack)
      ∧ y = { x with ack := y.ack, asking := false, rtry := false, news := false, replay := y.replay, replays := y.replays, credits := y.credits, pool := y.pool, parts := y.parts
                     buf := y.buf, back := y.back, wire := y.wire, rx := y.rx, rxKph := y.rxKph, rekeying := y.rekeying }
      ∧ s.linkCounted u l (fun i => if i = 0 then y.wire.length - x.wire.length else if i = 1 then 1 else if i = 2 then f.syms.val else if i = 3 then f.words.val else 0)
      ∧ s.otherLinks u l
      ∧ u = { s with fab := { s.fab with ports := u.fab.ports, inbox := u.fab.inbox }, hedom := { s.hedom with link := u.hedom.link, inbox := u.hedom.inbox }
                     objs := u.objs, freeCtr := s.freeCtr + 1 }))
  ∧ (∀ (s : State) (l : Link) (f : Flit) (x : Port), x = s.linkOf l → x.st = .up → (x.checkFlit (linkKind l) f).isSome = true → x.asking = false →
    x.pool + f.scnt.toNat ≤ (linkKind l).pool →
    (∀ i, i < 14 → tabGet 0 x.credits i + (if i = 2 * f.cvc.val + flag f.ccls then f.ccnt.toNat else 0) ≤ tabGet 0 (fullCredits (linkKind l)) i) →
    (6 ≤ f.vc.val ∨ f.seq.toNat % (linkKind l).seqMod ≠ (x.ack + 1) % (linkKind l).seqMod ∧ seqCovered (linkKind l).seqMod (f.seq.toNat % (linkKind l).seqMod) x.ack = true) →
    x.still = true → x.rtry = false → x.news = false → s.keyFresh l x.replay.length = true → x.replays < 16 →
    (∀ q ∈ x.replay, seqCovered (linkKind l).seqMod q.seq f.ack.toNat = false) →
    Completes (.flitReceive l f) s (fun u =>
      let y := u.linkOf l
      let n := x.replay.length
      y.ack = x.ack ∧ y.replay = x.replay ∧ y.parts = x.parts ∧ y.buf = x.buf ∧ y.asking = false
      ∧ (if f.rtry = false then y.st = .up ∧ y.replays = x.replays else if x.replays = 15 then y.st = .retraining ∧ y.replays = 0 else y.st = .up ∧ y.replays = x.replays + 1)
      ∧ y.wire.length = x.wire.length + (if f.rtry ∧ x.replays < 15 then n else 0)
      ∧ s.linkCounted u l (fun i => if i = 0 then (if f.rtry ∧ x.replays < 15 then n else 0) else if i = 1 then 1 else if i = 2 then f.syms.val
          else if i = 3 then f.words.val else if i = 4 then flag f.rtry else if i = 5 ∧ f.rtry ∧ x.replays = 15 then 1 else 0)
      ∧ s.linkFrame u l))
  ∧ (∀ (s : State) (l : Link) (f : Flit) (x : Port), x = s.linkOf l → x.st = .up → (x.checkFlit (linkKind l) f).isSome = true →
    (6 ≤ f.vc.val ∧ x.asking = false ∨ f.vc.val < 6 ∧ f.seq.toNat % (linkKind l).seqMod = (x.ack + 1) % (linkKind l).seqMod) → x.still = true →
    (linkKind l).pool < x.pool + f.scnt.toNat → s.hedom.txns = [] → (l = .hedom → s.coh.hand = []) →
    Completes (.flitReceive l f) s (fun u =>
      (u.linkOf l).st = .failed ∧ (u.linkOf l).replay = [] ∧ u.linkCount l 6 = Nat.min (s.linkCount l 6 + 1) (linkMax l 6)
      ∧ s.recorded u 3 (match l with | .port _ => 0x31 | .hedom => 0x32) (match l with | .port n => n.val | .hedom => 255)
      ∧ u.boot.alert.getLsbD 9 = true ∧ (∀ n : Fin 32, l ≠ .port n → u.port n.val = s.port n.val) ∧ u.mem = s.mem ∧ u.cloaks = s.cloaks))
  ∧ (∀ (s : State) (n port : Fin 32) (chain report : Bytes) (random : BitVec 256), (s.port n.val).st = .attesting → (s.port n.val).step = 0 → (s.port n.val).still = true →
    Completes (.linkAttestationMessage n (.hello chain report random port)) s (fun u =>
      let x := s.port n.val
      (match Crypto.chainKey chain, s.peerOk report with
       | some k, true => decide (u.port n.val = { x with step := 2, peerRandom := random, peerReport := report, peerKey := k, peerPort := port.val, myEph := (u.port n.val).myEph }
           ∧ u.fw = { s.fw with signing := s.fw.signing ++ [.port n.val] } ∧ u.objs = s.objs ∧ u.logs = s.logs)
       | _, _ => decide ((u.port n.val).empty .failed ∧ u.obj 0x1C55 (n.val + 1) = Nat.min (s.obj 0x1C55 (n.val + 1) + 1) (2 ^ 32 - 1)
           ∧ s.recorded u 3 0x31 n.val ∧ u.boot.alert.getLsbD 9 = true ∧ u.fw = s.fw)) = true
      ∧ (∀ m : Fin 32, m ≠ n → u.port m.val = s.port m.val) ∧ s.told { u with objs := s.objs } ∧ u.mem = s.mem ∧ u.cloaks = s.cloaks))
  ∧ (∀ (s : State) (n : Fin 32) (pub sig : Bytes), (s.port n.val).st = .attesting → 3 ≤ (s.port n.val).step → (s.port n.val).still = true →
    Completes (.linkAttestationMessage n (.key pub sig)) s (fun u =>
      let x := s.port n.val
      let y := u.port n.val
      (if Crypto.verify x.peerKey (x.transcript n.val pub) sig then
        y = { x with st := .up, credits := List.replicate 10 32 ++ [16, 0, 0, 0], pool := 1712, seq := 0, ack := 65535, asking := false, rtry := false, news := false
                     buf := [], back := [], replay := [], replays := 0, parts := [], tails := []
                     tx := some (x.deriveKeys pub).1, rx := some (x.deriveKeys pub).2, kph := 0, rxKph := 0, sinceKey := 0, keyAt := s.gov.uptime, asked := false
                     rekeying := none, step := 5 }
        ∧ s.linkFrame u (.port n) ∧ s.linkCounted u (.port n) (fun _ => 0)
      else y.empty .failed ∧ u.obj 0x1C55 (n.val + 1) = Nat.min (s.obj 0x1C55 (n.val + 1) + 1) (2 ^ 32 - 1) ∧ s.recorded u 3 0x31 n.val)
      ∧ (∀ m : Fin 32, m ≠ n → u.port m.val = s.port m.val) ∧ u.mem = s.mem ∧ u.cloaks = s.cloaks))
  ∧ (∀ (s : State) (n : Fin 32) (m : RekeyMsg) (sig : Bytes), (s.port n.val).st = .up → (s.port n.val).still = true →
    Completes (.rekey n m sig) s (fun u =>
      let x := s.port n.val
      let y := u.port n.val
      let said := (if x.asked then s else s.sayHello n.val).port n.val
      let z := { said with peerRandom := m.random, peerReport := m.report, peerPort := m.port.val, myEph := y.myEph }
      (match Crypto.chainKey m.chain, s.peerOk m.report with
       | some k, true =>
         let z := { z with peerKey := k }
         if Crypto.verify k (z.transcript n.val m.pub) sig then
           decide (y.st = .up ∧ y.tx = some (z.deriveKeys m.pub).1 ∧ y.kph = x.kph + 1 ∧ y.rekeying = some (z.deriveKeys m.pub) ∧ y.rx = x.rx ∧ y.rxKph = x.rxKph
             ∧ y.sinceKey = 0 ∧ y.keyAt = s.gov.uptime ∧ y.asked = false ∧ y.peerKey = k ∧ y.peerReport = m.report ∧ y.parts = x.parts ∧ y.buf = x.buf ∧ y.ack = x.ack)
         else decide (y.empty .failed)
       | _, _ => decide (y.empty .failed)) = true
      ∧ (if y.st = .up then s.linkFrame u (.port n)
         else u.obj 0x1C55 (n.val + 1) = Nat.min (s.obj 0x1C55 (n.val + 1) + 1) (2 ^ 32 - 1) ∧ s.recorded u 3 0x31 n.val)
      ∧ (∀ m : Fin 32, m ≠ n → u.port m.val = s.port m.val) ∧ u.mem = s.mem ∧ u.cloaks = s.cloaks))

/-- RD, WR and FABRIC_ATOM serve the oldest request of their opcode that is first on its channel. A request of the open domain
that fails a check of R327 is counted and answered ERR; one that passes reads, writes or updates memory once its lines are idle
and its charge is met on the shared pool, and its response leaves by a routed port. A response reaches the access that its tag
names, ERR and REMOTE_TIMEOUT as a fault (with a record at the timeout); a late one is dropped. REDUCTION_ENABLE makes an entry
ACTIVE where its configuration is good and its window fits, OFF with EN 0; an ACTIVE or FAILED one keeps its content. RED adds a
child's contribution, and the last one sends the sum rounded to the parent. REDRES writes a chunk's result, acknowledges this
member's write and goes to the children. At a chunk timeout the entry is FAILED and its waiting writes are answered REDFAIL. The
model's choices in it: assumptions 2, 4, 10, 32, 33, 34, 78. -/
def Obligations.FabricPackets : Prop :=
  (∀ (s : State) (p : Packet) (q : Nat) (c : Instr), (c = .rd ∧ p.opc = 1 ∨ c = .wr ∧ p.opc = 2 ∨ c = .fabricAtom ∧ p.opc = 3) →
    nextRequest s.fab.inbox p.opc = some p → p.group = 0 → s.openCheck p ≠ 0 → (s.dropInbox p).way q (s.answerTo p 0x13 (s.openCheck p) []) →
    Completes c s (fun u =>
      (s.dropInbox p).leaves u q (s.answerTo p 0x13 (s.openCheck p) []) ∧ u.fab.inbox = s.fab.inbox.erase p
      ∧ u.obj 0x1C60 1 = Nat.min (s.obj 0x1C60 1 + 1) (2 ^ 64 - 1) ∧ s.onlyFabricCounts u
      ∧ (tabGet 0 u.logs.byClass 3 = if s.cloakAt p.addr ≠ 0 then Nat.min (tabGet 0 s.logs.byClass 3 + 1) (2 ^ 64 - 1) else tabGet 0 s.logs.byClass 3)
      ∧ u.fab.txns = s.fab.txns ∧ u.mem = s.mem ∧ u.coh = s.coh ∧ s.packetFrame u))
  ∧ (∀ (s : State) (p : Packet) (q : Nat) (c : Instr) (a : Packet) (r : Bytes) (w : Bytes),
    nextRequest s.fab.inbox p.opc = some p → p.group = 0 → s.openCheck p = 0 → s.quietAt p.addr p.span → 0 < p.span → s.canonical →
    homeCharge p.addr p.span ≤ s.gov.shared →
    (c = .rd ∧ p.opc = 1 ∧ r = memRead s.mem.bytes p.addr p.len ∧ w = [] ∧ a = s.answerTo p 0x10 0 r
      ∨ c = .wr ∧ p.opc = 2 ∧ p.data.length = p.len ∧ r = [] ∧ w = p.data ∧ a = s.answerTo p 0x11 0 r
      ∨ c = .fabricAtom ∧ p.opc = 3 ∧ (∃ x ∈ (atomRead p.data).toList, p.addr % x.2.1 = 0 ∧ r = memRead s.mem.bytes p.addr x.2.1
          ∧ w = natLe x.2.1 (atomNew x.1 x.2.1 (leNat r) x.2.2.1 x.2.2.2)) ∧ a = s.answerTo p 0x12 0 r) →
    (s.dropInbox p).way q a →
    Completes c s (fun u =>
      (s.dropInbox p).leaves u q a ∧ s.memAfter u p.addr w ∧ u.fab.inbox = s.fab.inbox.erase p
      ∧ u.obj 0x1B03 1 = (if s.cloaks.coarse.active then s.obj 0x1B03 1 else Nat.min (s.obj 0x1B03 1 + 1) (2 ^ 64 - 1)) ∧ s.onlyServedCounts u
      ∧ u.logs = s.logs ∧ u.tiles = s.tiles ∧ (s.afterCharge (homeCharge p.addr p.span)).packetFrame u))
  ∧ (∀ (s : State) (p : Packet) (c : Instr), (c = .rd ∧ p.opc = 1 ∨ c = .wr ∧ p.opc = 2 ∨ c = .fabricAtom ∧ p.opc = 3) →
    nextRequest s.fab.inbox p.opc = some p → p.group = 0 → s.openCheck p = 0 → (p.opc = 3 → (atomRead p.data).isSome = true) →
    (s.gov.shared < homeCharge p.addr p.span ∨ p.opc ≠ 3 ∧ s.anyBusy p.addr p.span = true) →
    Completes c s (fun u => u = { s with freeCtr := s.freeCtr + 1 }))
  ∧ (∀ (s : State) (opc : Nat) (c : Instr), (c = .rd ∧ opc = 1 ∨ c = .wr ∧ opc = 2 ∨ c = .fabricAtom ∧ opc = 3) → nextRequest s.fab.inbox opc = none →
    Completes c s (fun u => u = { s with freeCtr := s.freeCtr + 1 }))
  ∧ (∀ (s : State) (p : Packet) (x : RTxn) (c : Instr) (t : Nat) (d : Dest) (st : PendStore),
    (c = .rdrsp ∧ p.opc = 0x10 ∨ c = .wrack ∧ p.opc = 0x11 ∨ c = .fabricAtomrsp ∧ p.opc = 0x12 ∨ c = .fabricErr ∧ p.opc = 0x13) →
    s.fab.inbox.find? (fun q => decide (q.opc = p.opc)) = some p → p.sealed = false →
    s.fab.txns.filter (fun y => y.takes p) = [x] → x.user = .core t d → t < 192 →
    (d = .store → (s.tile t).core.storeQ = [st] ∧ st.addr = x.pkg * 2 ^ 44 + x.addr) → (∀ r fp n sg off, d ≠ .half r fp n sg off) →
    Completes c s (fun u =>
      u.fab = { (s.dropInbox p).fab with txns := s.fab.txns.erase x } ∧ u.fab.inbox = s.fab.inbox.erase p
      ∧ (u.tile t).core.events = (s.tile t).core.events ++ (if p.opc = 0x13 then [.owner (BitVec.ofNat 64 (x.pkg * 2 ^ 44 + x.addr))] else [])
      ∧ (d = .store → (u.tile t).core.storeQ = [])
      ∧ (match d with
         | .xreg r n sg => if p.opc = 0x13 ∨ r = 0 ∨ 8 < n then True else u.xreg t r.val = extendTo64 sg p.data
         | .freg r => if p.opc = 0x13 then True else u.freg t r.val = BitVec.ofNat 64 (leNat p.data)
         | .atom r n => if p.opc = 0x13 ∨ r = 0 ∨ n = 16 then True else u.xreg t r.val = extendTo64 (decide (n = 4)) p.data
         | _ => True)
      ∧ (∀ r, r ∉ Dest.xs d → u.xreg t r = s.xreg t r) ∧ (∀ r, r ∉ Dest.fs d → u.freg t r = s.freg t r)
      ∧ u.tile t = { s.tile t with core := { (s.tile t).core with x := (u.tile t).core.x, f := (u.tile t).core.f, events := (u.tile t).core.events
                                                                  waiting := (u.tile t).core.waiting, storeQ := (u.tile t).core.storeQ } }
      ∧ s.otherTiles u t ∧ u = { s.dropInbox p with tiles := u.tiles, fab := u.fab, freeCtr := s.freeCtr + 1 }))
  ∧ (∀ (s : State) (p : Packet) (c : Instr), (c = .rdrsp ∧ p.opc = 0x10 ∨ c = .wrack ∧ p.opc = 0x11 ∨ c = .fabricAtomrsp ∧ p.opc = 0x12 ∨ c = .fabricErr ∧ p.opc = 0x13) →
    s.fab.inbox.find? (fun q => decide (q.opc = p.opc)) = some p → p.sealed = false → s.fab.txns.filter (fun y => y.takes p) = [] →
    Completes c s (fun u => u = { s.dropInbox p with freeCtr := s.freeCtr + 1 } ∧ u.fab.inbox = s.fab.inbox.erase p))
  ∧ (∀ (s : State) (tag : BitVec 16) (x : RTxn) (t : Nat) (r : Fin 32) (n : Nat) (sg : Bool), s.fab.txns.filter (fun y => decide (y.tag = tag)) = [x] →
    x.user = .core t (.xreg r n sg) → t < 192 → s.tag t = 0 →
    Completes (.remoteTimeout tag) s (fun u =>
      u.fab = { s.fab with txns := s.fab.txns.erase x } ∧ (u.tile t).core.events = (s.tile t).core.events ++ [.owner (BitVec.ofNat 64 (x.pkg * 2 ^ 44 + x.addr))]
      ∧ s.recorded u 4 0x10 0xFF ∧ (u.tile t).core.x = (s.tile t).core.x
      ∧ s.told u ∧ u = { s with tiles := u.tiles, fab := u.fab, logs := u.logs, objs := u.objs, hedom := u.hedom, freeCtr := u.freeCtr }))
  ∧ (∀ (s s1 : State) (p : Principal) (i : Fin 64) (v : BitVec 128) (new : Nat), s.dictFree = true → s.writeCheck p 0x1C30 (i.val + 1) = 0 → s.fab.writes = [] →
    new = (let e := v.toNat / 2 ^ 37 * 2 ^ 37
      let old := s.redEntry i.val
      let used := sumNat ((List.range 64).map (fun j => if j ≠ i.val ∧ redState (s.redEntry j) = 1 then redStore (s.redEntry j) else 0))
      if !v.getLsbD 36 then (if s.redBad p e then e + 4 * 2 ^ 33 else e) else if redState old = 1 ∨ redState old = 3 then old else if s.redBad p e then e + 4 * 2 ^ 33
        else if 32 < used + (if redFmt e = 3 ∨ redFmt e = 4 then 2 else 1) then e + 2 * 2 ^ 33 else e + 2 ^ 36 + 2 ^ 33) →
    s1 = s.countedWrite p 0x1C30 (i.val + 1) (decide (new ≠ v.toNat)) →
    Completes (.reductionEnable p i v) s (fun u =>
      u.redEntry i.val = new
      ∧ u.fab.chunks = (if !v.getLsbD 36 then s.fab.chunks.filter (fun x => decide (x.entry ≠ i.val)) else s.fab.chunks)
      ∧ (∀ n, n ≠ pairOf 0x1C30 (i.val + 1) → kvGet none u.objs n = kvGet none s1.objs n)
      ∧ u = { s1 with objs := u.objs, fab := { s.fab with chunks := u.fab.chunks, done := u.fab.done, low := u.fab.low }, freeCtr := s.freeCtr + 1
                      dict := { s1.dict with hold := u.dict.hold } }))
  ∧ (∀ (s : State) (i : Fin 64), redState (s.redEntry i.val) = 1 →
    (s.fab.chunks.any (fun x => decide (x.entry = i.val)) || s.fab.writes.any (fun w => decide (w.entry = i.val))) = true →
    Completes (.reductionChunkTimeout i) s (fun u =>
      redState (u.redEntry i.val) = 3 ∧ u.redEntry i.val / 2 ^ 36 = s.redEntry i.val / 2 ^ 36
      ∧ u.fab.chunks = s.fab.chunks.filter (fun x => decide (x.entry ≠ i.val)) ∧ u.fab.writes = s.fab.writes.filter (fun w => decide (w.entry ≠ i.val))
      ∧ u.fab.inbox = s.fab.inbox ++ (((s.fab.writes.filter (fun w => decide (w.entry = i.val))).map (fun w => w.tag)).eraseDups.filter
            (fun g => !(s.fab.writes.any (fun w => decide (w.entry ≠ i.val) && decide (w.tag = g))))).map
          (fun g => { dpid := s.pkg, spid := redRoot (s.redEntry i.val), opc := 0x13, tag := g, addr := 9 })
      ∧ (∀ n, n ≠ pairOf 0x1C30 (i.val + 1) → kvGet none u.objs n = kvGet none s.objs n)
      ∧ u = { s with objs := u.objs, freeCtr := s.freeCtr + 1
                     fab := { s.fab with inbox := u.fab.inbox, chunks := u.fab.chunks, writes := u.fab.writes, done := u.fab.done, low := u.fab.low } }))
  ∧ (∀ (s : State) (p : Packet) (i : Nat), s.fab.inbox.find? (fun q => decide (q.opc = 4)) = some p → p.sealed = false → s.redOf p true = some i →
    p.data.length = 256 → s.fab.chunks = [] → s.fab.writes = [] → 1 ≤ (treeChildren (s.tree (redTree (s.redEntry i)))).length →
    Completes .red s (fun u =>
      u.fab = { (s.dropInbox p).fab with
        chunks := [{ entry := i, chunk := (p.addr - redBase (s.redEntry i)) / 256, acc := redElems (s.redEntry i) p.data, from_ := [p.spid] }] }
      ∧ u.fab.inbox = s.fab.inbox.erase p ∧ u = { s.dropInbox p with fab := u.fab, freeCtr := s.freeCtr + 1 }))
  ∧ (∀ (s : State) (p : Packet) (i : Nat), s.fab.inbox.find? (fun q => decide (q.opc = 4)) = some p → p.sealed = false → s.redOf p true = some i →
    p.data.length = 256 →
    s.fab.chunks.any (fun x => decide (x.entry = i) && decide (x.chunk = (p.addr - redBase (s.redEntry i)) / 256) && x.from_.contains p.spid) = true →
    Completes .red s (fun u => u = { s with freeCtr := s.freeCtr + 1 }))
  ∧ (∀ (s : State) (p : Packet) (i q : Nat) (x : RedChunk) (a : Packet), s.fab.inbox.find? (fun q => decide (q.opc = 4)) = some p → p.sealed = false →
    s.redOf p true = some i → redGroup (s.redEntry i) = 0 → redRoot (s.redEntry i) ≠ s.pkg → p.data.length = 256 → s.fab.writes = [] → s.fab.chunks = [x] → x.entry = i →
    x.chunk = (p.addr - redBase (s.redEntry i)) / 256 → p.spid ∉ x.from_ → x.forwarded = false →
    (treeChildren (s.tree (redTree (s.redEntry i)))).length = x.from_.length →
    a = { dpid := field (s.tree (redTree (s.redEntry i))) 115 104, opc := 4, len := 256, addr := redBase (s.redEntry i) + 256 * x.chunk, spid := s.pkg
          hops := s.obj 0x1C00 6
          data := (redBytes (s.redEntry i) ((x.acc.zip (redElems (s.redEntry i) p.data)).map (fun y => (redAdd (s.redEntry i) y.1 y.2).1))).1 } →
    (s.dropInbox p).way q a →
    Completes .red s (fun u =>
      (s.dropInbox p).leaves u q a ∧ (u.fab.chunks.map (fun y => (y.entry, y.chunk, y.forwarded))) = [(i, x.chunk, true)]
      ∧ u.fab.inbox = s.fab.inbox.erase p ∧ u.mem = s.mem ∧ s.onlyFabricCounts u ∧ u = { s.dropInbox p with fab := u.fab, objs := u.objs, freeCtr := s.freeCtr + 1 }))
  ∧ (∀ (s : State) (p : Packet) (i : Nat) (w : RedWrite), s.fab.inbox.find? (fun q => decide (q.opc = 5)) = some p → p.sealed = false → s.redOf p false = some i →
    s.fab.chunks = [] → s.fab.writes = [w] → w.entry = i → w.chunk = (p.addr - redBase (s.redEntry i)) / 256 → w.taken = true → p.data.length = 256 →
    p.addr = redBase (s.redEntry i) + 256 * w.chunk → tabGet 0 s.fab.low i = w.chunk → w.chunk + 1 < redSize (s.redEntry i) / 256 → s.fab.done = [] →
    treeChildren (s.tree (redTree (s.redEntry i))) = [] → s.quietAt p.addr 256 → s.canonical →
    Completes .redres s (fun u =>
      let kept := s.reachesAll 0 p.addr 256
      s.memAfter u p.addr (if redOne (s.redEntry i) || !kept then [] else p.data)
      ∧ u.obj 0x1C60 1 = (if redOne (s.redEntry i) || kept then s.obj 0x1C60 1 else Nat.min (s.obj 0x1C60 1 + 1) (2 ^ 64 - 1)) ∧ s.onlyServedCounts u
      ∧ u.fab.writes = [] ∧ tabGet 0 u.fab.low i = w.chunk + 1
      ∧ u.fab.inbox = s.fab.inbox.erase p ++ [{ dpid := s.pkg, spid := redRoot (s.redEntry i), opc := 0x11, tag := w.tag }]
      ∧ u.fab.done = []
      ∧ u = { s.dropInbox p with fab := { (s.dropInbox p).fab with inbox := u.fab.inbox, writes := [], done := u.fab.done, low := u.fab.low }, mem := u.mem, coh := { s.coh with filter := u.coh.filter, prio := u.coh.prio }, freeCtr := s.freeCtr + 1, objs := u.objs }))
  ∧ (∀ (s : State) (p : Packet) (c : Instr), (c = .red ∧ p.opc = 4 ∨ c = .redres ∧ p.opc = 5) → s.fab.inbox.find? (fun q => decide (q.opc = p.opc)) = some p →
    p.sealed = false → s.redOf p (decide (p.opc = 4)) = none →
    Completes c s (fun u =>
      u.fab = (s.dropInbox p).fab ∧ u.fab.inbox = s.fab.inbox.erase p ∧ u.obj 0x1C60 2 = Nat.min (s.obj 0x1C60 2 + 1) (2 ^ 64 - 1) ∧ s.onlyFabricCounts u
      ∧ u = { s.dropInbox p with fab := u.fab, objs := u.objs, freeCtr := s.freeCtr + 1 }))

/-- A request of the host that is first on its channel and not held by an earlier write is served as node 192: outside OPEN
memory it is refused (answered with all ones or discarded, counted and logged); in Snowplough only the mailbox is served, and
any other request is answered ERR DOWN; a non-caching read, write or atomic of idle lines is done in memory, and waits until its
charge on the shared pool is met. Answers of the host reach their access by tag, ERR and HOST_TIMEOUT as an uncorrectable error
with a record; late ones are dropped. A snoop for a host line is answered from the L2s, and waits for an access that is to use
its grant. RCFG_WRITE configures a ring that is not enabled or disables it; HIDX_WRITE and DIDX_WRITE store an index clamped
between the other one and SIZE, and ring the tile or raise the vector; DBPEND_CLEAR and VCTL_WRITE act on their bits; a write
without the access code does nothing. The model's choices in it: assumptions 10, 31, 32, 40, 52, 78. -/
def Obligations.HostPacketsAndRings : Prop :=
  (∀ (s : State) (p : Packet) (c : Instr) (v : Vec), hostOpcode c = some p.opc → s.hostAsks p.opc p → s.boot.st = .ready → place (hostAddr p) ≠ .window →
    (place (hostAddr p) = .host ∨ place (hostAddr p) = .reserved ∨ s.reachesAll 0 (hostAddr p) (hostSpan p) = false) →
    v = tabGet ({} : Vec) s.hedom.vectors (s.obj 0x1E03 5) → (2048 ≤ s.obj 0x1E03 5 ∨ v.mask = true) →
    Completes c s (fun u =>
      let kind := match place (hostAddr p) with | .lining => 0 | .hbm => 1 | _ => 2
      let e := match granuleOf (if s.reaches 0 (hostAddr p) then hostAddr p + hostSpan p - 1 else hostAddr p) with | some g => s.granule g | none => 0
      let st := if kind = 2 then 0 else entState e
      let held := s.cloaks.coarse.active && decide (st = 1)
      let new := if held then u.hedom.heldRefusals.getLast? else u.hedom.refusals.head?
      s.repliedHost u p (hostAnswerTo p (if p.opc = 3 ∨ p.opc = 5 then 0x12 else if p.opc = 6 then 0x17 else 0x10) 1
        (if p.opc = 3 ∨ p.opc = 5 then [] else List.replicate (hostSpan p) 0xFF))
      ∧ u.obj 0x1E11 1 = Nat.min (s.obj 0x1E11 1 + 1) (2 ^ 64 - 1)
      ∧ (new.map (fun r => (r.addr.toNat, r.opc.toNat, r.kind.toNat, r.state.toNat, r.owner.toNat))) =
          some (hostAddr p, p.opc % 64, kind, st, if kind = 2 then 0 else entOwner e)
      ∧ (if held then u.hedom.refusals = s.hedom.refusals else u.hedom.heldRefusals = s.hedom.heldRefusals ∧ u.hedom.refusals.length ≤ 64)
      ∧ u.mem = s.mem ∧ u.hedom.txns = s.hedom.txns
      ∧ u = { s.dropHost p with hedom := u.hedom, objs := u.objs, freeCtr := u.freeCtr }))
  ∧ (∀ (s : State) (p : Packet) (c : Instr), hostOpcode c = some p.opc → s.hostAsks p.opc p → s.boot.st = .snowplough → toMailbox (hostAddr p) = false →
    Completes c s (fun u => s.repliedHost u p (hostAnswerTo p 0x18 7 []) ∧ u.mem = s.mem
      ∧ u = { s.dropHost p with hedom := u.hedom, objs := u.objs, freeCtr := u.freeCtr }))
  ∧ (∀ (s : State) (opc : Nat) (c : Instr), hostOpcode c = some opc →
    (s.nextHost opc = none ∨ (∃ p ∈ s.hedom.inbox, s.nextHost opc = some p ∧ (s.hostOrdered p = false ∨ s.boot.st ≠ .ready ∧ s.boot.st ≠ .snowplough))) →
    Completes c s (fun u => u = { s with freeCtr := s.freeCtr + 1 }))
  ∧ (∀ (s : State) (p a : Packet) (c : Instr) (r w : Bytes), hostOpcode c = some p.opc → s.hostAsks p.opc p → s.boot.st = .ready →
    (place (hostAddr p) = .lining ∨ place (hostAddr p) = .hbm) → s.reachesAll 0 (hostAddr p) (hostSpan p) = true → s.canonical →
    (s.meet (lineOf (hostAddr p)) (requestFound c) (decide (p.opc = 5))).quietAt (hostAddr p) (hostSpan p) → 0 < hostSpan p →
    hostCharge p ≤ s.gov.shared → s.capped (64 * lineOf (hostAddr p)) = false →
    (p.opc = 4 ∧ r = memRead s.mem.bytes (hostAddr p) p.len ∧ w = [] ∧ a = hostAnswerTo p 0x10 0 r
      ∨ p.opc = 5 ∧ w = p.data ∧ a = hostAnswerTo p 0x12 0 []
      ∨ p.opc = 6 ∧ (∃ x ∈ (atomRead p.data).toList, hostAddr p % x.2.1 = 0 ∧ r = memRead s.mem.bytes (hostAddr p) x.2.1
          ∧ w = natLe x.2.1 (atomNew x.1 x.2.1 (leNat r) x.2.2.1 x.2.2.2)) ∧ a = hostAnswerTo p 0x17 0 r) →
    Completes c s (fun u =>
      s.repliedHost u p a ∧ s.memAfter u (hostAddr p) w ∧ u.hedom.txns = s.hedom.txns ∧ u.tiles = s.tiles
      ∧ u = { (s.afterCharge (hostCharge p)).dropHost p with hedom := u.hedom, objs := u.objs, mem := u.mem, coh := { s.coh with filter := u.coh.filter, prio := u.coh.prio }, freeCtr := u.freeCtr }))
  ∧ (∀ (s : State) (p : Packet) (c : Instr), hostOpcode c = some p.opc → s.hostAsks p.opc p → s.boot.st = .ready →
    (place (hostAddr p) = .lining ∨ place (hostAddr p) = .hbm) → s.reachesAll 0 (hostAddr p) (hostSpan p) = true →
    (s.capped (64 * lineOf (hostAddr p)) = true ∨ s.gov.shared < hostCharge p) → Completes c s (fun u => u = { s with freeCtr := s.freeCtr + 1 }))
  ∧ (∀ (s : State) (p : Packet) (l : BitVec 38) (c : Instr) (x : RTxn) (t : Nat) (r : Fin 32) (n : Nat) (sg : Bool),
    (c = .data 192 l ∧ p.opc = 0x10 ∨ c = .datax 192 l ∧ p.opc = 0x11 ∨ c = .cmp 192 l ∧ p.opc = 0x12 ∨ c = .atomrsp 192 l ∧ p.opc = 0x17) →
    s.nextHost p.opc = some p → s.handOf (lineOf (hostAddr p)) = none → s.hostTxnOf p.tag = some x → t < 192 → s.hedom.waiting = [] →
    x.user = .core t (if p.opc = 0x17 then .atom r n else .xreg r n sg) → r ≠ 0 → n ≤ 8 →
    Completes c s (fun u =>
      u.xreg t r.val = extendTo64 (if p.opc = 0x17 then decide (n = 4) else sg) p.data ∧ (∀ j, j ≠ r.val → u.xreg t j = s.xreg t j)
      ∧ u.hedom = { (s.dropHost p).hedom with txns := s.hedom.txns.erase x } ∧ u.hedom.inbox = s.hedom.inbox.erase p
      ∧ u.tile t = { s.tile t with core := { (s.tile t).core with x := (u.tile t).core.x } } ∧ s.otherTiles u t
      ∧ u = { s.dropHost p with tiles := u.tiles, hedom := u.hedom, freeCtr := s.freeCtr + 1 }))
  ∧ (∀ (s : State) (p : Packet) (l : BitVec 38) (tag : BitVec 16) (c : Instr) (x : RTxn) (t : Nat) (r : Fin 32) (n : Nat) (sg : Bool),
    (c = .err 192 l ∧ s.nextHost 0x18 = some p ∧ tag = p.tag ∨ c = .hostTimeout tag) → s.hostTxnOf tag = some x → x.user = .core t (.xreg r n sg) → t < 192 →
    s.hedom.waiting = [] → s.tag t = 0 →
    Completes c s (fun u =>
      (u.tile t).core.events = (s.tile t).core.events ++ [.machineCheck (BitVec.ofNat 64 (s.pkg * 2 ^ 44 + (x.addr - s.obj 0x1E00 3) + 0x40000000000))]
      ∧ s.recorded u (if c = .hostTimeout tag then 4 else 2) 0x10 0xFF ∧ (u.tile t).core.x = (s.tile t).core.x
      ∧ u.hedom.inbox = (if c = .hostTimeout tag then s.hedom.inbox else s.hedom.inbox.erase p)
      ∧ (∀ y ∈ s.hedom.txns.erase x, y ∈ u.hedom.txns) ∧ s.otherTiles u t ∧ u.mem = s.mem ∧ u.cloaks = s.cloaks
      ∧ u = { (if c = .hostTimeout tag then s else s.dropHost p) with tiles := u.tiles, hedom := u.hedom, objs := u.objs, logs := u.logs, freeCtr := u.freeCtr }))
  ∧ (∀ (s : State) (p : Packet) (l : BitVec 38) (c : Instr),
    (c = .data 192 l ∧ p.opc = 0x10 ∨ c = .datax 192 l ∧ p.opc = 0x11 ∨ c = .cmp 192 l ∧ p.opc = 0x12 ∨ c = .atomrsp 192 l ∧ p.opc = 0x17 ∨ c = .err 192 l ∧ p.opc = 0x18) →
    s.nextHost p.opc = some p → s.handOf (lineOf (hostAddr p)) = none → s.hostTxnOf p.tag = none →
    Completes c s (fun u => u = { s.dropHost p with freeCtr := s.freeCtr + 1 } ∧ u.hedom.inbox = s.hedom.inbox.erase p))
  ∧ (∀ (s : State) (p : Packet) (l : BitVec 38) (c : Instr) (t : Nat) (x : L2Line),
    (c = .snps 192 l ∧ p.opc = 8 ∨ c = .snpx 192 l ∧ p.opc = 9 ∨ c = .snpcur 192 l ∧ p.opc = 0x0A ∨ c = .snpinv 192 l ∧ p.opc = 0x0B ∨ c = .inv 192 l ∧ p.opc = 0x0C) →
    s.nextHost p.opc = some p → t < 192 → s.l2 t (lineOf (hostAddr p)) = x → x.st ≠ .i → (∀ y, y < 192 → y ≠ t → (s.l2 y (lineOf (hostAddr p))).st = .i) →
    (∀ y, y < 192 → (s.tile y).l2.out = [] ∧ s.wbOf y (lineOf (hostAddr p)) = none) →
    Completes c s (fun u =>
      let k := p.opc
      u.l2 t (lineOf (hostAddr p)) = (if k = 8 then { x with st := .s } else if k = 0x0A then x else {})
      ∧ s.repliedHost u p (if k = 0x0C then hostAnswerTo p 0x13 0 [] else hostAnswerTo p 0x14 (if x.st = .m then 2 else 1) (if x.st = .m then x.data else []))
      ∧ u.coh.tracker = (if k = 8 ∨ k = 0x0A then s.coh.tracker else s.coh.tracker.filter (fun q => decide (q.1 ≠ lineOf (hostAddr p))))
      ∧ u.tile t = { s.tile t with l2 := (u.tile t).l2, xlat := { (s.tile t).xlat with cnt := (u.tile t).xlat.cnt } } ∧ s.otherTiles u t
      ∧ u = { s.dropHost p with tiles := u.tiles, hedom := u.hedom, coh := { s.coh with tracker := u.coh.tracker }, objs := u.objs }))
  ∧ (∀ (s : State) (p : Principal) (r : Fin 256) (v : BitVec 64), s.linkCode p (.rcfg r.val) = 3 →
    Completes (.rcfgWrite p r v) s (fun u =>
      let x := s.ring r.val
      let y := u.ring r.val
      (if v.getLsbD 63 = true ∧ x.en = true then y = x else
        y.en = v.getLsbD 63 ∧ y.dir = v.getLsbD 62 ∧ y.tile = Nat.min (field v.toNat 55 48) 191 ∧ y.vec = field v.toNat 47 37 ∧ y.ven = v.getLsbD 36
        ∧ y.size = Nat.max 1 (Nat.min (field v.toNat 31 0) (2 ^ 31))
        ∧ y.hidx = (if v.getLsbD 63 then 0 else x.hidx) ∧ y.didx = (if v.getLsbD 63 then 0 else x.didx))
      ∧ (∀ q, q ≠ r.val → u.ring q = s.ring q) ∧ u = { s with hedom := { s.hedom with rings := u.hedom.rings } }))
  ∧ (∀ (s : State) (p : Principal) (r : Fin 256) (v : BitVec 32), s.linkCode p (.hidx r.val) = 3 →
    Completes (.hidxWrite p r v) s (fun u =>
      let x := s.ring r.val
      let d := (v - x.didx).toNat
      u.ring r.val = { x with hidx := if x.dir then (if d = 0 ∨ 2 ^ 31 ≤ d then v else x.didx) else if d ≤ x.size then v else if 2 ^ 31 ≤ d then x.didx else x.didx + BitVec.ofNat 32 x.size }
      ∧ (∀ q, q ≠ r.val → u.ring q = s.ring q)
      ∧ (∀ i, tabGet 0 u.hedom.dbpend i = if i = 4 * x.tile + r.val / 64 then tabGet 0 s.hedom.dbpend i ||| BitVec.ofNat 64 (2 ^ (r.val % 64)) else tabGet 0 s.hedom.dbpend i)
      ∧ (u.tile x.tile).core.events = (s.tile x.tile).core.events ++ [.doorbell] ∧ (u.tile x.tile).core.waiting = false
      ∧ s.ringFrame u x.tile ∧ u.hedom = { s.hedom with rings := u.hedom.rings, dbpend := u.hedom.dbpend } ∧ u.objs = s.objs))
  ∧ (∀ (s : State) (p : Principal) (r : Fin 256) (v : BitVec 32), s.linkCode p (.didx r.val) = 3 →
    Completes (.didxWrite p r v) s (fun u =>
      let x := s.ring r.val
      let d := (v - x.hidx).toNat
      u.ring r.val = { x with didx := if x.dir then (if d ≤ x.size then v else if 2 ^ 31 ≤ d then x.hidx else x.hidx + BitVec.ofNat 32 x.size) else if d = 0 ∨ 2 ^ 31 ≤ d then v else x.hidx }
      ∧ (∀ q, q ≠ r.val → u.ring q = s.ring q) ∧ (x.ven = true → s.vectorRaised u x.vec) ∧ (x.ven = false → u.hedom = { s.hedom with rings := u.hedom.rings })
      ∧ u.tiles = s.tiles ∧ s.ringFrame u 0))
  ∧ (∀ (s : State) (p : Principal) (t : TileNo) (w : Fin 4) (v : BitVec 64), s.linkCode p (.dbpend (4 * t.val + w.val)) = 3 →
    Completes (.dbpendClear p t w v) s (fun u =>
      (∀ i, tabGet 0 u.hedom.dbpend i = if i = 4 * t.val + w.val then tabGet 0 s.hedom.dbpend i &&& ~~~ v else tabGet 0 s.hedom.dbpend i)
      ∧ u = { s with hedom := { s.hedom with dbpend := u.hedom.dbpend } }))
  ∧ (∀ (s : State) (p : Principal) (n : Fin 2048) (v : BitVec 64), s.linkCode p (.vctl n.val) = 3 →
    Completes (.vctlWrite p n v) s (fun u =>
      let x := s.vec n.val
      let y : Vec := { x with data := v.setWidth 32, mask := v.getLsbD 32 }
      let sends := x.pend && !v.getLsbD 32
      u.vec n.val = (if sends then { y with pend := false } else y) ∧ (∀ m, m ≠ n.val → u.vec m = s.vec m)
      ∧ (sends = true → s.hostWritesDue = false →
          u.hedom.txns = s.hedom.txns ++ [⟨s.hedom.nextTag, .vector n.val, 5, x.vaddr.toNat, 4, natLe 4 (v.toNat % 2 ^ 32), 0, 0⟩])
      ∧ (sends = true → s.hostWritesDue = true → u.hedom.waiting = s.hedom.waiting ++ [n.val] ∧ u.hedom.txns = s.hedom.txns)
      ∧ (sends = false → u.hedom = { s.hedom with vectors := u.hedom.vectors }) ∧ u.tiles = s.tiles ∧ s.ringFrame u 0))
  ∧ (∀ (s : State) (p : Principal) (r : Fin 256) (n : Fin 2048) (t : TileNo) (w : Fin 4) (v : BitVec 64) (z : BitVec 32) (c : Instr),
    (c = .rcfgWrite p r v ∧ s.linkCode p (.rcfg r.val) ≠ 3 ∨ c = .hidxWrite p r z ∧ s.linkCode p (.hidx r.val) ≠ 3 ∨ c = .didxWrite p r z ∧ s.linkCode p (.didx r.val) ≠ 3
      ∨ c = .dbpendClear p t w v ∧ s.linkCode p (.dbpend (4 * t.val + w.val)) ≠ 3 ∨ c = .vctlWrite p n v ∧ s.linkCode p (.vctl n.val) ≠ 3) →
    Completes c s (fun u => u = s))
  ∧ (∀ (s : State) (p : Packet) (l : BitVec 38) (c : Instr) (t : Nat),
    (c = .snps 192 l ∧ p.opc = 8 ∨ c = .snpx 192 l ∧ p.opc = 9 ∨ c = .snpcur 192 l ∧ p.opc = 0x0A ∨ c = .snpinv 192 l ∧ p.opc = 0x0B ∨ c = .inv 192 l ∧ p.opc = 0x0C) →
    s.nextHost p.opc = some p → t < 192 →
    ((s.tile t).l2.out.any (fun o => decide (o.line = lineOf (hostAddr p)) && !isAtomDest o.dest
      && (o.granted || (List.range 192).all (fun y => decide ((s.l2 y (lineOf (hostAddr p))).st = .i))))) = true →
    Completes c s (fun u => u = s))

/-! ### Firmware update, commit and unlock (16) -/

/-- With writes that the dictionary lets pass: UPDATE_OPEN claims a free update engine, or starts the holder's over, for the
slot that does not run; UPDATE_DATA_WRITE puts the holder's data at the offset, which advances; FINISH starts the check and
UPDATE_ABORT frees the engine; another principal finds it BUSY. FINISH_COMPLETE ends with the first failed check or writes the
other selector copy. COMMIT marks a commit, unless the ROM service runs; COMMIT_COMPLETE raises the fuse counters to the running
versions and revokes keys, but not the running image's, and reports what failed. A challenge read by M draws a nonce. A token
spends it and is refused, or begins an unlock, which ends CREATEs and destroys Cloaks; once every Cloak is FREE the scope takes
effect, the report is rebuilt and every trained port attests anew. DEVICE_REPORT_BUILD queues a due report. A refused write
changes nothing. The debug port reaches memory only once it is open, and then OPEN granules only. The model's choices in it:
assumptions 4, 10, 38, 65, 76, 91. -/
def Obligations.UpdateCommitUnlock : Prop :=
  (∀ (s : State) (p : Principal), (p = .h ∨ p = .m) → s.dictFree = true → s.writeCheck p 0x1F02 1 = 0 →
    Completes (.updateOpen p) s (fun u =>
      u.fw = (match s.fw.holder with
        | none => { s.fw with holder := some p, offset := 0, checking := false, status := if p = .h then 1 else 2
                              target := if s.fw.slot = 2 then 1 - s.preferred else 1 - s.fw.slot }
        | some q => if q = p then { s.fw with offset := 0, checking := false, status := if p = .h then 1 else 2 } else { s.fw with status := 0x10 })
      ∧ u = { s.countedWrite p 0x1F02 1 false with fw := u.fw }))
  ∧ (∀ (s : State) (p : Principal) (data : Bytes), s.dictFree = true → s.writeCheck p 0x1F02 3 = 0 → s.fw.holder = some p → s.fw.checking = false → Memory.wf s.fw.flash = true →
    Completes (.updateDataWrite p data true) s (fun u =>
      let n := Nat.min data.length (Nat.min 4096 (16777216 - s.fw.offset))
      let a := (if s.fw.target = 0 then 0x100000 else 0x1100000) + s.fw.offset
      (∀ x, memGet u.fw.flash x = if a ≤ x ∧ x < a + n then data.getD (x - a) 0 else memGet s.fw.flash x) ∧ Memory.wf u.fw.flash = true
      ∧ u.fw = { s.fw with flash := u.fw.flash, offset := s.fw.offset + n } ∧ u = { s.countedWrite p 0x1F02 3 (decide (n < data.length)) with fw := u.fw }))
  ∧ (∀ (s : State) (p : Principal) (data : Bytes) (ok : Bool), s.dictFree = true → s.writeCheck p 0x1F02 3 = 0 →
    (s.fw.holder ≠ some p ∨ s.fw.checking = true ∨ ok = false ∧ data ≠ []) →
    Completes (.updateDataWrite p data ok) s (fun u =>
      u = { s.countedWrite p 0x1F02 3 false with fw := { s.fw with status := if s.fw.holder ≠ some p ∨ s.fw.checking = true then 0x10 else 0x17 } }))
  ∧ (∀ (s : State) (p : Principal), s.dictFree = true → s.writeCheck p 0x1F02 1 = 0 →
    Completes (.finish p) s (fun u => u = { s.countedWrite p 0x1F02 1 false with fw := if s.fw.holder = some p then { s.fw with checking := true } else { s.fw with status := 0x10 } }))
  ∧ (∀ (s : State) (p : Principal), s.dictFree = true → s.writeCheck p 0x1F02 1 = 0 → Memory.wf s.fw.flash = true →
    Completes (.updateAbort p) s (fun u =>
      (∀ x, memGet u.fw.flash x = if s.fw.holder = some p ∧ ((imageBase s.fw.target false ≤ x ∧ x < imageBase s.fw.target false + 256)
          ∨ (imageBase s.fw.target true ≤ x ∧ x < imageBase s.fw.target true + 256)) then 0 else memGet s.fw.flash x)
      ∧ u = { s.countedWrite p 0x1F02 1 false with fw := if s.fw.holder = some p then { s.fw with flash := u.fw.flash, holder := none, checking := false, status := 0 } else { s.fw with status := 0x10 } }))
  ∧ (∀ (s : State) (ok : Bool), s.fw.checking = true → Memory.wf s.fw.flash = true →
    Completes (.finishComplete ok) s (fun u =>
      let c := s.imageCheck s.fw.target false
      let d := s.imageCheck s.fw.target true
      let st := if ok = false then 0x17 else if c ≠ 0 then c else if d ≠ 0 then d else 3
      let a := 0x10000 + 0x1000 * (match s.governing with | none => 0 | some i => 1 - i)
      let seq := match s.governing with | none => 1 | some i => (match s.selector i with | some x => (x.1 + 1).toNat | none => 1)
      let b := ascii "LAPS" ++ natLe 4 seq ++ [BitVec.ofNat 8 s.fw.target, 0, 0, 0]
      (∀ x, memGet u.fw.flash x = if st = 3 ∧ a ≤ x ∧ x < a + 16 then (b ++ natLe 4 (crc32c b)).getD (x - a) 0
        else if st ≠ 3 ∧ ((imageBase s.fw.target false ≤ x ∧ x < imageBase s.fw.target false + 256)
          ∨ (imageBase s.fw.target true ≤ x ∧ x < imageBase s.fw.target true + 256)) then 0 else memGet s.fw.flash x)
      ∧ u = { s with fw := { s.fw with flash := u.fw.flash, holder := none, checking := false, status := st } }))
  ∧ (∀ (s : State) (p : Principal), s.dictFree = true → s.writeCheck p 0x1F01 6 = 0 →
    Completes (.commit p) s (fun u => u = { s.countedWrite p 0x1F01 6 false with fw := { s.fw with commit := s.fw.commit || decide (s.fw.slot ≠ 2) } }))
  ∧ (∀ (s : State) (fails : BitVec 6), s.fw.commit = true →
    Completes (.commitComplete fails) s (fun u =>
      let f := s.fuses
      u.fuses.cfwCounter = (if fails.getLsbD 0 then f.cfwCounter else Nat.max f.cfwCounter s.fw.cfwSvn)
      ∧ u.fuses.dfwCounter = (if fails.getLsbD 1 then f.dfwCounter else Nat.max f.dfwCounter s.fw.dfwSvn)
      ∧ (∀ i, i < 4 → u.fuses.revoked.getLsbD i = (f.revoked.getLsbD i || (s.fw.cfwRevoke.getLsbD i && decide (i ≠ s.fw.cfwKeyIdx) && !fails.getLsbD (2 + i))))
      ∧ (u.fw.commitFail.testBit 0 = (fails.getLsbD 0 && decide (f.cfwCounter < s.fw.cfwSvn)))
      ∧ (u.fw.commitFail.testBit 1 = (fails.getLsbD 1 && decide (f.dfwCounter < s.fw.dfwSvn)))
      ∧ (∀ i, i < 4 → u.fw.commitFail.testBit (2 + i) = (s.fw.cfwRevoke.getLsbD i && decide (i ≠ s.fw.cfwKeyIdx) && !f.revoked.getLsbD i && fails.getLsbD (2 + i)))
      ∧ u = { s with fuses := { f with cfwCounter := u.fuses.cfwCounter, dfwCounter := u.fuses.dfwCounter, revoked := u.fuses.revoked }
                     fw := { s.fw with commit := false, commitFail := u.fw.commitFail } }))
  ∧ (∀ (s : State) (p : Principal), s.dictFree = true →
    Completes (.unlockChallengeRead p) s (fun u =>
      u.unlock.nonce.isSome = (decide (p = .m) || s.unlock.nonce.isSome) ∧ (p ≠ .m → u = s.countedRead p 0x1F03 1)
      ∧ u = { s.countedRead p 0x1F03 1 with unlock := { s.unlock with nonce := u.unlock.nonce }, freeCtr := u.freeCtr }))
  ∧ (∀ (s : State) (p : Principal) (data : Bytes), s.dictFree = true → s.writeCheck p 0x1F03 2 = 0 →
    Completes (.unlockTokenWrite p data) s (fun u =>
      let r := s.tokenCheck data
      u.unlock = (if s.unlock.busy then { s.unlock with result := 0x18 } else if r ≠ 0 then { s.unlock with nonce := none, result := r }
        else if s.boot.st = .snowplough then { s.unlock with nonce := none, result := 0, flag := true, busy := false, pending := BitVec.ofNat 2 (data.getD 6 0).toNat
                                                             scope := BitVec.ofNat 2 (data.getD 6 0).toNat, tokenKey := (data.drop 72).take 65 }
        else { s.unlock with nonce := none, result := 0, flag := true, busy := true, pending := BitVec.ofNat 2 (data.getD 6 0).toNat, tokenKey := (data.drop 72).take 65 })
      ∧ (if s.unlock.busy ∨ r ≠ 0 then u = { s.countedWrite p 0x1F03 2 false with unlock := u.unlock, freeCtr := s.freeCtr + 1 }
        else (∀ q ∈ u.cloaks.queue, q.cmd.opcode ≠ 1) ∧ (∀ k, 1 ≤ k → k ≤ 64 → s.boot.st ≠ .snowplough → s.cloaks.queue = [] → (s.cloak k).run = none →
          (s.cloak k).state ≠ .free → (u.cloak k).state = .destroying))))
  ∧ (∀ (s : State), s.unlock.busy = true → s.liveCloaks = [] → (∀ n, n < 32 → (s.port n).light = true) →
    Completes .unlockScopeEffect s (fun u =>
      u.unlock = { s.unlock with busy := false, scope := s.unlock.pending } ∧ u.pins = { s.pins with debugOpen := s.unlock.pending.getLsbD 1 }
      ∧ u.fw = (if s.boot.st = .snowplough then s.fw else { s.fw with report := s.signedReport 0 0 [] })
      ∧ (∀ n, n < 32 → let y := u.port n
          if (s.port n).st = .attesting ∨ (s.port n).st = .up ∨ (s.port n).st = .retraining then
            y.st = .attesting ∧ y.lanes = (s.port n).lanes ∧ y.reportSent = u.fw.report ∧ y.peerReport = [] ∧ y.peerKey = [] ∧ y.step = 0 ∧ y.tx = none ∧ y.rx = none
            ∧ y.parts = [] ∧ y.buf = [] ∧ y.seq = y.replay.length ∧ (∀ q ∈ y.replay, q.vc = 5)
            ∧ u.obj 0x1C50 (n + 1) = Nat.min (s.obj 0x1C50 (n + 1) + y.replay.length) (2 ^ 64 - 1)
          else y = s.port n ∧ u.obj 0x1C50 (n + 1) = s.obj 0x1C50 (n + 1))
      ∧ (∀ k, (∀ n, n < 32 → k ≠ pairOf 0x1C50 (n + 1)) → kvGet none u.objs k = kvGet none s.objs k)
      ∧ u = { s with unlock := u.unlock, pins := u.pins, fw := u.fw, fab := { s.fab with ports := u.fab.ports }, objs := u.objs, freeCtr := s.freeCtr + 1 }))
  ∧ (∀ (s : State), s.fw.reportDue = true → s.ready = true →
    Completes .deviceReportBuild s (fun u => u = { s with fw := { s.fw with reportDue := false, signing := s.fw.signing ++ [.device] } }))
  ∧ (∀ (s : State) (p : Principal) (data : Bytes) (ok : Bool) (c : Instr) (idx sub : Nat),
    ((c = .updateOpen p ∨ c = .finish p ∨ c = .updateAbort p) ∧ idx = 0x1F02 ∧ sub = 1 ∨ c = .updateDataWrite p data ok ∧ idx = 0x1F02 ∧ sub = 3
      ∨ c = .commit p ∧ idx = 0x1F01 ∧ sub = 6 ∨ c = .unlockTokenWrite p data ∧ idx = 0x1F03 ∧ sub = 2) →
    (s.dictFree = false ∨ s.writeCheck p idx sub ≠ 0) →
    Completes c s (fun u => u = { (if s.dictFree then s.countedWrite p idx sub false else s) with freeCtr := u.freeCtr }))
  ∧ (∀ (s : State) (a : Nat) (b : Byte), (s.pins.debugOpen = false ∨ ∀ g, granuleOf a = some g → entState (s.granule g) ≠ 0) →
    s.debugRead a = none ∧ s.debugWrite a b = s)

/-! ### The dictionary (17) -/

/-- The mailbox serves the next slot. A READ of an object that its issuer may read delivers the first LEN bytes to DATA, or to
an allowed buffer, with status OK or SHORT; a WRITE of an object that only stores keeps the clamped value and shows it; an
operation that is denied, whose object is absent, whose buffer is not the issuer's, or of a reserved OP ends with its status and
changes no object; each ends with DRESP set, its issuer told, and the operation counted. With a buffer in host memory the bytes
to be delivered leave with WRNC, and those to be taken are asked for with RDNC; the value to be stored is sent back before it is
stored; the operation ends when its answer is there, or with BUFFAULT where it failed. OBJECT_WRITE stores a clamped value, and
sets HOLD on an M-held object where M or F writes; a refused one changes nothing; one by S of a RUNNING Cloak's group entry
installs or removes its group and group key, in its own slot and its tiles' key slots and in no other. HOLD_RELEASE clears every
HOLD; AON_RESTORE gives every aon object its Default and clears HOLD; DESCRIPTOR_QUERY keeps the source's own query; DISCOVER is
answered with ANNOUNCE. Every write is counted, and the slots that wait see it; a source that awaits a response, or a session
that is not open, presents none. The model's choices in it: assumptions 10, 37, 38, 43, 63, 77, 89, 90. -/
def Obligations.DictionaryOperations : Prop :=
  (∀ (s : State) (n : Nat) (c : U64) (p : Principal) (r : ObjRow) (idx sub : Nat), s.mailNext n c p → field c.toNat 63 60 = 1 → c.getLsbD 31 = false →
    idx = field c.toNat 23 8 → sub = field c.toNat 7 0 → catRow idx sub = some r → mayRead (s.code p r sub) = true → s.ownEntry p idx sub = true → r.dk ≠ .none →
    Completes (.mailboxRead false) s (fun u =>
      let v := s.objValue p (8 + n) r idx sub
      let len := Nat.min (Nat.min (field c.toNat 47 32) 256) r.ty.size
      let b := v.take len
      s.mailDone u n c (if len < v.length then 6 else 0) b.length (if b = [] then (s.mslot n).data else b ++ (s.mslot n).area.drop b.length) []
      ∧ u.obj 2 1 = (if n ≤ 1 then Nat.min (s.obj 2 1 + 1) (2 ^ 64 - 1) else s.obj 2 1)
      ∧ u = { s with tiles := u.tiles, dict := u.dict, objs := u.objs, hedom := u.hedom, freeCtr := s.freeCtr + 1 }))
  ∧ (∀ (s : State) (n : Nat) (c : U64) (p : Principal) (idx sub st : Nat), s.mailNext n c p → field c.toNat 63 60 = 1 → c.getLsbD 31 = false →
    idx = field c.toNat 23 8 → sub = field c.toNat 7 0 →
    ((catRow idx sub = none ∧ (sub ≠ 0 ∨ catHighest idx = none) ∧ st = 5) ∨ (∃ r ∈ (catRow idx sub).toList, (mayRead (s.code p r sub) && s.ownEntry p idx sub && decide (r.dk ≠ .none)) = false ∧ st = 4)) →
    Completes (.mailboxRead false) s (fun u =>
      s.mailDone u n c st 0 (s.mslot n).data []
      ∧ u.obj 2 4 = (if n ≤ 1 then Nat.min (s.obj 2 4 + 1) (2 ^ 64 - 1) else s.obj 2 4)
      ∧ u = { s with tiles := u.tiles, dict := u.dict, objs := u.objs, hedom := u.hedom, freeCtr := s.freeCtr + 1 }))
  ∧ (∀ (s : State) (n : Nat) (c : U64) (p : Principal) (r : ObjRow) (idx sub len a : Nat) (v b : Bytes), s.mailNext n c p → field c.toNat 63 60 = 1 → c.getLsbD 31 = true →
    idx = field c.toNat 23 8 → sub = field c.toNat 7 0 → catRow idx sub = some r → mayRead (s.code p r sub) = true → s.ownEntry p idx sub = true → r.dk ≠ .none →
    len = Nat.min (Nat.min (field c.toNat 47 32) 4096) r.ty.size → v = s.objValue p (8 + n) r idx sub → b = v.take len → b ≠ [] → a = (s.mslot n).dbuf.toNat →
    s.reachesAll (if n ≤ 1 then 0 else n - 1) a b.length = true → s.quietAt a b.length → s.canonical →
    Completes (.mailboxRead false) s (fun u =>
      s.memAfter u a b ∧ s.mailDone u n c (if len < v.length then 6 else 0) b.length (s.mslot n).data memCounts
      ∧ u = { s with tiles := u.tiles, dict := u.dict, objs := u.objs, hedom := u.hedom, mem := u.mem, coh := { s.coh with filter := u.coh.filter, prio := u.coh.prio }, freeCtr := s.freeCtr + 1 }))
  ∧ (∀ (s : State) (n : Nat) (c : U64) (p : Principal) (i : Instr) (op len : Nat), s.mailNext n c p → op = field c.toNat 63 60 → (i = .mailboxRead false ∧ op ≠ 2 ∨ i = .mailboxWrite ∧ op ≠ 1) →
    (op ≠ 1 ∧ op ≠ 2 ∨ c.getLsbD 31 = true ∧ 0 < len ∧ s.reachesAll (if n ≤ 1 then 0 else n - 1) (s.mslot n).dbuf.toNat len = false ∧ s.bufHost n len = false
      ∧ len = (if op = 2 then dcmdLen c.toNat else ((s.dictRead p (8 + n) (dcmdIdx c.toNat) (dcmdSub c.toNat) false).2.1.take (dcmdLen c.toNat)).length)) →
    Completes i s (fun u =>
      s.mailDone u n c (if op = 1 ∨ op = 2 then 7 else 10) 0 (s.mslot n).data []
      ∧ u = { s with tiles := u.tiles, dict := u.dict, objs := u.objs, hedom := u.hedom, freeCtr := s.freeCtr + 1 }))
  ∧ (∀ (s : State) (n : Nat) (c : U64) (p : Principal) (r : ObjRow) (idx sub len : Nat) (v b : Bytes), s.mailNext n c p → field c.toNat 63 60 = 1 → c.getLsbD 31 = true →
    idx = field c.toNat 23 8 → sub = field c.toNat 7 0 → catRow idx sub = some r → mayRead (s.code p r sub) = true → s.ownEntry p idx sub = true → r.dk ≠ .none →
    len = Nat.min (Nat.min (field c.toNat 47 32) 4096) r.ty.size → v = s.objValue p (8 + n) r idx sub → b = v.take len → s.bufHost n b.length = true →
    Completes (.mailboxRead false) s (fun u =>
      s.mailSent u 5 (s.mslot n).dbuf.toNat b.length b ⟨n, .put (if len < v.length then 6 else 0) b.length []⟩))
  ∧ (∀ (s : State) (n : Nat) (c : U64) (p : Principal) (len : Nat), s.mailNext n c p → field c.toNat 63 60 = 2 → c.getLsbD 31 = true →
    len = dcmdLen c.toNat → s.bufHost n len = true →
    Completes .mailboxWrite s (fun u => s.mailSent u 4 (s.mslot n).dbuf.toNat len [] ⟨n, .fetch⟩))
  ∧ (∀ (s : State) (n : Nat) (c : U64) (p : Principal) (i : Instr) (e : XStage) (st len : Nat), (s.setXfer none).mailRuns n c p → s.dict.xfer = some ⟨n, e⟩ →
    (e = .done st len [] ∧ i = .mailboxRead false ∧ field c.toNat 63 60 = 1
      ∨ e = .failed ∧ st = 7 ∧ len = 0 ∧ (i = .mailboxRead false ∧ field c.toNat 63 60 = 1 ∨ i = .mailboxWrite ∧ field c.toNat 63 60 = 2)) →
    Completes i s (fun u =>
      (s.setXfer none).mailDone u n c st len (s.mslot n).data []
      ∧ u = { s with tiles := u.tiles, dict := u.dict, objs := u.objs, hedom := u.hedom, freeCtr := s.freeCtr + 1 }))
  ∧ (∀ (s : State) (n : Nat) (c : U64) (p : Principal) (r : ObjRow) (idx sub : Nat) (b : Bytes) (st len : Nat) (last : Bool), (s.setXfer none).mailRuns n c p →
    s.dict.xfer = some ⟨n, if last then .done st len b else .fetched b⟩ → field c.toNat 63 60 = 2 → b ≠ [] →
    idx = field c.toNat 23 8 → sub = field c.toNat 7 0 → catRow idx sub = some r → plainObject idx sub = true → s.writeCheck p idx sub = 0 →
    Completes .mailboxWrite s (fun u =>
      let v := leNat (b.take r.ty.size)
      let st' := if r.clamp v = v then 0 else 1
      let back := (natLe r.ty.size (r.clamp v)).take b.length
      if last then
        u.obj idx sub = r.clamp v ∧ (s.setXfer none).mailDone u n c st' len (s.mslot n).data [pairOf idx sub]
        ∧ u = { s with tiles := u.tiles, dict := u.dict, objs := u.objs, hedom := u.hedom, freeCtr := s.freeCtr + 1 }
      else s.mailSent u 5 (s.mslot n).dbuf.toNat back.length back ⟨n, .put st' back.length b⟩))
  ∧ (∀ (s : State) (n : Nat) (c : U64) (p : Principal) (r : ObjRow) (idx sub : Nat), s.mailNext n c p → field c.toNat 63 60 = 2 → c.getLsbD 31 = false →
    idx = field c.toNat 23 8 → sub = field c.toNat 7 0 → catRow idx sub = some r → plainObject idx sub = true → s.writeCheck p idx sub = 0 →
    Completes .mailboxWrite s (fun u =>
      let b := (s.mslot n).area.take (Nat.min (Nat.min (field c.toNat 47 32) 256) r.ty.size)
      let v := leNat (b.take r.ty.size)
      let back := (natLe r.ty.size (r.clamp v)).take b.length
      u.obj idx sub = r.clamp v
      ∧ s.mailDone u n c (if r.clamp v = v then 0 else 1) back.length (if back = [] then (s.mslot n).data else back ++ (s.mslot n).area.drop back.length) [pairOf idx sub]
      ∧ u.obj 2 6 = (if n ≤ 1 ∧ r.clamp v ≠ v then Nat.min (s.obj 2 6 + 1) (2 ^ 64 - 1) else s.obj 2 6)
      ∧ u = { s with tiles := u.tiles, dict := u.dict, objs := u.objs, hedom := u.hedom, freeCtr := s.freeCtr + 1 }))
  ∧ (∀ (s : State) (n : Nat) (c : U64) (p : Principal) (idx sub : Nat), s.mailNext n c p → field c.toNat 63 60 = 2 → c.getLsbD 31 = false →
    idx = field c.toNat 23 8 → sub = field c.toNat 7 0 → s.writeCheck p idx sub ≠ 0 →
    Completes .mailboxWrite s (fun u =>
      s.mailDone u n c (s.writeCheck p idx sub) (u.mslot n).len.toNat (u.mslot n).data []
      ∧ u = { s with tiles := u.tiles, dict := u.dict, objs := u.objs, hedom := u.hedom, freeCtr := s.freeCtr + 1 }))
  ∧ (∀ (s : State) (i : Instr), (i = .mailboxRead false ∨ i = .mailboxWrite) → (s.dict.xfer = none ∧ s.nextSlot = none ∨ s.boot.aonOk = false ∨ s.boot.dead = true) →
    Completes i s (fun u => u = { s with freeCtr := s.freeCtr + 1 }))
  ∧ (∀ (s s1 : State) (src : Source) (idx : BitVec 16) (sub : BitVec 8) (data : Bytes) (r : ObjRow) (p : Principal) (v : Nat), s.dictFree = true → s.presents src = true →
    p = s.srcPrincipal src → catRow idx.toNat sub.toNat = some r → plainObject idx.toNat sub.toNat = true → s.writeCheck p idx.toNat sub.toNat = 0 →
    v = leNat (data.take r.ty.size) → s1 = s.servedFor src (if r.clamp v = v then 0 else 1) →
    Completes (.objectWrite src idx sub data) s (fun u =>
      u.obj idx.toNat sub.toNat = r.clamp v
      ∧ (∀ n, n ≠ pairOf idx.toNat sub.toNat → kvGet none u.objs n = kvGet none s1.objs n)
      ∧ (∀ n, kvGet false u.dict.hold n = if n = pairOf idx.toNat sub.toNat ∧ r.held = true ∧ (p = .m ∨ p = .f) then true else kvGet false s.dict.hold n)
      ∧ u = { s1 with objs := u.objs, dict := { s1.dict with hold := u.dict.hold }, freeCtr := s.freeCtr + 1 }))
  ∧ (∀ (s : State) (src : Source) (idx : BitVec 16) (sub : BitVec 8) (data : Bytes), s.dictFree = true → s.presents src = true →
    s.writeCheck (s.srcPrincipal src) idx.toNat sub.toNat ≠ 0 →
    Completes (.objectWrite src idx sub data) s (fun u => u = { s.servedFor src (s.writeCheck (s.srcPrincipal src) idx.toNat sub.toNat) with freeCtr := s.freeCtr + 1 }))
  ∧ (∀ (s : State) (k : BitVec 8) (data : Bytes) (g : BitVec 16) (w : U32), s.dictFree = true → 1 ≤ k.toNat → k.toNat ≤ 64 →
    s.writeCheck .s 0x1C40 k.toNat = 0 → (s.cloak k.toNat).state = .running → w = BitVec.ofNat 32 (leNat (data.take 4)) → g = w.extractLsb' 16 16 →
    (g = 0 ∨ s.memberOf g = 0 ∨ s.memberOf g = k.toNat) →
    Completes (.objectWrite .s 0x1C40 k data) s (fun u =>
      u.cloak k.toNat = { s.cloak k.toNat with group := if g = 0 then none else some g, grpKey := (u.cloak k.toNat).grpKey }
      ∧ (u.cloak k.toNat).grpKey.isSome = (decide (g ≠ 0) && w.getLsbD 0)
      ∧ (∀ t ∈ s.tilesOf k.toNat, u.tile t = { s.tile t with glide := { (s.tile t).glide with grpKey := (u.cloak k.toNat).grpKey } })
      ∧ (∀ t, t ∉ s.tilesOf k.toNat → u.tile t = s.tile t) ∧ s.otherCloaks u k.toNat ∧ u.cloaks.granules = s.cloaks.granules ∧ u.mem = s.mem ∧ u.objs = s.objs
      ∧ (∀ j, tabGet 0 u.fab.sealCnt j = if j = k.toNat then 0 else tabGet 0 s.fab.sealCnt j)
      ∧ (∀ t, kvGet 0 u.fab.glideCnt t = if t ∈ s.tilesOf k.toNat then 0 else kvGet 0 s.fab.glideCnt t)))
  ∧ (∀ (s s1 : State) (p : Principal), s.dictFree = true → s.writeCheck p 0x0003 1 = 0 → s1 = s.countedWrite p 0x0003 1 false →
    Completes (.holdRelease p) s (fun u => u = { s1 with dict := { s1.dict with hold := [] } }))
  ∧ (∀ (s s1 : State) (p : Principal), s.dictFree = true → s.writeCheck p 0x0004 1 = 0 → s1 = s.countedWrite p 0x0004 1 false →
    Completes (.aonRestore p) s (fun u =>
      (∀ n, kvGet none u.objs n = match catRow (n / 256) (n % 256) with | some r => (if r.persist = 1 then none else kvGet none s1.objs n) | none => kvGet none s1.objs n)
      ∧ u.dict = { s1.dict with hold := [], creds := [], parity := 0 } ∧ u.pins = { s.pins with setPending := List.range 8 } ∧ u.boot = { s.boot with starts := 0 }
      ∧ u = { s1 with objs := u.objs, dict := u.dict, pins := u.pins, boot := u.boot }))
  ∧ (∀ (s : State) (p : Principal) (c : Instr) (idx : Nat), (c = .holdRelease p ∧ idx = 0x0003 ∨ c = .aonRestore p ∧ idx = 0x0004) → (s.dictFree = false ∨ s.writeCheck p idx 1 ≠ 0) →
    Completes c s (fun u => u = if s.dictFree then s.countedWrite p idx 1 false else s))
  ∧ (∀ (s s1 : State) (src : Source) (pair : BitVec 24) (st : Nat), s.dictFree = true → s.presents src = true → st = s.writeCheck (s.srcPrincipal src) 0x0001 1 →
    s1 = s.servedFor src st →
    Completes (.descriptorQuery src pair) s (fun u =>
      (∀ n, kvGet 0 u.dict.query n = if st = 0 ∧ n = srcNo src then pair.toNat else kvGet 0 s.dict.query n) ∧ u = { s1 with dict := { s1.dict with query := u.dict.query } }))
  ∧ (∀ (s : State) (h : SbHead), s.boot.aonOk = true → s.boot.dead = false → s.discovers h = true →
    Completes (.discover h) s (fun u =>
      let good := decide (h.ver = 1 ∧ h.len.toNat ≤ h.room.toNat)
      (u.sb.sent.drop s.sb.sent.length).map (fun f => (f.type, f.dst, f.sid, f.body.length)) = (if s.pins.refLost.getLsbD 2 || !good then [] else [(2, h.mac, 0, 60)])
      ∧ u.obj 0x2005 (if good then 1 else 2) = Nat.min (s.obj 0x2005 (if good then 1 else 2) + 1) (2 ^ 64 - 1)
      ∧ (∀ n, n ≠ pairOf 0x2005 (if good then 1 else 2) → kvGet none u.objs n = kvGet none s.objs n)
      ∧ u = { s with sb := { s.sb with sent := u.sb.sent }, objs := u.objs }))
  ∧ (∀ (s : State) (src : Source) (idx : BitVec 16) (sub : BitVec 8) (data : Bytes) (pair : BitVec 24) (c : Instr), (c = .objectWrite src idx sub data ∨ c = .descriptorQuery src pair) →
    (s.dictFree = false ∨ s.presents src = false) → Completes c s (fun u => u = s))
  ∧ (∀ (s : State) (p : Principal) (idx sub : Nat) (clamped : Bool),
    let u := s.countedWrite p idx sub clamped
    let st := s.writeCheck p idx sub
    let one := fun (j : Nat) (q : Bool) => u.obj 2 j = if q then Nat.min (s.obj 2 j + 1) (2 ^ 64 - 1) else s.obj 2 j
    one 1 (p = .h) ∧ one 2 (p = .m) ∧ one 3 (p = .f) ∧ one 4 (p = .h ∧ 3 ≤ st ∧ st ≤ 5) ∧ one 5 (p = .m ∧ 3 ≤ st ∧ st ≤ 5)
    ∧ one 6 ((p = .h ∨ p = .m) ∧ st = 0 ∧ clamped = true)
    ∧ (∀ n, (∀ j, 1 ≤ j → j ≤ 6 → n ≠ pairOf 2 j) → kvGet none u.objs n = kvGet none s.objs n) ∧ s.slotsSaw u 66
    ∧ u = { s with objs := u.objs, dict := { s.dict with slots := u.dict.slots } })

/-! ### The side-band port (18) -/

/-- HELLO takes the first free slot of its kind, puts it into setup under the next session ID, and its CHALLENGE waits for the
signing engine (the ROM service sends it unsigned); with no slot, or for F without the unlock, it is rejected. PROOF for a
challenged slot rejects a wrong key or signature and frees the slot; otherwise it opens the session, sends ACCEPT as counter 0,
counts it, and enrols the key where enrolment is open. SETUP_TIMEOUT and a CLOSE of the manager free the slot;
SESSION_CLOSE_WRITE and ALIVE_TIMEOUT send CLOSE (reasons 7 and 4) and free it. A frame that is not for the device has no
effect, nor has any with the port off; one of another version or with a LEN beyond it is discarded and counted. The model's
choices in it: assumptions 4, 10, 92. -/
def Obligations.SidebandSessions : Prop :=
  (∀ (s : State) (h : SbHead) (kindF : Bool) (cred : BitVec 8) (qm : Bytes) (nm : BitVec 256) (i : Nat), s.portRuns → s.forUs h.dst h.etype = true → headGood h = true →
    (s.freeSlots kindF).head? = some i → (kindF = true → s.unlock.scope.getLsbD 0 = true) →
    Completes (.hello h kindF cred qm nm) s (fun u =>
      let x := u.session i
      let signed := s.fw.attKey.isSome
      x.st = .setup ∧ x.kindF = kindF ∧ x.cred = cred.toNat ∧ x.sid = s.sb.nextSid ∧ x.mac = h.mac ∧ x.idle = s.gov.uptime ∧ x.challenged = !signed
      ∧ x.subs = [] ∧ x.stored = none ∧ x.blockPair = none ∧ x.challenge.take 2 = natLe 2 x.sid.toNat ∧ x.challenge.length = (if signed then 100 else 164)
      ∧ u.sb.nextSid = (if s.sb.nextSid = 0xFFFF then 1 else s.sb.nextSid + 1)
      ∧ u.fw = (if signed then { s.fw with signing := s.fw.signing ++ [.challenge i] } else s.fw)
      ∧ s.sbSends u (if signed then [] else [plainFrame h.mac 0x11 0 x.challenge])
      ∧ s.sbCounted u (fun j => decide (j = 1)) ∧ s.sbFrame u i (fun _ => false)
      ∧ u = { s with sb := { s.sb with sessions := u.sb.sessions, nextSid := u.sb.nextSid, sent := u.sb.sent }, fw := u.fw, objs := u.objs, freeCtr := s.freeCtr + 1 }))
  ∧ (∀ (s : State) (h : SbHead) (kindF : Bool) (cred : BitVec 8) (qm : Bytes) (nm : BitVec 256), s.portRuns → s.forUs h.dst h.etype = true → headGood h = true →
    (s.freeSlots kindF = [] ∨ kindF = true ∧ s.unlock.scope.getLsbD 0 = false) →
    Completes (.hello h kindF cred qm nm) s (fun u =>
      s.sbSends u [plainFrame h.mac 0x14 0 [if s.freeSlots kindF = [] then 1 else 5]] ∧ s.sbCounted u (fun j => decide (j = 1 ∨ j = 6)) ∧ s.sbFrame u 9 (fun _ => false)
      ∧ u = { s with sb := { s.sb with sent := u.sb.sent }, objs := u.objs }))
  ∧ (∀ (s : State) (h : SbHead) (sid : BitVec 16) (key sig : Bytes) (i : Nat), s.portRuns → s.forUs h.dst h.etype = true → headGood h = true →
    s.proofSlot h.mac sid key sig = some i → (s.session i).challenged = true →
    Completes (.proof h sid key sig) s (fun u =>
      let x := s.session i
      let enrols := h.enrol && s.dict.creds.all (fun c => decide (c = none ∨ c = some 0))
      let known := if x.kindF then decide (key = s.unlock.tokenKey) else
        enrols || decide (1 ≤ x.cred ∧ x.cred ≤ 8 ∧ tabGet none s.dict.creds (x.cred - 1) = some (Crypto.sha256 key))
      let signed := Crypto.verify key (x.hello ++ x.challenge ++ key) sig
      (if known && signed then
        u.session i = { x.keyed with st := .opened, idle := s.gov.uptime, txCnt := 0 } ∧ s.sbSends u [s.protectedFrame i x.keyed 0x13 0 [BitVec.ofNat 8 (i + 1)]]
        ∧ u.dict.creds = (if !x.kindF && enrols then tabSet none s.dict.creds 0 (some (Crypto.sha256 key)) else s.dict.creds)
      else u.session i = {} ∧ s.sbSends u [plainFrame h.mac 0x14 0 [if known then 3 else 2]] ∧ u.dict.creds = s.dict.creds)
      ∧ s.sbCounted u (fun j => decide (j = 1) || decide (j = 4) && (known && signed) || decide (j = 6) && !(known && signed)) ∧ s.sbFrame u i (fun _ => false)
      ∧ u = { s with sb := { s.sb with sessions := u.sb.sessions, sent := u.sb.sent }, objs := u.objs, dict := { s.dict with creds := u.dict.creds }
                     pins := { s.pins with sbEnrol := h.enrol } }))
  ∧ (∀ (s : State) (h : SbHead) (sid : BitVec 16) (key sig : Bytes), s.portRuns → s.forUs h.dst h.etype = true → headGood h = true →
    ((∀ j, j < 5 → (s.session j).st = .setup → (s.session j).mac = h.mac → sid ≠ 0 ∧ (s.session j).sid ≠ sid)
      ∨ ∃ i < 5, s.proofSlot h.mac sid key sig = some i ∧ (s.session i).challenged = false) →
    Completes (.proof h sid key sig) s (fun u =>
      let due := (s.proofSlot h.mac sid key sig).isSome
      s.sbSends u (if due then [] else [plainFrame h.mac 0x14 0 [4]]) ∧ s.sbCounted u (fun j => decide (j = 1) || decide (j = 6) && !due) ∧ s.sbFrame u 9 (fun _ => false)
      ∧ u = { s with sb := { s.sb with sent := u.sb.sent }, objs := u.objs, pins := { s.pins with sbEnrol := h.enrol } }))
  ∧ (∀ (s : State) (i : Fin 5), (s.session i.val).st = .setup → (s.session i.val).challenged = true → s.obj 0x2003 2 * 100 ≤ s.gov.uptime - (s.session i.val).idle →
    Completes (.setupTimeout i) s (fun u => u.session i.val = {} ∧ s.sbFrame u i.val (fun _ => false) ∧ u = { s with sb := { s.sb with sessions := u.sb.sessions } }))
  ∧ (∀ (s : State) (f : SbIn), s.portRuns → s.forUs f.dst f.etype = true →
    Completes (.close f) s (fun u =>
      (∀ e ∈ (s.openFrame 0x23 f).toList, u.session e.1 = {} ∧ s.sbCounted u (fun j => decide (j = 1)) ∧ s.sbFrame u e.1 (fun _ => false))
      ∧ (s.openFrame 0x23 f = none → u.sb.sessions = s.sb.sessions ∧ s.sbCounted u (fun j => decide (j = 2)) ∧ s.sbFrame u 9 (fun _ => false))
      ∧ (∀ n, kvGet 0 u.dict.query n = if (s.openFrame 0x23 f).any (fun e => decide (n = e.1 + 1)) then 0 else kvGet 0 s.dict.query n)
      ∧ u = { s with sb := { s.sb with sessions := u.sb.sessions }, objs := u.objs, dict := { s.dict with query := u.dict.query } }))
  ∧ (∀ (s s1 : State) (p : Principal) (sid : BitVec 16), s.dictFree = true → s.writeCheck p 0x2002 6 = 0 → s1 = s.countedWrite p 0x2002 6 (decide (sid = 0)) →
    Completes (.sessionCloseWrite p sid) s (fun u =>
      let x := (List.range 5).find? (fun i => decide ((s.session i).st = .opened) && decide ((s.session i).sid.toNat = Nat.max 1 sid.toNat))
      (∀ i ∈ x.toList, u.session i = {} ∧ s.sbSends u [s.protectedFrame i (s.session i) 0x23 ((s.session i).txCnt + 1) [7]] ∧ s1.sbFrame u i (fun _ => false))
      ∧ (x = none → u.sb = s.sb)
      ∧ (∀ n, kvGet 0 u.dict.query n = if x.any (fun i => decide (n = i + 1)) then 0 else kvGet 0 s.dict.query n)
      ∧ u = { s1 with sb := { s.sb with sessions := u.sb.sessions, sent := u.sb.sent }, dict := { s1.dict with query := u.dict.query } }))
  ∧ (∀ (s : State) (p : Principal) (sid : BitVec 16), (s.dictFree = false ∨ s.writeCheck p 0x2002 6 ≠ 0) →
    Completes (.sessionCloseWrite p sid) s (fun u => u = if s.dictFree then s.countedWrite p 0x2002 6 false else s))
  ∧ (∀ (s : State) (i : Fin 5), (s.session i.val).st = .opened → s.obj 0x2003 1 * 100 ≤ s.gov.uptime - (s.session i.val).idle →
    Completes (.aliveTimeout i) s (fun u =>
      u.session i.val = {} ∧ s.sbSends u [s.protectedFrame i.val (s.session i.val) 0x23 ((s.session i.val).txCnt + 1) [4]]
      ∧ s.sbCounted u (fun j => decide (j = 5)) ∧ s.sbFrame u i.val (fun _ => false)
      ∧ (∀ n, kvGet 0 u.dict.query n = if n = i.val + 1 then 0 else kvGet 0 s.dict.query n)
      ∧ u = { s with sb := { s.sb with sessions := u.sb.sessions, sent := u.sb.sent }, objs := u.objs, dict := { s.dict with query := u.dict.query } }))
  ∧ (∀ (s : State) (h : SbHead) (kindF : Bool) (cred : BitVec 8) (qm key sig : Bytes) (nm : BitVec 256) (sid : BitVec 16) (f : SbIn) (c : Instr),
    ((c = .hello h kindF cred qm nm ∨ c = .proof h sid key sig) ∧ s.forUs h.dst h.etype = false ∨ c = .discover h ∧ s.discovers h = false
      ∨ (c = .close f ∨ c = .subscribe f ∨ c = .unsubscribe f ∨ c = .nop f) ∧ s.forUs f.dst f.etype = false
      ∨ (c = .hello h kindF cred qm nm ∨ c = .proof h sid key sig ∨ c = .close f ∨ c = .discover h ∨ c = .subscribe f ∨ c = .unsubscribe f ∨ c = .nop f)
        ∧ (s.boot.aonOk = false ∨ s.boot.dead = true)) →
    Completes c s (fun u => u = { s with pins := if c = .proof h sid key sig then { s.pins with sbEnrol := h.enrol } else s.pins }))
  ∧ (∀ (s : State) (h : SbHead) (kindF : Bool) (cred : BitVec 8) (qm key sig : Bytes) (nm : BitVec 256) (sid : BitVec 16) (c : Instr), s.portRuns →
    (c = .hello h kindF cred qm nm ∨ c = .proof h sid key sig) → s.forUs h.dst h.etype = true → headGood h = false →
    Completes c s (fun u => s.sbCounted u (fun j => decide (j = 2)) ∧ s.sbFrame u 9 (fun _ => false)
      ∧ u = { s with objs := u.objs, pins := if c = .proof h sid key sig then { s.pins with sbEnrol := h.enrol } else s.pins }))

/-- A request command whose frame opens under a session of the port, whose operation is its own and whose counter is the last
plus one, is executed once, answered with the next counter of the device, and its response kept. While the engine serves an
operation whose buffer is in host memory none is taken. A frame of another version or with a LEN beyond it opens under none. A
frame that opens under none, or out of order, is discarded and counted; a repeat is answered again from the kept response and
not executed. READ, WRITE and NOP; BREAD at offset 0 fills the session's buffer and later reads it, of the same pair only;
BWRITE places bytes, and with FINAL issues one WRITE; SUBSCRIBE and UNSUBSCRIBE change the session's table of 32; a body that is
short, lacks data that it says it carries, or is of a reserved OP gets BADOP. SUBSCRIPTION_SAMPLE sends an EVENT for a changed
or due value and ends a refused subscription. Since only a frame sealed under a session's key opens, the effect is stated for
what the frame opens to. The model's choices in it: assumptions 4, 10, 38. -/
def Obligations.SidebandRequests : Prop :=
  (∀ (s : State) (type : Nat) (f : SbIn), (f.ver ≠ 1 ∨ f.body.length < f.len.toNat) → s.openFrame type f = none)
  ∧ (∀ (s : State) (f : SbIn) (c : Instr) (op : Nat), s.portRuns → s.forUs f.dst f.etype = true → requestOp c = some (f, op) →
    Completes c s (fun u =>
      (s.openFrame 0x20 f = none → u.sb = s.sb ∧ s.sbCounted u (fun j => decide (j = 2)) ∧ s.sbFrame u 9 (fun _ => false) ∧ u = { s with objs := u.objs, freeCtr := u.freeCtr })
      ∧ (∀ e ∈ (s.openFrame 0x20 f).toList,
        let x := s.session e.1
        let o := leField e.2 0 1
        (o ≠ op ∧ 1 ≤ o ∧ o ≤ 7 → u = { s with freeCtr := u.freeCtr })
        ∧ (¬ (o ≠ op ∧ 1 ≤ o ∧ o ≤ 7) → f.cnt ≠ x.lastCnt + 1 → (f.cnt ≠ x.lastCnt ∨ x.stored = none) →
          u.sb = s.sb ∧ s.sbCounted u (fun j => decide (j = 2)) ∧ s.sbFrame u 9 (fun _ => false) ∧ u = { s with objs := u.objs, freeCtr := u.freeCtr })
        ∧ (¬ (o ≠ op ∧ 1 ≤ o ∧ o ≤ 7) → f.cnt = x.lastCnt → x.stored.isSome = true → f.cnt ≠ 0xFFFFFFFF → x.txCnt.toNat < 2 ^ 32 - 2 →
          u.session e.1 = { x with idle := s.gov.uptime, txCnt := x.txCnt + 1 } ∧ s.sbSends u [s.protectedFrame e.1 x 0x21 (x.txCnt + 1) (x.stored.getD [])]
          ∧ s.sbCounted u (fun j => decide (j = 1 ∨ j = 3)) ∧ s.sbFrame u e.1 (fun _ => false)
          ∧ u = { s with sb := { s.sb with sessions := u.sb.sessions, sent := u.sb.sent }, objs := u.objs, freeCtr := u.freeCtr })
        ∧ (s.dict.xfer.isSome = true → f.cnt = x.lastCnt + 1 → f.cnt ≠ 0 → u = { s with freeCtr := u.freeCtr })
        ∧ ((e.2.length < 12 ∨ o = 0 ∨ 7 < o ∨ ((o = 2 ∨ o = 4) ∧ e.2.length < 12 + Nat.min 1024 (leField e.2 6 2))) → s.dict.xfer = none → ¬ (o ≠ op ∧ 1 ≤ o ∧ o ≤ 7) → f.cnt = x.lastCnt + 1 → f.cnt ≠ 0xFFFFFFFF → f.cnt ≠ 0 → x.txCnt.toNat < 2 ^ 32 - 2 →
          s.responded u e.1 x o 10 e.2 0 0 [] ∧ s.sbFrame u e.1 (fun _ => false)
          ∧ u = { s with sb := { s.sb with sessions := u.sb.sessions, sent := u.sb.sent }, objs := u.objs, freeCtr := u.freeCtr }))))
  ∧ (∀ (s : State) (f : SbIn), s.portRuns → s.forUs f.dst f.etype = true → s.dict.xfer = none →
    Completes (.nop f) s (fun u => ∀ e ∈ (s.openFrame 0x20 f).toList, s.inOrder e.1 f e.2 7 →
      s.responded u e.1 (s.session e.1) 7 0 e.2 0 0 [] ∧ s.sbFrame u e.1 (fun _ => false)
      ∧ u = { s with sb := { s.sb with sessions := u.sb.sessions, sent := u.sb.sent }, objs := u.objs }))
  ∧ (∀ (s : State) (f : SbIn), s.portRuns → s.forUs f.dst f.etype = true → s.dict.xfer = none →
    Completes (.sbRead f false) s (fun u => ∀ e ∈ (s.openFrame 0x20 f).toList, s.inOrder e.1 f e.2 1 →
      let i := e.1
      let b := e.2
      let p : Principal := if (s.session i).kindF then .f else .m
      let idx := leField b 2 2
      let sub := leField b 4 1
      let y := (s.session i).noBlock
      let s1 := (s.setSession i { y with lastCnt := f.cnt, idle := s.gov.uptime }).bump 0x2005 1 1
      ∀ r ∈ (catRow idx sub).toList, (idx, sub) ≠ (0x1F03, 1) → mayRead (s.code p r sub) = true → r.dk ≠ .none →
        let v := s1.objValue p (i + 1) r idx sub
        let n := Nat.min 1024 (leField b 6 2)
        s.responded u i y 1 (if n < v.length then 6 else 0) b 0 v.length (v.take n) ∧ s.sbFrame u i servedPair ∧ s.slotsSaw u 66
        ∧ u = { s with sb := { s.sb with sessions := u.sb.sessions, sent := u.sb.sent }, objs := u.objs, dict := { s.dict with slots := u.dict.slots }, freeCtr := s.freeCtr + 1 }))
  ∧ (∀ (s : State) (f : SbIn), s.portRuns → s.forUs f.dst f.etype = true → s.dict.xfer = none →
    Completes (.sbWrite f true) s (fun u => ∀ e ∈ (s.openFrame 0x20 f).toList, s.inOrder e.1 f e.2 2 → 12 + Nat.min 1024 (leField e.2 6 2) ≤ e.2.length →
      let i := e.1
      let b := e.2
      let p : Principal := if (s.session i).kindF then .f else .m
      let idx := leField b 2 2
      let sub := leField b 4 1
      let d := (b.drop 12).take (Nat.min 1024 (leField b 6 2))
      (s.writeCheck p idx sub ≠ 0 → u.objs.filter (fun q => !servedPair q.1 && decide (q.1 / 256 ≠ 0x2005)) = s.objs.filter (fun q => !servedPair q.1 && decide (q.1 / 256 ≠ 0x2005))
        ∧ u = { s with sb := { s.sb with sessions := u.sb.sessions, sent := u.sb.sent }, objs := u.objs, dict := { s.dict with slots := u.dict.slots }, freeCtr := s.freeCtr + 1 })
      ∧ (∀ r ∈ (catRow idx sub).toList, plainObject idx sub = true → s.writeCheck p idx sub = 0 →
        let v := leNat (d.take r.ty.size)
        let w := r.clamp v
        u.obj idx sub = w ∧ s.responded u i (s.session i).noBlock 2 (if w = v then 0 else 1) b 0 r.ty.size ((natLe r.ty.size w).take d.length)
        ∧ (∀ n, kvGet false u.dict.hold n = if n = pairOf idx sub ∧ r.held = true then true else kvGet false s.dict.hold n)
        ∧ s.sbFrame u i (fun n => servedPair n || decide (n = pairOf idx sub))
        ∧ u = { s with sb := { s.sb with sessions := u.sb.sessions, sent := u.sb.sent }, objs := u.objs, dict := { s.dict with hold := u.dict.hold, slots := u.dict.slots }
                       freeCtr := s.freeCtr + 1 })))
  ∧ (∀ (s : State) (f : SbIn), s.portRuns → s.forUs f.dst f.etype = true → s.dict.xfer = none →
    Completes (.bread f false) s (fun u => ∀ e ∈ (s.openFrame 0x20 f).toList, s.inOrder e.1 f e.2 3 →
      let i := e.1
      let b := e.2
      let x := s.session i
      let p : Principal := if x.kindF then .f else .m
      let idx := leField b 2 2
      let sub := leField b 4 1
      let off := leField b 8 2
      let n := Nat.min 1024 (leField b 6 2)
      let s1 := (s.setSession i { x.noBlock with lastCnt := f.cnt, idle := s.gov.uptime }).bump 0x2005 1 1
      (off ≠ 0 →
        (if x.blockPair = some (pairOf idx sub) ∧ x.blockWrite = false ∧ off < 4096 then s.responded u i x 3 0 b off x.block.length ((x.block.drop off).take n) else s.responded u i x 3 10 b 0 0 [])
        ∧ s.sbFrame u i (fun _ => false) ∧ u = { s with sb := { s.sb with sessions := u.sb.sessions, sent := u.sb.sent }, objs := u.objs, freeCtr := s.freeCtr + 1 })
      ∧ (∀ r ∈ (catRow idx sub).toList, off = 0 → (idx, sub) ≠ (0x1F03, 1) → mayRead (s.code p r sub) = true → r.dk ≠ .none →
        let v := s1.objValue p (i + 1) r idx sub
        s.responded u i { x with block := v, blockPair := some (pairOf idx sub), blockWrite := false } 3 0 b 0 v.length (v.take n) ∧ s.sbFrame u i servedPair ∧ s.slotsSaw u 66
        ∧ u = { s with sb := { s.sb with sessions := u.sb.sessions, sent := u.sb.sent }, objs := u.objs, dict := { s.dict with slots := u.dict.slots }, freeCtr := s.freeCtr + 1 })))
  ∧ (∀ (s : State) (f : SbIn), s.portRuns → s.forUs f.dst f.etype = true → s.dict.xfer = none →
    Completes (.bwrite f true) s (fun u => ∀ e ∈ (s.openFrame 0x20 f).toList, s.inOrder e.1 f e.2 4 → 12 + Nat.min 1024 (leField e.2 6 2) ≤ e.2.length →
      let i := e.1
      let b := e.2
      let x := s.session i
      let p : Principal := if x.kindF then .f else .m
      let idx := leField b 2 2
      let sub := leField b 4 1
      let off := leField b 8 2
      let d := (b.drop 12).take (Nat.min 1024 (leField b 6 2))
      let mine := decide (x.blockPair = some (pairOf idx sub)) && x.blockWrite
      let blk := (bytesPut (if mine then x.block else []) off d).take 4096
      (4096 ≤ off → s.responded u i x 4 10 b 0 0 [] ∧ s.sbFrame u i (fun _ => false)
        ∧ u = { s with sb := { s.sb with sessions := u.sb.sessions, sent := u.sb.sent }, objs := u.objs, freeCtr := s.freeCtr + 1 })
      ∧ (off < 4096 → (mine = true ∨ off = 0) → (leField b 1 1).testBit 0 = false →
        s.responded u i { x with block := blk, blockPair := some (pairOf idx sub), blockWrite := true } 4 0 b off 0 [] ∧ s.sbFrame u i (fun _ => false)
        ∧ u = { s with sb := { s.sb with sessions := u.sb.sessions, sent := u.sb.sent }, objs := u.objs, freeCtr := s.freeCtr + 1 })
      ∧ (∀ r ∈ (catRow idx sub).toList, off < 4096 → (mine = true ∨ off = 0) → (leField b 1 1).testBit 0 = true → plainObject idx sub = true → s.writeCheck p idx sub = 0 →
        let w := r.clamp (leNat (blk.take r.ty.size))
        u.obj idx sub = w ∧ s.responded u i x.noBlock 4 (if w = leNat (blk.take r.ty.size) then 0 else 1) b 0 r.ty.size (natLe r.ty.size w)
        ∧ s.sbFrame u i (fun n => servedPair n || decide (n = pairOf idx sub))
        ∧ u = { s with sb := { s.sb with sessions := u.sb.sessions, sent := u.sb.sent }, objs := u.objs, dict := { s.dict with hold := u.dict.hold, slots := u.dict.slots }
                       freeCtr := s.freeCtr + 1 })))
  ∧ (∀ (s : State) (f : SbIn), s.portRuns → s.forUs f.dst f.etype = true → s.dict.xfer = none →
    Completes (.subscribe f) s (fun u => ∀ e ∈ (s.openFrame 0x20 f).toList, s.inOrder e.1 f e.2 5 →
      let b := e.2
      let y := (s.session e.1).noBlock
      let pair := pairOf (leField b 2 2) (leField b 4 1)
      let rest := y.subs.filter (fun q => decide (q.pair ≠ pair))
      (if 32 ≤ rest.length then s.responded u e.1 y 5 8 b 0 0 [] else
        s.responded u e.1 { y with subs := rest ++ [{ pair := pair, periodic := (leField b 1 1).testBit 0, period := Nat.max 10 (Nat.min (leField b 10 2) 60000), last := none }] } 5 0 b 0 0 [])
      ∧ s.sbFrame u e.1 (fun _ => false) ∧ u = { s with sb := { s.sb with sessions := u.sb.sessions, sent := u.sb.sent }, objs := u.objs }))
  ∧ (∀ (s : State) (f : SbIn), s.portRuns → s.forUs f.dst f.etype = true → s.dict.xfer = none →
    Completes (.unsubscribe f) s (fun u => ∀ e ∈ (s.openFrame 0x20 f).toList, s.inOrder e.1 f e.2 6 →
      let y := s.session e.1
      s.responded u e.1 { y with subs := y.subs.filter (fun q => decide (q.pair ≠ pairOf (leField e.2 2 2) (leField e.2 4 1))) } 6 0 e.2 0 0 []
      ∧ s.sbFrame u e.1 (fun _ => false) ∧ u = { s with sb := { s.sb with sessions := u.sb.sessions, sent := u.sb.sent }, objs := u.objs }))
  ∧ (∀ (s : State) (i : Nat) (x : Session) (q : Sub) (p : Principal), s.portRuns → i < 5 → x = s.session i → x.st = .opened → x.subs = [q] → x.txCnt.toNat < 2 ^ 32 - 2 →
    x.lastCnt ≠ 0xFFFFFFFF → (∀ j, j < 5 → j ≠ i → (s.session j).st ≠ .opened) → p = (if x.kindF then .f else .m) → q.pair % 256 ≠ 0 → (q.pair ≠ pairOf 0x1F03 1) →
    Completes .subscriptionSample s (fun u =>
      let row := catRow (q.pair / 256) (q.pair % 256)
      let ok := match row with | some r => mayRead (s.code p r (q.pair % 256)) && decide (r.dk ≠ .none) | none => false
      let t := match row with | some r => (if ok then s.aonParity r (q.pair / 256) (q.pair % 256) (s.sampleBad i q.pair) else s) | none => s
      let v := match row with | some r => t.objValue p (i + 1) r (q.pair / 256) (q.pair % 256) | none => []
      let due := if q.periodic then decide (q.period ≤ q.age + 1) else decide (q.last ≠ some v)
      let sent := !ok || due
      let q' : Sub := if due then { q with age := if q.periodic then 0 else q.age, last := some v } else if q.periodic then { q with age := q.age + 1 } else q
      u.session i = { x with subs := if ok then [q'] else [], txCnt := if sent then x.txCnt + 1 else x.txCnt }
      ∧ s.sbSends u (if sent then [s.protectedFrame i x 0x22 (x.txCnt + 1)
          (sbBody 8 (if ok then 0 else if row.isSome then 4 else 5) (q.pair / 256) (q.pair % 256) 0 (if ok then v.length else 0) s.now (if ok then v.take 1024 else []))] else [])
      ∧ t.sbFrame u i (fun _ => false) ∧ u = { t with sb := { s.sb with sessions := u.sb.sessions, sent := u.sb.sent }, freeCtr := s.freeCtr + 1 }))
  ∧ (∀ (s : State), s.portRuns → (∀ j, j < 5 → (s.session j).st ≠ .opened) → Completes .subscriptionSample s (fun u => u = { s with freeCtr := s.freeCtr + 1 }))

/-! ### Islands, energy and readings (19; 10, 02 and 21) -/

/-- GOVERNOR_TICK closes the tick: tokens issued, spent and lapsed are counted and audited (a difference is counted, caps the
budget and alerts). It counts the tick and the always-on timer. A READY device issues B after trims and its audit cap, the
shared pool and A; each tile not fenced gets its part in whole tokens, cut by its die's junction level, split into the mode's
reservations, and a throttle window begins with the caps of the levels that hold. TICK_MIDPOINT makes every reservation
unreserved. C_CORE_CHARGE takes the step's charge, or stops the C-core's clock where neither the account nor its pool can pay;
IDLE_RETURN gives an idle tile's account to its pool. FREQUENCY_CHANGE_COMPLETE and the droop commands clear and set what holds
a unit. TIME_MARK begins a mark, unless one is in progress; the write is counted; each island's arrival records its time once,
and the last one ends and counts the mark. The model's choices in it: assumptions 10, 23, 25, 71, 78. -/
def Obligations.EnergyTicks : Prop :=
  (∀ (s : State) (temps : List Int), s.boot.aonOk = true → s.fab.transit = [] → s.cloaks.queue = [] →
    Completes (.governorTick temps) s (fun u =>
      let lapse := s.gov.lapsed + sumNat (s.tiles.map (fun (x : Tile) => x.acct.array + x.acct.vector + x.acct.memory + x.acct.core + x.acct.unreserved))
        + s.gov.shared + s.gov.openPool + sumNat s.gov.cloakPools
      let issued := (s.gov.budget - 1000) * 8192
      let ok := decide (issued = s.gov.spent + lapse)
      u.gov.tick = s.gov.tick + 1 ∧ u.gov.uptime = s.gov.uptime + 1 ∧ u.gov.half = false ∧ u.gov.spent = 0
      ∧ u.obj 0x2104 1 = Nat.min (s.obj 0x2104 1 + issued) (2 ^ 64 - 1) ∧ u.obj 0x2104 2 = Nat.min (s.obj 0x2104 2 + s.gov.spent) (2 ^ 64 - 1)
      ∧ u.obj 0x2104 3 = Nat.min (s.obj 0x2104 3 + lapse) (2 ^ 64 - 1)
      ∧ u.gov.auditCap = (s.gov.auditCap || !ok) ∧ u.obj 0x2104 4 = (if ok then s.obj 0x2104 4 else Nat.min (s.obj 0x2104 4 + 1) (2 ^ 32 - 1))
      ∧ (ok = false → u.boot.alert.getLsbD 5 = true)))
  ∧ (∀ (s : State) (t : TileNo), s.boot.aonOk = true → s.ready = true → s.fab.transit = [] → s.cloaks.queue = [] →
    (∀ n, n < 32 → (s.port n).st = .up → (s.port n).asked = true ∨ (s.port n).sinceKey < 2 ^ 40 ∧ s.gov.uptime + 1 - (s.port n).keyAt < 8640000000) →
    Completes (.governorTick []) s (fun u =>
      let m := s.obj 0x2100 2
      let cap := Nat.min (5 * s.obj 0x2100 1) (if u.gov.auditCap then Nat.min 4500 (modeCap m) else modeCap m)
      let b := cap - cap * Nat.min s.gov.trim 10 / 20
      let a := b - 1800
      let written := (List.range 65).map (fun k => if k = 0 ∨ (s.cloak k).state = .free then 0 else s.obj 0x1202 k)
      let shares := if sumNat written ≤ a then written else written.map (fun v => v * a / sumNat written)
      let k := s.tag t
      let full := if s.fenced t then 0 else 8192 * (if k = 0 then (a - sumNat shares) / ((List.range 192).filter (fun x => decide (s.tag x = 0) && !s.fenced x)).length
        else tabGet 0 shares k / ((List.range 192).filter (fun x => decide (s.tag x = k))).length)
      let cu := match tabGet 0 s.gov.level (tileDie t) with | 0 => full | 1 => full * 3 / 4 | 2 => full / 2 | _ => full / 4
      let part := fun (p : Nat) => cu * p / 100
      let r := modeShares m
      let x := (u.tile t).acct
      u.gov.budget = b ∧ u.gov.assignable = a ∧ u.gov.shared = 8192 * (if 1800 ≤ b then 800 else b - 1000) ∧ u.gov.shares = shares
      ∧ x.array = part r.1 ∧ x.vector = part r.2.1 ∧ x.memory = part r.2.2.1 ∧ x.core = part r.2.2.2
      ∧ x.array + x.vector + x.memory + x.core + x.unreserved = cu ∧ x.received = decide (cu ≠ 0)
      ∧ (s.runs t = true → (s.tile t).acct.received = false → s.pool k < 8192 → (u.tile t).core.stopped = true ∧ x.arrayAsleep = true ∧ (u.tile t).lvu.power ≠ .active)
      ∧ (∀ k, k < 8 → tabGet ({} : Stack) u.mem.hbm k = { tabGet ({} : Stack) s.mem.hbm k with cap := (tabGet ({} : Stack) s.mem.hbm k).level })
      ∧ u.mem = { s.mem with hbm := u.mem.hbm, lineCaps := [tabGet 0 s.gov.level 0, tabGet 0 s.gov.level 1], started := [] } ∧ u.fab = s.fab ∧ u.fw = s.fw ∧ u.dict = s.dict ∧ u.coh = { s.coh with lent := [] } ∧ u.cloaks = { s.cloaks with coarse := u.cloaks.coarse }))
  ∧ (∀ (s : State) (temps : List Int), s.boot.aonOk = false → Completes (.governorTick temps) s (fun u => u = s))
  ∧ (∀ (s : State),
    Completes .tickMidpoint s (fun u =>
      (∀ t, let x := (s.tile t).acct
        u.tile t = { s.tile t with acct := { x with array := 0, vector := 0, memory := 0, core := 0, unreserved := x.array + x.vector + x.memory + x.core + x.unreserved } })
      ∧ u = { s with tiles := u.tiles, gov := { s.gov with half := true } }))
  ∧ (∀ (s : State) (t : TileNo) (n : Nat), s.runs t = true → (s.tile t).core.changing = false → (s.tile t).core.waiting = false →
    n = (if s.gov.stepMHz = 2600 then 6 else if s.gov.stepMHz = 2200 then 5 else if s.gov.stepMHz = 1800 then 4 else 3) →
    (n ≤ (s.tile t).acct.core + (s.tile t).acct.unreserved ∨ s.pool (s.tag t) < 8192) →
    Completes (.cCoreCharge t) s (fun u =>
      let x := (s.tile t).acct
      let paid := decide (n ≤ x.core + x.unreserved)
      u.tile t = { s.tile t with core := { (s.tile t).core with stopped := !paid }
                                 acct := if paid then { x with core := x.core - n, unreserved := x.unreserved - (n - x.core), used := x.used + n } else x }
      ∧ s.otherTiles u t ∧ u = { s with tiles := u.tiles, gov := { s.gov with spent := if paid then s.gov.spent + n else s.gov.spent } }))
  ∧ (∀ (s : State) (t : TileNo), (s.tile t).core.waiting = true → (s.tile t).eng.seq.run = none → (s.tile t).eng.seq.queue = [] → (s.tile t).lvu.power ≠ .active →
    Completes (.idleReturn t) s (fun u =>
      let x := (s.tile t).acct
      u.pool (s.tag t) = s.pool (s.tag t) + (x.array + x.vector + x.memory + x.core + x.unreserved) ∧ (∀ k, k ≠ s.tag t → u.pool k = s.pool k)
      ∧ u.tile t = { s.tile t with acct := { x with array := 0, vector := 0, memory := 0, core := 0, unreserved := 0 } } ∧ s.otherTiles u t
      ∧ u = { s with tiles := u.tiles, gov := { s.gov with openPool := u.gov.openPool, cloakPools := u.gov.cloakPools } }))
  ∧ (∀ (s : State) (t : TileNo),
    Completes (.frequencyChangeComplete t) s (fun u => u.tile t = { s.tile t with core := { (s.tile t).core with changing := false } } ∧ s.onlyTile u t)
    ∧ Completes (.droopHoldEnd t) s (fun u => u.tile t = { s.tile t with acct := { (s.tile t).acct with droop := false } } ∧ s.onlyTile u t))
  ∧ (∀ (s : State) (t : TileNo), s.boot.rails = 8 →
    Completes (.droop t) s (fun u =>
      u.tile t = { s.tile t with acct := { (s.tile t).acct with droop := true } } ∧ s.otherTiles u t
      ∧ u.obj 0x2105 8 = (if s.cloaks.coarse.active && decide (s.tag t ≠ 0) then s.obj 0x2105 8 else Nat.min (s.obj 0x2105 8 + 1) (2 ^ 64 - 1))
      ∧ (∀ n, n ≠ pairOf 0x2105 8 → kvGet none u.objs n = kvGet none s.objs n) ∧ u = { s with tiles := u.tiles, objs := u.objs }))
  ∧ (∀ (s s1 : State) (p : Principal), s1 = (if s.dictFree then s.countedWrite p 0x2101 3 false else s) →
    Completes (.timeMark p) s (fun u =>
      u.gov = (if s.dictFree = true ∧ s.writeCheck p 0x2101 3 = 0 ∧ s.gov.markBusy = false then { s.gov with markBusy := true, markSeen := [] } else s.gov)
      ∧ u = { s1 with gov := u.gov, dict := { s1.dict with hold := u.dict.hold } }))
  ∧ (∀ (s : State) (i : MarkIsland), s.gov.markBusy = true → i ∉ s.gov.markSeen → (∀ t : TileNo, (i = .core t ∨ i = .vector t ∨ i = .array t) → s.fenced t = false) →
    Completes (.timeMarkArrival i) s (fun u =>
      let last := decide (s.gov.markSeen.length + 1 = 3 * (192 - countIf (fun t => s.fenced t) (List.range 192)) + 5)
      u.gov = { s.gov with markSeen := i :: s.gov.markSeen, markBusy := !last }
      ∧ u.obj 0x2101 4 = (if last then Nat.min (s.obj 0x2101 4 + 1) (2 ^ 32 - 1) else s.obj 0x2101 4)
      ∧ (∀ t, u.tile t = { s.tile t with core := { (s.tile t).core with mark := (u.tile t).core.mark } })
      ∧ (∀ n, pairOf 0x2101 9 < n ∨ n < pairOf 0x2101 4 → kvGet none u.objs n = kvGet none s.objs n)
      ∧ u = { s with gov := u.gov, tiles := u.tiles, objs := u.objs, freeCtr := s.freeCtr + 1 }))

/-- STACK_TEMPERATURE_READING keeps each stack's reading and its level, with a hysteresis of 2 °C, and counts throttled time; a
reading above the alert threshold sets the alert, with a THERMAL record where it begins; at 95 °C the device trips.
THROTTLE_WINDOW gives the next window the levels that hold now, and nothing is started in it yet. PATROL_SCRUB charges and
checks a line whose unit's cap allows it: what the check makes of a fault is corrected and counted and leaves no mark, or is
counted, recorded and marks the line. PMBUS_CURRENT_SAMPLE records powers, and moves B's trim by one step down or up;
PMBUS_STATUS_POLL records voltages. A regulator's fault, at the poll or at PMB_ALERT, is counted and turns the rails off to
start again after 1 s. SET_POINT_WRITE stores the clamped multiple of 5 mV and keeps it to be sent; TRACE_ENABLE_WRITE stores 1
only while debug is open. At the end of a coarsening interval the means and peaks are shown and a new interval begins; what was
held is delivered each second, and coarsening ends once no Cloak has lived through a whole one. A line of HBM stands with its
MAC and check symbols in its side word: encrypted and with a MAC where its granule's state gives it keys, in plaintext and with
a zero MAC in OPEN and SCRUBBING granules; a line of the Lining stands in plaintext; as stored each reads back without an error,
and an error within one byte never defeats the code (the Reed-Solomon symbols are uninterpreted). The model's choices in it:
assumptions 10, 13, 54, 71, 75, 95. -/
def Obligations.ReadingsAndIntervals : Prop :=
  (∀ (s : State) (temps : List Int), s.boot.rails = 8 → s.cloaks.coarse.active = false → temps.length ≤ 8 → (∀ x ∈ temps, -40 ≤ x ∧ x < 95) →
    (∀ k, k < 8 → (tabGet ({} : Stack) s.mem.hbm k).level ≤ 4) →
    Completes (.stackTemperatureReading temps) s (fun u =>
      (∀ k, k < temps.length →
        let x := temps.getD k 0
        let old := (tabGet ({} : Stack) s.mem.hbm k).level
        let l := (tabGet ({} : Stack) u.mem.hbm k).level
        let up := countIf (fun (i : Nat) => decide (((s.obj 0x1901 i : Nat) : Int) ≤ x)) [1, 2, 3, 4]
        l = (if old = 0 ∨ ((s.obj 0x1901 old : Nat) : Int) - 2 < x then Nat.max old up else up)
        ∧ tabGet ({} : Stack) u.mem.hbm k = { tabGet ({} : Stack) s.mem.hbm k with level := l }
        ∧ u.objInt 0x1902 (k + 1) = x ∧ u.obj 0x1903 (k + 1) = l
        ∧ u.obj 0x1922 (k + 1) = (if 1 ≤ old then Nat.min (s.obj 0x1922 (k + 1) + 250) (2 ^ 64 - 1) else s.obj 0x1922 (k + 1)))
      ∧ (∀ k, temps.length ≤ k → tabGet ({} : Stack) u.mem.hbm k = tabGet ({} : Stack) s.mem.hbm k)
      ∧ u.boot.alert.getLsbD 1 = (s.boot.alert.getLsbD 1 || temps.any (fun x => decide (((s.obj 0x2203 2 : Nat) : Int) < x)))
      ∧ (let hot := (List.range temps.length).find? (fun k => decide (((s.obj 0x2203 2 : Nat) : Int) < temps.getD k 0))
         (∀ k ∈ hot.toList, s.boot.alert.getLsbD 1 = false → s.recorded u 7 0x25 k) ∧ (hot = none ∨ s.boot.alert.getLsbD 1 = true → u.logs = s.logs))
      ∧ (u.logs = s.logs → u.tiles = s.tiles ∧ u.hedom = s.hedom) ∧ (∀ t, u.tile t = { s.tile t with core := (s.tile t).core.toldOf (u.tile t).core })
      ∧ u = { s with mem := { s.mem with hbm := u.mem.hbm }, objs := u.objs, boot := { s.boot with alert := u.boot.alert }
                     logs := u.logs, tiles := u.tiles, hedom := u.hedom, freeCtr := u.freeCtr }))
  ∧ (∀ (s : State) (x : Int), s.boot.rails = 8 → s.boot.thermtrip = false → 95 ≤ x →
    Completes (.stackTemperatureReading [x]) s (fun u =>
      u.boot.st = .tripped ∧ u.boot.rails = 0 ∧ u.boot.mainOk = false ∧ u.boot.thermtrip = true ∧ u.boot.holdoff = true
      ∧ u.boot.alert.getLsbD 7 = true ∧ (frStep u.boot.record, frSrc u.boot.record, frReason u.boot.record, frUnit u.boot.record) = (0, 0x25, 3, 0)
      ∧ u.tiles = [] ∧ u.mem = { portsClosed := s.mem.portsClosed } ∧ (∀ k, u.cloak k = {}) ∧ u.gov.uptime = s.gov.uptime))
  ∧ (∀ (s : State),
    Completes .throttleWindow s (fun u =>
      (∀ k, k < 8 → tabGet ({} : Stack) u.mem.hbm k = { tabGet ({} : Stack) s.mem.hbm k with cap := (tabGet ({} : Stack) s.mem.hbm k).level })
      ∧ u.mem.lineCaps = [tabGet 0 s.gov.level 0, tabGet 0 s.gov.level 1] ∧ u.mem.started = []
      ∧ u = { s with mem := { s.mem with hbm := u.mem.hbm, lineCaps := u.mem.lineCaps, started := [] } }))
  ∧ (∀ (s : State) (line n : Nat) (f : Option LineFault), s.boot.rails = 8 → (granuleOf (64 * line)).isSome = true →
    entState (s.granule ((granuleOf (64 * line)).getD 0)) = 0 → s.capped (64 * line) = false →
    n = (if place (64 * line) = .lining then 1 else 2) → n ≤ s.gov.shared → lineErr s.mem line = none →
    Completes (.patrolScrub line f) s (fun u =>
      let e := f.bind (s.checkLine (64 * line))
      let i := match place (64 * line), e with | .lining, some .correctable => 0x1913 | .lining, _ => 0x1914 | _, some .correctable => 0x1910 | _, _ => 0x1911
      u.gov = { s.gov with shared := s.gov.shared - n, spent := s.gov.spent + n } ∧ u.mem.bytes = s.mem.bytes
      ∧ (∀ x, lineErr u.mem x = if x = line ∧ e = some .uncorrectable then some .uncorrectable else lineErr s.mem x)
      ∧ u.obj i (memUnit (64 * line) + 1) = (if e.isSome then Nat.min (s.obj i (memUnit (64 * line) + 1) + 1) (2 ^ 64 - 1) else s.obj i (memUnit (64 * line) + 1))
      ∧ (e = some .uncorrectable → s.recorded u 2 (if place (64 * line) = .lining then 0x24 else 0x25) (memUnit (64 * line)))
      ∧ (e = some .correctable → tabGet 0 u.logs.byClass 1 = Nat.min (tabGet 0 s.logs.byClass 1 + 1) (2 ^ 64 - 1) ∧ u.logs.h = s.logs.h ∧ u.logs.m = s.logs.m)
      ∧ u.cloaks = s.cloaks ∧ u.fab = s.fab ∧ u.boot = s.boot))
  ∧ (∀ (s : State) (line : Nat) (f : Option LineFault), (granuleOf (64 * line) = none ∨ s.boot.rails ≠ 8 ∨ s.capped (64 * line) = true
      ∨ entState (s.granule ((granuleOf (64 * line)).getD 0)) = 2) → Completes (.patrolScrub line f) s (fun u => u = s))
  ∧ (∀ (s : State) (amps watts : List Nat) (pkg d0 d1 : Nat), s.boot.rails = 8 → amps.length = 8 → watts.length = 8 → (∀ w ∈ watts, w ≤ 4000) → pkg ≤ 4000 → d0 ≤ 4000 → d1 ≤ 4000 →
    Completes (.pmbusCurrentSample (amps.map some) watts pkg d0 d1) s (fun u =>
      let lim := s.obj 0x2100 1
      let pw := decide (s.obj 0x2103 5 ≠ 0)
      let high := (pw && decide (lim < pkg)) || (List.range 8).any (fun k => decide (railLimit k < amps.getD k 0))
      let under := (!pw || decide (100 * pkg < 95 * lim)) && (List.range 8).all (fun k => decide (100 * amps.getD k 0 < 95 * railLimit k))
      u.gov = { s.gov with trim := if high then (if s.gov.trim < 10 then s.gov.trim + 1 else s.gov.trim) else if under then s.gov.trim - 1 else s.gov.trim }
      ∧ u.obj 0x2105 9 = (if high = true ∧ s.gov.trim < 10 then Nat.min (s.obj 0x2105 9 + 1) (2 ^ 64 - 1) else s.obj 0x2105 9)
      ∧ u.obj 0x2105 1 = pkg ∧ u.obj 0x2105 2 = d0 ∧ u.obj 0x2105 3 = d1 ∧ (∀ k, k < 8 → u.obj 0x2302 (k + 1) = watts.getD k 0)
      ∧ (∀ k, k < 8 → tabGet 0 u.pins.pmbFails k = 0) ∧ u.tiles = s.tiles ∧ u.mem = s.mem
      ∧ u = { s with gov := u.gov, objs := u.objs, pins := { s.pins with pmbFails := u.pins.pmbFails }, boot := { s.boot with alert := u.boot.alert }
                     cloaks := { s.cloaks with coarse := u.cloaks.coarse } }))
  ∧ (∀ (s : State) (mv : List Nat), s.boot.rails ≠ 0 → s.boot.aonOk = true → mv.length = 10 → (∀ v ∈ mv, v ≤ 2500) →
    Completes (.pmbusStatusPoll mv 0) s (fun u =>
      (∀ k, k < 10 → u.obj 0x2302 (k + 9) = mv.getD k 0) ∧ (∀ n, n < pairOf 0x2302 9 ∨ pairOf 0x2302 18 < n → kvGet none u.objs n = kvGet none s.objs n)
      ∧ u = { s with objs := u.objs, cloaks := { s.cloaks with coarse := u.cloaks.coarse } })
    ∧ Completes (.pmbAlert 0) s (fun u => u = s))
  ∧ (∀ (s : State) (mv : List Nat) (faults : BitVec 8) (r : Nat) (c : Instr), (c = .pmbAlert faults ∨ c = .pmbusStatusPoll mv faults) → s.boot.rails ≠ 0 → s.boot.aonOk = true →
    r < 8 → faults.getLsbD r = true → (∀ q, q < r → faults.getLsbD q = false) → s.boot.railFailed = false →
    Completes c s (fun u =>
      u.boot.rails = 0 ∧ u.boot.railFault = true ∧ u.boot.railFailed = true ∧ u.boot.st = .off ∧ u.boot.mainOk = false ∧ u.boot.alert.getLsbD 8 = true
      ∧ (u.boot.fails.map (fun x => (frStep x, frSrc x, frReason x, frUnit x))) = [(0, 5, 2, r + 1)] ∧ u.tiles = [] ∧ u.mem = {} ∧ u.fuses = s.fuses ∧ u.gov.uptime = s.gov.uptime))
  ∧ (∀ (s s1 : State) (p : Principal) (r : Fin 8) (mv : BitVec 16) (row : ObjRow) (v : Nat), s.dictFree = true → s.writeCheck p 0x2301 (r.val + 1) = 0 →
    catRow 0x2301 (r.val + 1) = some row → v = row.clamp mv.toNat / 5 * 5 → s1 = s.countedWrite p 0x2301 (r.val + 1) (decide (v ≠ mv.toNat)) →
    Completes (.setPointWrite p r mv) s (fun u =>
      u.obj 0x2301 (r.val + 1) = v ∧ u.pins.setPending = s.pins.setPending.filter (fun x => decide (x ≠ r.val)) ++ [r.val]
      ∧ (∀ n, n ≠ pairOf 0x2301 (r.val + 1) → kvGet none u.objs n = kvGet none s1.objs n)
      ∧ u = { s1 with objs := u.objs, pins := { s.pins with setPending := u.pins.setPending }, dict := { s1.dict with hold := u.dict.hold } }))
  ∧ (∀ (s s1 : State) (p : Principal) (b : Bool), s.dictFree = true → s.writeCheck p 0x2304 2 = 0 → s1 = s.countedWrite p 0x2304 2 (b && !s.pins.debugOpen) →
    Completes (.traceEnableWrite p b) s (fun u =>
      u.obj 0x2304 2 = (if b = true ∧ s.pins.debugOpen = true then 1 else 0) ∧ (∀ n, n ≠ pairOf 0x2304 2 → kvGet none u.objs n = kvGet none s1.objs n)
      ∧ u = { s1 with objs := u.objs, dict := { s1.dict with hold := u.dict.hold } }))
  ∧ (∀ (s : State) (p : Principal) (r : Fin 8) (mv : BitVec 16) (b : Bool) (c : Instr) (idx sub : Nat),
    (c = .setPointWrite p r mv ∧ idx = 0x2301 ∧ sub = r.val + 1 ∨ c = .traceEnableWrite p b ∧ idx = 0x2304 ∧ sub = 2) → (s.dictFree = false ∨ s.writeCheck p idx sub ≠ 0) →
    Completes c s (fun u => u = if s.dictFree then s.countedWrite p idx sub false else s))
  ∧ (∀ (s : State), s.cloaks.coarse.active = true → s.cloaks.coarse.sec + 100000 ≤ s.gov.tick →
    Completes .interval1sEnd s (fun u =>
      let c := s.cloaks.coarse
      let ends := (match c.freeAt with | some f => decide (f ≤ c.sec) | none => false) && s.liveCloaks.isEmpty
      u.logs.held = [] ∧ u.hedom.heldRefusals = [] ∧ u.logs.uncorr = 0 ∧ u.logs.since = s.gov.tick
      ∧ (s.logs.m.seq.toNat + s.logs.held.length < 2 ^ 32 → u.logs.m.seq.toNat = s.logs.m.seq.toNat + s.logs.held.length)
      ∧ (if ends then u.cloaks.coarse = {} ∧ (∀ n, sharedCounter n = true → kvGet none u.objs n = none)
        else u.cloaks.coarse.active = true ∧ u.cloaks.coarse.sec = c.sec + 100000 ∧ u.cloaks.coarse.tenth = c.tenth
          ∧ (∀ q ∈ powerPairs ++ voltPairs, let o := kvGet ((0 : Int), 0) c.sums q
              if o.2 = 0 then kvGet 0 u.cloaks.coarse.shown q = kvGet 0 c.shown q
              else kvGet 0 u.cloaks.coarse.shown q % 5 = 0 ∧ 2 * (kvGet 0 u.cloaks.coarse.shown q * (o.2 : Int) - o.1) ≤ 5 * (o.2 : Int)
                ∧ -(5 * (o.2 : Int)) < 2 * (kvGet 0 u.cloaks.coarse.shown q * (o.2 : Int) - o.1)))
      ∧ (s.obj 0x2203 4 < s.logs.uncorr → u.boot.alert.getLsbD 3 = true) ∧ u.mem = s.mem ∧ u.fab = s.fab ∧ u.gov = s.gov))
  ∧ (∀ (s : State), s.cloaks.coarse.active = true → s.cloaks.coarse.tenth + 10000 ≤ s.gov.tick →
    Completes .interval100msEnd s (fun u =>
      let c := s.cloaks.coarse
      u.cloaks.coarse.tenth = c.tenth + 10000 ∧ u.cloaks.coarse.sec = c.sec ∧ (∀ q ∈ levelPairs, kvGet 0 u.cloaks.coarse.shown q = ((kvGet 0 c.peaks q : Nat) : Int))
      ∧ (∀ q ∈ tempPairs, let o := kvGet ((0 : Int), 0) c.sums q
          if o.2 = 0 then kvGet 0 u.cloaks.coarse.shown q = kvGet 0 c.shown q
          else 2 * (kvGet 0 u.cloaks.coarse.shown q * (o.2 : Int) - o.1) ≤ (o.2 : Int) ∧ -(o.2 : Int) < 2 * (kvGet 0 u.cloaks.coarse.shown q * (o.2 : Int) - o.1))
      ∧ (∀ q, q ∉ tempPairs → q ∉ levelPairs → kvGet 0 u.cloaks.coarse.shown q = kvGet 0 c.shown q)
      ∧ (let new := fun (b : Nat) => flag (u.boot.alert.getLsbD b && !s.boot.alert.getLsbD b)
         tabGet 0 u.logs.byClass 7 = Nat.min (tabGet 0 s.logs.byClass 7 + new 0 + new 1) (2 ^ 64 - 1)
         ∧ (new 0 + new 1 = 0 → u.logs = s.logs ∧ u.objs = s.objs ∧ u.tiles = s.tiles ∧ u.hedom = s.hedom))
      ∧ u = { s with cloaks := { s.cloaks with coarse := u.cloaks.coarse }, boot := { s.boot with alert := u.boot.alert }
                     logs := u.logs, objs := u.objs, tiles := u.tiles, hedom := u.hedom, freeCtr := u.freeCtr }))
  ∧ (∀ (s : State) (line : Nat), s.lineKeys line = none →
    s.hbmData line = memRead s.mem.bytes (64 * line) 64 ∧ s.macField line = 0 ∧ (s.sideWord line).toNat / 2 ^ 24 = 0
    ∧ readHbmWord none line (s.hbmWord line) = (none, some (memRead s.mem.bytes (64 * line) 64)))
  ∧ (∀ (s : State) (line x m : Nat), s.lineKeys line = some (x, m) →
    (s.sideWord line).toNat / 2 ^ 24 = lineMac m line (s.hbmData line) ∧ s.hbmData line = fit 64 (Crypto.xts x (64 * line) (memRead s.mem.bytes (64 * line) 64))
    ∧ readHbmWord (some (x, m)) line (s.hbmWord line) = (none, some (Crypto.xtsOpen x (64 * line) (s.hbmData line))))
  ∧ (∀ (s : State) (line g : Nat), granuleOf (64 * line) = some g → (entState (s.granule g) = 0 ∨ entState (s.granule g) = 2) → s.lineKeys line = none)
  ∧ (∀ (n : Nat) (m : Bytes) (i : Nat) (v : Byte), i < m.length + n → rsDecode n ((codeword n m).set i v) ≠ .failed)
  ∧ (∀ (s : State) (line : Nat), readLiningWord (s.liningWord line) = (none, some (memRead s.mem.bytes (64 * line) 64)))

/-! ### Resets, rails and start-up (20; 21) -/

/-- POWER_ON_RESET leaves the reset state with the straps in their objects, and VDD_AON_LOSS a dead device with none of its
always-on state. RESET_N_ASSERT, COLD_RESET_REQUEST, MAIN_RAILS_WRITE of 1 with the rails off, and TRIP_HOLDOFF_END with a reset
that waits are cold resets: what Table 20.1 keeps is kept and the sequence begins at step 1 (with RESET_N low it waits for
RESET_N_RELEASE); within 10 s of a trip the reset waits, and a Snowplough that a rail caused is not left by object 0x2200.04.
MAIN_RAILS_WRITE of 0 loses what stands on the rails; while they are off it keeps them off. PWR_OK_MAIN_FALL while the rails are
requested is a rail fault: recorded, rails off, cold reset, and RAIL_FAULT_RESTART starts the sequence after 1 s; the second
within 60 s of READY ends in Snowplough with the rails off and what stood on them lost. An island is powered from the enabling
of its last rail on (Table 1.5). ALERT_ACKNOWLEDGE clears the bits written whose cause does not last (that a lasting cause is
set again at once is the model's reading, assumption 49); CLEAR_H_LOG and CLEAR_M_LOG empty their log, whose SEQ continues. A
refused write, an end of hold-off or a restart with nothing due changes nothing. The model's choices in it: assumptions 10, 49,
50. -/
def Obligations.ResetsAndRails : Prop :=
  (∀ (s : State) (k : BitVec 12) (n : BitVec 5) (e : Bool),
    Completes (.powerOnReset k n e) s (fun u =>
      u.obj 0x1C00 1 = k.toNat ∧ u.obj 0x2300 1 = k.toNat ∧ u.obj 0x2300 2 = n.toNat ∧ u.obj 0x2000 2 = (if n = 0 then 1 else n.toNat)
      ∧ (∀ m, m ≠ pairOf 0x1C00 1 → m ≠ pairOf 0x2300 1 → m ≠ pairOf 0x2300 2 → m ≠ pairOf 0x2000 2 → kvGet none u.objs m = none)
      ∧ u = { State.reset with
          ident := { sGrade := s.ident.sGrade, sort := s.ident.sort }, objs := u.objs, fuses := s.fuses, fw := { flash := s.fw.flash, fingerprint := s.fw.fingerprint }
          boot := { held := s.boot.held, starts := if s.boot.held then 0 else 1 }
          pins := { pkgId := k, sbNode := n, sbEnrol := e, uart := s.pins.uart }, freeCtr := s.freeCtr, pending := s.pending })
    ∧ Completes .vddAonLoss s (fun u =>
      u.sb = {} ∧ u.boot = { st := .off, step := 0, held := s.boot.held, aonOk := false } ∧ u.dict = {} ∧ u.tiles = [] ∧ u.mem = {} ∧ u.unlock = {} ∧ u.fuses = s.fuses
      ∧ u.fw.flash = s.fw.flash ∧ u.gov = {} ∧ (∀ m, m ≠ pairOf 0x1C00 1 → m ≠ pairOf 0x2300 1 → m ≠ pairOf 0x2000 2 → kvGet none u.objs m = none)))
  ∧ (∀ (s : State), s.boot.aonOk = true → s.boot.holdoff = false → (tabGet ({} : Session) s.sb.sessions 4).st ≠ .opened →
    Completes .resetNAssert s (fun u => s.coldOf u true ∧ u.dict.hold = s.dict.hold))
  ∧ (∀ (s : State) (p : Principal) (c : Instr),
    (c = .coldResetRequest p ∧ s.dictFree = true ∧ s.writeCheck p 0x2200 4 = 0 ∧ (s.boot.st = .snowplough → s.boot.rails = 0 → s.boot.railFailed = false) ∧ s.boot.holdoff = false
      ∨ c = .tripHoldoffEnd ∧ s.boot.holdoff = true ∧ s.boot.waitingReset = true) →
    (tabGet ({} : Session) s.sb.sessions 4).st ≠ .opened → Completes c s (fun u => s.coldOf u s.boot.held ∧ u.dict.hold = s.dict.hold))
  ∧ (∀ (s : State) (p : Principal), s.dictFree = true → s.writeCheck p 0x2200 5 = 0 → s.boot.rails = 0 → s.boot.holdoff = false → (tabGet ({} : Session) s.sb.sessions 4).st ≠ .opened →
    Completes (.mainRailsWrite p true) s (fun u => u.boot.railFailed = false ∧ u.boot.rails = 0 ∧ u.boot.st = .boot ∧ u.boot.step = 1
      ∧ u.boot.starts = (if s.boot.held then s.boot.starts else Nat.min (s.boot.starts + 1) (2 ^ 32 - 1)) ∧ u.tiles = [] ∧ u.mem = {} ∧ u.cloaks = State.reset.cloaks ∧ u.sb = s.sb))
  ∧ (∀ (s : State) (k : BitVec 12), s.boot.held = true →
    Completes (.resetNRelease k) s (fun u =>
      u.pins = { s.pins with pkgId := k }
      ∧ (if s.boot.aonOk = true ∧ s.boot.holdoff = false then
          u.boot = { s.boot with held := false, st := .boot, step := 1, starts := Nat.min (s.boot.starts + 1) (2 ^ 32 - 1) } ∧ u.obj 0x1C00 1 = k.toNat ∧ u.obj 0x2300 1 = k.toNat
          ∧ u = { s with boot := u.boot, pins := u.pins, objs := u.objs }
        else u = { s with boot := { s.boot with held := false }, pins := u.pins })))
  ∧ (∀ (s : State), s.boot.aonOk = true → s.boot.holdoff = true →
    Completes .resetNAssert s (fun u => u = { s with boot := { s.boot with held := true, waitingReset := true } }))
  ∧ (∀ (s : State) (p : Principal), s.dictFree = true → s.boot.holdoff = true → s.writeCheck p 0x2200 4 = 0 → s.railSnow = false →
    Completes (.coldResetRequest p) s (fun u => u = { s.countedWrite p 0x2200 4 false with boot := { s.boot with waitingReset := true } }))
  ∧ (∀ (s s1 : State) (p : Principal), s.dictFree = true → s.writeCheck p 0x2200 5 = 0 → s1 = s.countedWrite p 0x2200 5 false → s.boot.rails ≠ 0 →
    Completes (.mainRailsWrite p false) s (fun u =>
      u.boot = { s.boot with rails := 0, mainOk := false, railsWanted := false, step := 0, st := if s.boot.st = .snowplough ∨ s.boot.st = .tripped then s.boot.st else .off }
      ∧ u.tiles = []
      ∧ u.cloaks = { State.reset.cloaks with coarse := if s.liveCloaks = [] then s.cloaks.coarse else { s.cloaks.coarse with freeAt := some s.gov.tick } }
      ∧ u.mem = { portsClosed := s.mem.portsClosed } ∧ u.coh = {} ∧ u.fab = {} ∧ u.hedom = {} ∧ u.obj 0x2200 5 = 0
      ∧ (∀ n, n ≠ pairOf 0x2200 5 → kvGet none u.objs n = kvGet none s1.objs n)
      ∧ u = { s1 with tiles := u.tiles, cloaks := u.cloaks, mem := u.mem, coh := u.coh, collars := {}, fab := u.fab, hedom := u.hedom, gov := { s.gov with lapsed := u.gov.lapsed }, boot := u.boot, objs := u.objs }))
  ∧ (∀ (s : State) (r : Fin 8), s.boot.mainOk = true → s.boot.railsWanted = true → s.boot.rails ≠ 0 →
    Completes (.pwrOkMainFall r) s (fun u =>
      let code := failRecord 0 5 2 (r.val + 1)
      let again := s.boot.railFailed && (match s.boot.readyAt with | some t => decide (s.gov.uptime < t + 6000000) | none => true)
      u.boot.rails = 0 ∧ u.boot.mainOk = false ∧ u.boot.alert.getLsbD 8 = true
      ∧ (if again = true then s.snowFace u code ∧ u.tiles = [] ∧ (∀ k, u.cloak k = {}) ∧ u.mem = { portsClosed := s.mem.portsClosed }
        else u.boot = { starts := s.boot.starts, held := s.boot.held, aonOk := s.boot.aonOk, fails := [code], st := .off, railFault := true, railFailed := true, alert := 256 }
          ∧ u.tiles = [] ∧ u.mem = {} ∧ u.cloaks = State.reset.cloaks ∧ u.fuses = s.fuses ∧ u.gov.uptime = s.gov.uptime)))
  ∧ (∀ (s : State) (i : Island), s.boot.aonOk = true → (i ≠ .security ∧ i ≠ .alwaysOn) → (s.islandUp i = true ↔
      (match i with | .core _ => 6 | .vector _ => 7 | .array _ => 8 | .rink _ => 2 | .lining _ => 2 | .hbmPhy _ => 3 | _ => 5) ≤ s.boot.rails))
  ∧ (∀ (s : State) (r : Fin 8), (s.boot.mainOk = false ∨ s.boot.railsWanted = false ∨ s.boot.rails = 0) →
    Completes (.pwrOkMainFall r) s (fun u => u = { s with boot := { s.boot with mainOk := false } }))
  ∧ (∀ (s : State), s.boot.railFault = true → s.boot.held = false →
    Completes .railFaultRestart s (fun u => u = { s with boot := { s.boot with railFault := false, st := .boot, step := 1, starts := Nat.min (s.boot.starts + 1) (2 ^ 32 - 1) } }))
  ∧ (∀ (s : State) (p : Principal) (bits : BitVec 16), s.dictFree = true → s.writeCheck p 0x2200 7 = 0 →
    Completes (.alertAcknowledge p bits) s (fun u =>
      (∀ i : Nat, i < 16 → u.boot.alert.getLsbD i = ((s.boot.alert.getLsbD i && !bits.getLsbD i) || (decide (i = 6) && decide (s.boot.st = .snowplough))
        || (decide (i = 7) && decide (s.boot.st = .tripped)) || (decide (i = 9) && (s.fab.ports.any (fun (q : Port) => decide (q.st = .failed)) || decide (s.hedom.link.st = .failed)))))
      ∧ u = { s.countedWrite p 0x2200 7 false with boot := { s.boot with alert := u.boot.alert } }))
  ∧ (∀ (s : State) (p : Principal), s.dictFree = true → s.writeCheck p 0x2204 0x41 = 0 →
    Completes (.clearHLog p) s (fun u => u = { s.countedWrite p 0x2204 0x41 false with logs := { s.logs with h := { s.logs.h with recs := [] } } }))
  ∧ (∀ (s : State) (p : Principal), s.dictFree = true → s.writeCheck p 0x2205 0x41 = 0 →
    Completes (.clearMLog p) s (fun u => u = { s.countedWrite p 0x2205 0x41 false with logs := { s.logs with m := { s.logs.m with recs := [] } } }))
  ∧ (∀ (s : State) (p : Principal) (b : Bool) (bits : BitVec 16) (c : Instr) (idx sub : Nat),
    (c = .coldResetRequest p ∧ idx = 0x2200 ∧ sub = 4 ∨ c = .mainRailsWrite p b ∧ idx = 0x2200 ∧ sub = 5 ∨ c = .alertAcknowledge p bits ∧ idx = 0x2200 ∧ sub = 7
      ∨ c = .clearHLog p ∧ idx = 0x2204 ∧ sub = 0x41 ∨ c = .clearMLog p ∧ idx = 0x2205 ∧ sub = 0x41) →
    (s.dictFree = false ∨ s.writeCheck p idx sub ≠ 0 ∨ sub = 4 ∧ s.railSnow = true) →
    Completes c s (fun u => u = if s.dictFree then s.countedWrite p idx sub false else s))
  ∧ (∀ (s : State) (k : BitVec 12) (c : Instr),
    (c = .railFaultRestart ∧ s.boot.railFault = false ∨ c = .tripHoldoffEnd ∧ s.boot.holdoff = false ∨ c = .resetNRelease k ∧ s.boot.held = false
      ∨ c = .resetNAssert ∧ s.boot.aonOk = false) → Completes c s (fun u => u = s))

/-- POWER_UP_STEP_COMPLETE passes the step under way: its result, its UART line and the next step; step 4 runs a usable slot's
firmware, or ends in Snowplough where neither is usable; in step 6 it enables the next rail, with the set point that waits for
it, and PWR_OK_MAIN_RISE with all eight enabled begins self-test. Step 3 fails where grade and sort disagree. A failed step, or
one that STEP_TIMEOUT ends, is recorded and ends in Snowplough (rails off after step 6); in step 1 the device is dead. Hedom
training's time-out leaves the device in self-test. SELFTEST_COMPLETE records what failed, in order, gives each step its result,
fences tiles and disables arrays, zeroes memory, and disables ports that failed; with no fatal failure and 1,344 usable arrays
or more the device is READY, else it is in Snowplough with the first fatal record, or with 0xF133 and the count of usable
arrays. Out of the sequence these commands change nothing. The model's choices in it: assumptions 4, 10, 50. -/
def Obligations.StartUp : Prop :=
  (∀ (s : State) (x : BitVec 16) (n : Nat), s.starting = true → s.boot.step = n → (n = 2 ∨ n = 3 ∧ s.ident.gradeOk = true ∨ n = 5 ∨ n = 1) →
    Completes (.powerUpStepComplete none x) s (fun u =>
      u.boot = { s.boot with step := n + 1, results := u.boot.results } ∧ (∀ i, tabGet 0 u.boot.results i = if i = n then 0 else tabGet 0 s.boot.results i)
      ∧ u = { s with boot := u.boot, pins := { s.pins with uart := s.pins.uart ++ ["LAP96 STEP " ++ String.ofList (digits 10 2 n) ++ " ok"] } }))
  ∧ (∀ (s : State) (x : BitVec 16), s.starting = true → s.boot.step = 4 → s.boot.fails = [] →
    Completes (.powerUpStepComplete none x) s (fun u =>
      let slot := if s.slotUsable s.preferred then s.preferred else 1 - s.preferred
      (s.slotUsable slot = true →
        u.fw = (s.runSlot slot).fw ∧ u.fw.slot = slot ∧ u.fw.udsLocked = true ∧ u.fw.cdi2.isSome = true ∧ u.fw.attKey.isSome = true
        ∧ u.fw.cfwSvn = s.imageField slot false 8 4 ∧ u.fw.dfwSvn = s.imageField slot true 8 4
        ∧ u.boot = { s.boot with step := 5, st := .power, results := u.boot.results } ∧ tabGet 0 u.boot.results 4 = 0
        ∧ u = { s with fw := u.fw, boot := u.boot, pins := { s.pins with uart := s.pins.uart ++ ["LAP96 STEP 04 ok"] } })
      ∧ (s.slotUsable slot = false → s.snowed u 0x40430000 ∧ u.boot.fails = [0x40430000] ∧ tabGet 0 u.boot.results 4 = 3 ∧ { s with fw := { s.fw with slot := 2 } }.fwKept u)))
  ∧ (∀ (s : State) (x : BitVec 16), s.starting = true → s.boot.step = 6 → s.boot.rails < 8 →
    Completes (.powerUpStepComplete none x) s (fun u =>
      let r := s.boot.rails
      u.pins = (if r ∈ s.pins.setPending then { s.pins with setPending := s.pins.setPending.filter (fun x => decide (x ≠ r)), vrails := u.pins.vrails } else s.pins)
      ∧ (∀ i, tabGet 0 u.pins.vrails i = if i = r ∧ r ∈ s.pins.setPending then s.obj 0x2301 (r + 1) else tabGet 0 s.pins.vrails i)
      ∧ u = { s with boot := { s.boot with rails := r + 1 }, pins := u.pins }))
  ∧ (∀ (s : State),
    Completes .pwrOkMainRise s (fun u =>
      if s.starting = true ∧ s.boot.step = 6 ∧ s.boot.rails = 8 then
        u.boot = { s.boot with mainOk := true, step := 7, st := .selftest, results := u.boot.results } ∧ tabGet 0 u.boot.results 6 = 0
        ∧ u = { s with boot := u.boot, pins := { s.pins with uart := s.pins.uart ++ ["LAP96 STEP 06 ok"] } }
      else u = { s with boot := { s.boot with mainOk := true } }))
  ∧ (∀ (s : State) (n : Nat) (why : Nat) (i : Fin 16) (src : BitVec 8) (x : BitVec 16) (c : Instr),
    (c = .powerUpStepComplete (some src) x ∧ why = 3 ∨ c = .stepTimeout i src x ∧ why = 4
      ∨ c = .powerUpStepComplete none x ∧ n = 3 ∧ s.ident.gradeOk = false ∧ src = 0x03 ∧ why = 3 ∧ x = 0) → s.starting = true → s.boot.step = n → 2 ≤ n → n ≤ 6 → s.boot.fails = [] →
    Completes c s (fun u =>
      let r := failRecord n src.toNat why x.toNat
      s.snowed u r ∧ u.boot.fails = [r] ∧ (frStep r, frSrc r, frReason r, frUnit r) = (n, src.toNat, why, x.toNat) ∧ tabGet 0 u.boot.results n = 3
      ∧ u.boot.rails = (if n = 6 then 0 else s.boot.rails) ∧ u.boot.routerOk = false ∧ s.fwKept u ∧ u.mem.bytes = s.mem.bytes))
  ∧ (∀ (s : State) (i : Fin 16) (src : BitVec 8) (x : BitVec 16) (c : Instr), (c = .powerUpStepComplete (some src) x ∨ c = .stepTimeout i src x) → s.starting = true → s.boot.step = 1 →
    Completes c s (fun u => u = { s with boot := { s.boot with dead := true } }))
  ∧ (∀ (s : State) (i : Fin 16) (src : BitVec 8) (x : BitVec 16), s.boot.st = .selftest → s.boot.fails = [] → 7 ≤ i.val →
    Completes (.stepTimeout i src x) s (fun u =>
      if i.val = 13 then u.boot = { s.boot with fails := [0xD3240000], results := u.boot.results } ∧ tabGet 0 u.boot.results 13 = 2
        ∧ u = { s with boot := u.boot, pins := { s.pins with uart := s.pins.uart ++ ["LAP96 STEP 13 fail"] } }
      else s.snowed u (failRecord i.val src.toNat 4 x.toNat) ∧ tabGet 0 u.boot.results i.val = 3
        ∧ u.boot.routerOk = decide (i.val = 15) ∧ u.mem.portsClosed = (s.mem.portsClosed || decide (i.val = 15)) ∧ s.fwKept u))
  ∧ (∀ (s : State) (r : SelfTest), s.boot.st = .selftest → s.boot.fails.length + (foundAll r s.ident s.fuses).length < 32 → s.boot.fails = [] →
    Completes (.selftestComplete r) s (fun u =>
      let all := foundAll r s.ident s.fuses
      let newly := fun (a : Nat) => (s.ident.atSort (a / 8)).getLsbD (a % 8) && ((r.rows.map BitVec.toNat).contains a || (r.cols.map BitVec.toNat).contains a)
      let spare := fun (a : Nat) => (!(r.rows.map BitVec.toNat).contains a || decide (kvGet none s.fuses.rowRepair a = none))
        && (!(r.cols.map BitVec.toNat).contains a || decide (kvGet none s.fuses.colRepair a = none))
      let gone := fun (t : Nat) => all.any (fun x => (decide (frStep x = 8) || decide (frStep x = 9)) && decide (frReason x ≠ 0) && decide (frUnit x = t))
      let use := fun (t a : Nat) => !gone t && (s.ident.atSort t).getLsbD a
        && !all.any (fun x => decide (frStep x = 7) && decide (frReason x ≠ 0) && decide (frUnit x = 8 * t + a))
      let n := countIf (fun i => use (i / 8) (i % 8)) (List.range 1536)
      let bad := fun (x : U32) => decide (frReason x = 3) || decide (frReason x = 4) || (decide (frReason x ≠ 0)
        && (decide (frStep x = 10) || decide (frStep x = 11) || decide (frStep x = 12) || (decide (frStep x = 14) && decide (frSrc x = 0x30))))
      let fatal := all.any bad
      let floor := failRecord 15 0x13 3 n
      (∀ t, t < 192 → u.ident.fenced.getLsbD t = gone t)
      ∧ (∀ t, t < 192 → (List.range 8).all (fun a => decide ((u.ident.usableOf t).getLsbD a = use t a)) = true)
      ∧ (∀ a, a < 1536 → (newly a = true → failRecord 7 0x13 (if spare a then 0 else 1) a ∈ all) ∧
          (tabGet 0 u.ident.soft (a / 8)).getLsbD (a % 8) = (newly a && spare a
            && !all.any (fun x => decide (frStep x = 7) && decide (frReason x ≠ 0) && decide (frUnit x = a))))
      ∧ u.boot.degraded = (List.range 192).any (fun t => gone t || (List.range 8).any (fun a => (s.ident.atSort t).getLsbD a && !use t a))
      ∧ u.mem = { portsClosed := true, sysMem := u.mem.sysMem, sysMac := u.mem.sysMac, gone := u.mem.gone }
      ∧ u.boot.routerOk = !(all.any (fun x => decide (frStep x = 14) && decide (frSrc x = 0x30) && bad x))
      ∧ (∀ p, p < 32 → tabGet ({} : Port) u.fab.ports p =
          if all.any (fun x => decide (frStep x = 14) && decide (frSrc x = 0x31) && decide (frUnit x = p)) then { st := .disabled } else {})
      ∧ (∀ i, 7 ≤ i → i ≤ 14 → tabGet 0 u.boot.results i =
          let of := all.filter (fun x => decide (frStep x = i))
          if of.any bad then 3 else if of.any (fun x => decide (frReason x ≠ 0)) ∨ i = 13 ∧ r.hedom = 0 then 2 else if of ≠ [] then 1 else 0)
      ∧ u.boot.fails.Pairwise (fun x y => frStep x < frStep y ∨ frStep x = frStep y ∧ frUnit x ≤ frUnit y)
      ∧ (∀ x ∈ u.boot.fails ++ all, u.boot.fails.count x = (all ++ (if fatal = false ∧ n < 1344 then [floor] else [])).count x)
      ∧ (fatal = false → 1344 ≤ n →
          u.boot.st = .ready ∧ u.boot.step = 0 ∧ u.boot.record = s.boot.record ∧ u.boot.readyMs = r.ms.toNat ∧ u.boot.readyAt = some s.gov.uptime ∧ tabGet 0 u.boot.results 15 = 0
          ∧ u.pins.uart.getLast? = some "LAP96 READY" ∧ u.fw = { s.fw with report := u.fw.report } ∧ (r.hedom = 0 ↔ u.hedom = {}) ∧ u.dict = s.dict ∧ u.sb = s.sb ∧ u.fuses = s.fuses
          ∧ (∀ t, t < 192 → u.tile t = { s.tile t with eng := { (s.tile t).eng with keys := (u.tile t).eng.keys, folds := [] } }))
      ∧ (fatal = false → n < 1344 → u.boot.st = .snowplough ∧ u.boot.record = floor ∧ tabGet 0 u.boot.results 15 = 3 ∧ s.fwKept u)
      ∧ (fatal = true → u.boot.st = .snowplough ∧ u.boot.record ∈ all ∧ bad u.boot.record = true
          ∧ (∀ x ∈ all, bad x = true → frStep u.boot.record < frStep x ∨ frStep u.boot.record = frStep x ∧ frUnit u.boot.record ≤ frUnit x))))
  ∧ (∀ (s : State) (r : SelfTest) (i : Fin 16) (src : BitVec 8) (f : Option (BitVec 8)) (x : BitVec 16) (c : Instr),
    (c = .selftestComplete r ∧ s.boot.st ≠ .selftest ∨ c = .powerUpStepComplete f x ∧ (s.starting = false ∨ f = none ∧ s.boot.step = 6 ∧ 8 ≤ s.boot.rails)
      ∨ c = .stepTimeout i src x ∧ s.starting = false ∧ (s.boot.st ≠ .selftest ∨ i.val < 7)) → Completes c s (fun u => u = s))

/-- A failure that self-test finds in a Rink router, a station or a bridge (step 10) or in a Lining slice (step 11), and that is
no repair (REASON 0), puts the device in Snowplough, whatever else self-test finds; and it fences nothing: the tiles fenced are
those in which steps 8 or 9 failed a unit. -/
def Obligations.RinkAndLiningAreNeverFenced : Prop :=
  ∀ (s : State) (r : SelfTest) (x : U32), s.boot.st = .selftest → x ∈ r.fails → (frStep x = 10 ∨ frStep x = 11) → frReason x ≠ 0 →
    Completes (.selftestComplete r) s (fun u =>
      u.boot.st = .snowplough
      ∧ (∀ t, t < 192 → u.ident.fenced.getLsbD t = r.fails.any (fun y => (decide (frStep y = 8) || decide (frStep y = 9)) && decide (frReason y ≠ 0) && decide (frUnit y = t))))
end

