-- ==== Sys2Proof/Laws/Tab.lean ====
section
/-!
SUPPORT. Laws/Tab.lean: the laws of tables, of sparse maps in canonical form, and of memory as bytes.
-/
namespace Sys2Proof.Machine
open Sys2Proof

/-! ### Tables -/

@[simp] theorem tabGet_nil {α : Type} (d : α) (n : Nat) : tabGet d [] n = d := by cases n <;> rfl

theorem tabGet_tabSet {α : Type} (d : α) (l : List α) (i j : Nat) (v : α) :
    tabGet d (tabSet d l i v) j = if j = i then v else tabGet d l j := by
  induction i generalizing l j with
  | zero => cases l <;> cases j <;> simp [tabSet, tabGet]
  | succ i ih => cases l <;> cases j <;> simp [tabSet, tabGet, ih]

@[simp] theorem tabGet_tabSet_self {α : Type} (d : α) (l : List α) (i : Nat) (v : α) : tabGet d (tabSet d l i v) i = v := by
  simp [tabGet_tabSet]

theorem tabGet_tabSet_ne {α : Type} (d : α) (l : List α) {i j : Nat} (v : α) (h : j ≠ i) :
    tabGet d (tabSet d l i v) j = tabGet d l j := by
  simp [tabGet_tabSet, h]

/-! ### Sparse maps -/

@[simp] theorem kvGet_kvIns_self {α : Type} (d : α) (m : Kv α) (k : Nat) (v : α) : kvGet d (kvIns m k v) k = v := by
  induction m with
  | nil => simp [kvIns, kvGet]
  | cons p m ih =>
    obtain ⟨a, x⟩ := p
    simp only [kvIns]
    split
    · simp [kvGet]
    · split
      · simp [kvGet]
      · next h => simp [kvGet, h, ih]

theorem kvGet_kvIns_ne {α : Type} (d : α) (m : Kv α) {k j : Nat} (v : α) (h : j ≠ k) :
    kvGet d (kvIns m k v) j = kvGet d m j := by
  induction m with
  | nil => simp [kvIns, kvGet, Ne.symm h]
  | cons p m ih =>
    obtain ⟨a, x⟩ := p
    simp only [kvIns]
    split
    · simp [kvGet, Ne.symm h]
    · split
      · next e => subst e; simp [kvGet, Ne.symm h]
      · simp only [kvGet, ih]

theorem kvGet_kvDel_ne {α : Type} (d : α) (m : Kv α) {k j : Nat} (h : j ≠ k) : kvGet d (kvDel m k) j = kvGet d m j := by
  induction m with
  | nil => rfl
  | cons p m ih =>
    obtain ⟨a, x⟩ := p
    by_cases e : a = k
    · subst e; simp [kvDel, kvGet, ih, Ne.symm h]
    · simp only [kvDel, e, if_false, kvGet, ih]

theorem kvGet_below {α : Type} [DecidableEq α] (d : α) (m : Kv α) {lo k : Nat} (h : kvWfAbove d lo m = true) (hk : k < lo) :
    kvGet d m k = d := by
  induction m generalizing lo with
  | nil => rfl
  | cons p m ih =>
    obtain ⟨a, x⟩ := p
    simp only [kvWfAbove, Bool.and_eq_true, decide_eq_true_eq] at h
    have : a ≠ k := by omega
    simp only [kvGet, this, if_false]
    exact ih h.2 (by omega)

theorem kvGet_kvDel_self {α : Type} (d : α) (m : Kv α) (k : Nat) : kvGet d (kvDel m k) k = d := by
  induction m with
  | nil => rfl
  | cons p m ih =>
    obtain ⟨a, x⟩ := p
    by_cases e : a = k <;> simp [kvDel, kvGet, e, ih]

/-- A map after a write: the key written reads the value, every other key reads as before. -/
theorem kvGet_kvSet {α : Type} [DecidableEq α] (d : α) (m : Kv α) (k j : Nat) (v : α) :
    kvGet d (kvSet d m k v) j = if j = k then v else kvGet d m j := by
  unfold kvSet
  split
  · next e =>
    split
    · next e' => subst e'; rw [kvGet_kvDel_self d m j, e]
    · next e' => exact kvGet_kvDel_ne d m e'
  · split
    · next e' => subst e'; simp
    · next e' => exact kvGet_kvIns_ne d m v e'

theorem kvWfAbove_mono {α : Type} [DecidableEq α] (d : α) (m : Kv α) {lo lo' : Nat} (h : kvWfAbove d lo m = true) (hl : lo' ≤ lo) :
    kvWfAbove d lo' m = true := by
  cases m with
  | nil => rfl
  | cons p m =>
    obtain ⟨a, x⟩ := p
    simp only [kvWfAbove, Bool.and_eq_true, decide_eq_true_eq] at h ⊢
    exact ⟨⟨by omega, h.1.2⟩, h.2⟩

theorem kvDel_wf {α : Type} [DecidableEq α] (d : α) (m : Kv α) (k : Nat) {lo : Nat} (h : kvWfAbove d lo m = true) :
    kvWfAbove d lo (kvDel m k) = true := by
  induction m generalizing lo with
  | nil => rfl
  | cons p m ih =>
    obtain ⟨a, x⟩ := p
    simp only [kvWfAbove, Bool.and_eq_true, decide_eq_true_eq] at h
    simp only [kvDel]
    split
    · exact kvWfAbove_mono d _ (ih h.2) (by omega)
    · simp only [kvWfAbove, Bool.and_eq_true, decide_eq_true_eq]
      exact ⟨h.1, ih h.2⟩

theorem kvIns_wf {α : Type} [DecidableEq α] (d : α) (m : Kv α) (k : Nat) (v : α) {lo : Nat} (hv : v ≠ d) (hk : lo ≤ k)
    (h : kvWfAbove d lo m = true) : kvWfAbove d lo (kvIns m k v) = true := by
  induction m generalizing lo with
  | nil => simp [kvIns, kvWfAbove, hv, hk]
  | cons p m ih =>
    obtain ⟨a, x⟩ := p
    simp only [kvWfAbove, Bool.and_eq_true, decide_eq_true_eq] at h
    simp only [kvIns]
    split
    · next e =>
      simp only [kvWfAbove, Bool.and_eq_true, decide_eq_true_eq]
      exact ⟨⟨hk, hv⟩, ⟨by omega, h.1.2⟩, h.2⟩
    · split
      · next e e' =>
        simp only [kvWfAbove, Bool.and_eq_true, decide_eq_true_eq]
        subst e'
        exact ⟨⟨hk, hv⟩, h.2⟩
      · next e e' =>
        simp only [kvWfAbove, Bool.and_eq_true, decide_eq_true_eq]
        exact ⟨h.1, ih (by omega) h.2⟩

/-- A write keeps the canonical form. -/
theorem kvSet_wf {α : Type} [DecidableEq α] (d : α) (m : Kv α) (k : Nat) (v : α) (h : kvWf d m = true) :
    kvWf d (kvSet d m k v) = true := by
  unfold kvSet
  split
  · exact kvDel_wf d m k h
  · next e => exact kvIns_wf d m k v e (Nat.zero_le k) h

theorem kvFilter_wf {α : Type} [DecidableEq α] (d : α) (m : Kv α) (p : Nat × α → Bool) {lo : Nat} (h : kvWfAbove d lo m = true) :
    kvWfAbove d lo (m.filter p) = true := by
  induction m generalizing lo with
  | nil => rfl
  | cons q m ih =>
    obtain ⟨a, x⟩ := q
    simp only [kvWfAbove, Bool.and_eq_true, decide_eq_true_eq] at h
    simp only [List.filter]
    split
    · simp only [kvWfAbove, Bool.and_eq_true, decide_eq_true_eq]
      exact ⟨h.1, ih h.2⟩
    · exact kvWfAbove_mono d _ (ih h.2) (by omega)

/-- Clearing a range keeps the canonical form. -/
theorem kvClear_wf {α : Type} [DecidableEq α] (d : α) (m : Kv α) (lo hi : Nat) (h : kvWf d m = true) : kvWf d (kvClear m lo hi) = true :=
  kvFilter_wf d m _ h

/-! ### Memory -/

theorem memSet_wf (m : Mem) (a : Nat) (b : Byte) (h : Memory.wf m = true) : Memory.wf (memSet m a b) = true := kvSet_wf 0 m a b h

/-- One byte read after one byte written. -/
theorem memGet_memSet (m : Mem) (a c : Nat) (b : Byte) :
    memGet (memSet m a b) c = if c = a then b else memGet m c := kvGet_kvSet 0 m a c b

theorem memWrite_wf (m : Mem) (a : Nat) (b : Bytes) (h : Memory.wf m = true) : Memory.wf (memWrite m a b) = true := by
  induction b generalizing m a with
  | nil => exact h
  | cons x b ih => exact ih _ _ (memSet_wf m a x h)

/-- A byte read after a string written: a byte of the string, or what stood there before. -/
theorem memGet_memWrite (m : Mem) (a c : Nat) (b : Bytes) :
    memGet (memWrite m a b) c = if a ≤ c ∧ c < a + b.length then b.getD (c - a) 0 else memGet m c := by
  induction b generalizing m a with
  | nil =>
    simp only [memWrite, List.length_nil, Nat.add_zero]
    rw [if_neg (by omega)]
  | cons x b ih =>
    simp only [memWrite]
    rw [ih, memGet_memSet m a c x]
    rcases Nat.lt_trichotomy c a with hc | hc | hc
    · have h1 : ¬ (a + 1 ≤ c ∧ c < a + 1 + b.length) := by omega
      have h2 : ¬ (a ≤ c ∧ c < a + (x :: b).length) := by simp; omega
      have h3 : c ≠ a := by omega
      simp only [h1, h2, h3, if_false]
    · subst hc
      have h1 : ¬ (c + 1 ≤ c ∧ c < c + 1 + b.length) := by omega
      have h2 : c ≤ c ∧ c < c + (x :: b).length := by simp
      rw [if_neg h1, if_pos h2]; simp
    · have h3 : c ≠ a := by omega
      obtain ⟨k, rfl⟩ : ∃ k, c = a + 1 + k := ⟨c - (a + 1), by omega⟩
      have e1 : a + 1 + k - (a + 1) = k := by omega
      have e2 : a + 1 + k - a = k + 1 := by omega
      by_cases hk : k < b.length
      · have h1 : a + 1 ≤ a + 1 + k ∧ a + 1 + k < a + 1 + b.length := by omega
        have h2 : a ≤ a + 1 + k ∧ a + 1 + k < a + (x :: b).length := by simp; omega
        rw [if_pos h1, if_pos h2, e1, e2]; simp
      · have h1 : ¬ (a + 1 ≤ a + 1 + k ∧ a + 1 + k < a + 1 + b.length) := by omega
        have h2 : ¬ (a ≤ a + 1 + k ∧ a + 1 + k < a + (x :: b).length) := by simp; omega
        rw [if_neg h1, if_neg h2, if_neg h3]

theorem ringWrite_wf (w : Nat) (m : Mem) (a : Nat) (b : Bytes) (h : Memory.wf m = true) : Memory.wf (ringWrite w m a b) = true := by
  induction b generalizing m a with
  | nil => exact h
  | cons x b ih => exact ih _ _ (memSet_wf m (a % w) x h)

theorem memWriteMask_wf (m : Mem) (a : Nat) (k : List Bool) (b : Bytes) (h : Memory.wf m = true) : Memory.wf (memWriteMask m a k b) = true := by
  induction k generalizing m a b with
  | nil => cases b <;> exact h
  | cons e k ih =>
    cases b with
    | nil => exact h
    | cons x b =>
      simp only [memWriteMask]
      apply ih
      split
      · exact memSet_wf m a x h
      · exact h

end Sys2Proof.Machine
end

