-- ==== Sys2Proof/Laws/State.lean ====
section
/-!
SUPPORT. Laws/State.lean: for each update of the state, the fields that it leaves as they are, and what it gives of the field
that it changes.
-/
namespace Sys2Proof.Machine
open Sys2Proof

section
variable (s : State) (t : Nat) (x : Tile)
@[simp] theorem State.setTile_ident : (s.setTile t x).ident = s.ident := rfl
@[simp] theorem State.setTile_objs : (s.setTile t x).objs = s.objs := rfl
@[simp] theorem State.setTile_cloaks : (s.setTile t x).cloaks = s.cloaks := rfl
@[simp] theorem State.setTile_mem : (s.setTile t x).mem = s.mem := rfl
@[simp] theorem State.setTile_coh : (s.setTile t x).coh = s.coh := rfl
@[simp] theorem State.setTile_collars : (s.setTile t x).collars = s.collars := rfl
@[simp] theorem State.setTile_gov : (s.setTile t x).gov = s.gov := rfl
@[simp] theorem State.setTile_fab : (s.setTile t x).fab = s.fab := rfl
@[simp] theorem State.setTile_hedom : (s.setTile t x).hedom = s.hedom := rfl
@[simp] theorem State.setTile_fuses : (s.setTile t x).fuses = s.fuses := rfl
@[simp] theorem State.setTile_fw : (s.setTile t x).fw = s.fw := rfl
@[simp] theorem State.setTile_unlock : (s.setTile t x).unlock = s.unlock := rfl
@[simp] theorem State.setTile_dict : (s.setTile t x).dict = s.dict := rfl
@[simp] theorem State.setTile_sb : (s.setTile t x).sb = s.sb := rfl
@[simp] theorem State.setTile_logs : (s.setTile t x).logs = s.logs := rfl
@[simp] theorem State.setTile_boot : (s.setTile t x).boot = s.boot := rfl
@[simp] theorem State.setTile_pins : (s.setTile t x).pins = s.pins := rfl
@[simp] theorem State.setTile_freeCtr : (s.setTile t x).freeCtr = s.freeCtr := rfl
@[simp] theorem State.setTile_pending : (s.setTile t x).pending = s.pending := rfl
end

section
variable (s : State) (t : Nat) (f : Tile → Tile)
@[simp] theorem State.onTile_ident : (s.onTile t f).ident = s.ident := rfl
@[simp] theorem State.onTile_objs : (s.onTile t f).objs = s.objs := rfl
@[simp] theorem State.onTile_cloaks : (s.onTile t f).cloaks = s.cloaks := rfl
@[simp] theorem State.onTile_mem : (s.onTile t f).mem = s.mem := rfl
@[simp] theorem State.onTile_coh : (s.onTile t f).coh = s.coh := rfl
@[simp] theorem State.onTile_collars : (s.onTile t f).collars = s.collars := rfl
@[simp] theorem State.onTile_gov : (s.onTile t f).gov = s.gov := rfl
@[simp] theorem State.onTile_fab : (s.onTile t f).fab = s.fab := rfl
@[simp] theorem State.onTile_hedom : (s.onTile t f).hedom = s.hedom := rfl
@[simp] theorem State.onTile_fuses : (s.onTile t f).fuses = s.fuses := rfl
@[simp] theorem State.onTile_fw : (s.onTile t f).fw = s.fw := rfl
@[simp] theorem State.onTile_unlock : (s.onTile t f).unlock = s.unlock := rfl
@[simp] theorem State.onTile_dict : (s.onTile t f).dict = s.dict := rfl
@[simp] theorem State.onTile_sb : (s.onTile t f).sb = s.sb := rfl
@[simp] theorem State.onTile_logs : (s.onTile t f).logs = s.logs := rfl
@[simp] theorem State.onTile_boot : (s.onTile t f).boot = s.boot := rfl
@[simp] theorem State.onTile_pins : (s.onTile t f).pins = s.pins := rfl
@[simp] theorem State.onTile_freeCtr : (s.onTile t f).freeCtr = s.freeCtr := rfl
@[simp] theorem State.onTile_pending : (s.onTile t f).pending = s.pending := rfl
end

section
variable (s : State) (k : Nat) (x : Cloak)
@[simp] theorem State.setCloak_ident : (s.setCloak k x).ident = s.ident := rfl
@[simp] theorem State.setCloak_objs : (s.setCloak k x).objs = s.objs := rfl
@[simp] theorem State.setCloak_tiles : (s.setCloak k x).tiles = s.tiles := rfl
@[simp] theorem State.setCloak_mem : (s.setCloak k x).mem = s.mem := rfl
@[simp] theorem State.setCloak_coh : (s.setCloak k x).coh = s.coh := rfl
@[simp] theorem State.setCloak_collars : (s.setCloak k x).collars = s.collars := rfl
@[simp] theorem State.setCloak_gov : (s.setCloak k x).gov = s.gov := rfl
@[simp] theorem State.setCloak_fab : (s.setCloak k x).fab = s.fab := rfl
@[simp] theorem State.setCloak_hedom : (s.setCloak k x).hedom = s.hedom := rfl
@[simp] theorem State.setCloak_fuses : (s.setCloak k x).fuses = s.fuses := rfl
@[simp] theorem State.setCloak_fw : (s.setCloak k x).fw = s.fw := rfl
@[simp] theorem State.setCloak_unlock : (s.setCloak k x).unlock = s.unlock := rfl
@[simp] theorem State.setCloak_dict : (s.setCloak k x).dict = s.dict := rfl
@[simp] theorem State.setCloak_sb : (s.setCloak k x).sb = s.sb := rfl
@[simp] theorem State.setCloak_logs : (s.setCloak k x).logs = s.logs := rfl
@[simp] theorem State.setCloak_boot : (s.setCloak k x).boot = s.boot := rfl
@[simp] theorem State.setCloak_pins : (s.setCloak k x).pins = s.pins := rfl
@[simp] theorem State.setCloak_freeCtr : (s.setCloak k x).freeCtr = s.freeCtr := rfl
@[simp] theorem State.setCloak_pending : (s.setCloak k x).pending = s.pending := rfl
end

section
variable (s : State) (k : Nat) (f : Cloak → Cloak)
@[simp] theorem State.onCloak_ident : (s.onCloak k f).ident = s.ident := rfl
@[simp] theorem State.onCloak_objs : (s.onCloak k f).objs = s.objs := rfl
@[simp] theorem State.onCloak_tiles : (s.onCloak k f).tiles = s.tiles := rfl
@[simp] theorem State.onCloak_mem : (s.onCloak k f).mem = s.mem := rfl
@[simp] theorem State.onCloak_coh : (s.onCloak k f).coh = s.coh := rfl
@[simp] theorem State.onCloak_collars : (s.onCloak k f).collars = s.collars := rfl
@[simp] theorem State.onCloak_gov : (s.onCloak k f).gov = s.gov := rfl
@[simp] theorem State.onCloak_fab : (s.onCloak k f).fab = s.fab := rfl
@[simp] theorem State.onCloak_hedom : (s.onCloak k f).hedom = s.hedom := rfl
@[simp] theorem State.onCloak_fuses : (s.onCloak k f).fuses = s.fuses := rfl
@[simp] theorem State.onCloak_fw : (s.onCloak k f).fw = s.fw := rfl
@[simp] theorem State.onCloak_unlock : (s.onCloak k f).unlock = s.unlock := rfl
@[simp] theorem State.onCloak_dict : (s.onCloak k f).dict = s.dict := rfl
@[simp] theorem State.onCloak_sb : (s.onCloak k f).sb = s.sb := rfl
@[simp] theorem State.onCloak_logs : (s.onCloak k f).logs = s.logs := rfl
@[simp] theorem State.onCloak_boot : (s.onCloak k f).boot = s.boot := rfl
@[simp] theorem State.onCloak_pins : (s.onCloak k f).pins = s.pins := rfl
@[simp] theorem State.onCloak_freeCtr : (s.onCloak k f).freeCtr = s.freeCtr := rfl
@[simp] theorem State.onCloak_pending : (s.onCloak k f).pending = s.pending := rfl
end

section
variable (s : State)
@[simp] theorem State.tick1_ident : (s.tick1).ident = s.ident := rfl
@[simp] theorem State.tick1_objs : (s.tick1).objs = s.objs := rfl
@[simp] theorem State.tick1_tiles : (s.tick1).tiles = s.tiles := rfl
@[simp] theorem State.tick1_cloaks : (s.tick1).cloaks = s.cloaks := rfl
@[simp] theorem State.tick1_mem : (s.tick1).mem = s.mem := rfl
@[simp] theorem State.tick1_coh : (s.tick1).coh = s.coh := rfl
@[simp] theorem State.tick1_collars : (s.tick1).collars = s.collars := rfl
@[simp] theorem State.tick1_gov : (s.tick1).gov = s.gov := rfl
@[simp] theorem State.tick1_fab : (s.tick1).fab = s.fab := rfl
@[simp] theorem State.tick1_hedom : (s.tick1).hedom = s.hedom := rfl
@[simp] theorem State.tick1_fuses : (s.tick1).fuses = s.fuses := rfl
@[simp] theorem State.tick1_fw : (s.tick1).fw = s.fw := rfl
@[simp] theorem State.tick1_unlock : (s.tick1).unlock = s.unlock := rfl
@[simp] theorem State.tick1_dict : (s.tick1).dict = s.dict := rfl
@[simp] theorem State.tick1_sb : (s.tick1).sb = s.sb := rfl
@[simp] theorem State.tick1_logs : (s.tick1).logs = s.logs := rfl
@[simp] theorem State.tick1_boot : (s.tick1).boot = s.boot := rfl
@[simp] theorem State.tick1_pins : (s.tick1).pins = s.pins := rfl
@[simp] theorem State.tick1_pending : (s.tick1).pending = s.pending := rfl
end

section
variable (s : State) (idx sub v : Nat)
@[simp] theorem State.setObj_ident : (s.setObj idx sub v).ident = s.ident := rfl
@[simp] theorem State.setObj_tiles : (s.setObj idx sub v).tiles = s.tiles := rfl
@[simp] theorem State.setObj_cloaks : (s.setObj idx sub v).cloaks = s.cloaks := rfl
@[simp] theorem State.setObj_mem : (s.setObj idx sub v).mem = s.mem := rfl
@[simp] theorem State.setObj_coh : (s.setObj idx sub v).coh = s.coh := rfl
@[simp] theorem State.setObj_collars : (s.setObj idx sub v).collars = s.collars := rfl
@[simp] theorem State.setObj_gov : (s.setObj idx sub v).gov = s.gov := rfl
@[simp] theorem State.setObj_fab : (s.setObj idx sub v).fab = s.fab := rfl
@[simp] theorem State.setObj_hedom : (s.setObj idx sub v).hedom = s.hedom := rfl
@[simp] theorem State.setObj_fuses : (s.setObj idx sub v).fuses = s.fuses := rfl
@[simp] theorem State.setObj_fw : (s.setObj idx sub v).fw = s.fw := rfl
@[simp] theorem State.setObj_unlock : (s.setObj idx sub v).unlock = s.unlock := rfl
@[simp] theorem State.setObj_dict : (s.setObj idx sub v).dict = s.dict := rfl
@[simp] theorem State.setObj_sb : (s.setObj idx sub v).sb = s.sb := rfl
@[simp] theorem State.setObj_logs : (s.setObj idx sub v).logs = s.logs := rfl
@[simp] theorem State.setObj_boot : (s.setObj idx sub v).boot = s.boot := rfl
@[simp] theorem State.setObj_pins : (s.setObj idx sub v).pins = s.pins := rfl
@[simp] theorem State.setObj_freeCtr : (s.setObj idx sub v).freeCtr = s.freeCtr := rfl
@[simp] theorem State.setObj_pending : (s.setObj idx sub v).pending = s.pending := rfl
end

section
variable (s : State) (idx sub n : Nat)
@[simp] theorem State.bump_ident : (s.bump idx sub n).ident = s.ident := rfl
@[simp] theorem State.bump_tiles : (s.bump idx sub n).tiles = s.tiles := rfl
@[simp] theorem State.bump_cloaks : (s.bump idx sub n).cloaks = s.cloaks := rfl
@[simp] theorem State.bump_mem : (s.bump idx sub n).mem = s.mem := rfl
@[simp] theorem State.bump_coh : (s.bump idx sub n).coh = s.coh := rfl
@[simp] theorem State.bump_collars : (s.bump idx sub n).collars = s.collars := rfl
@[simp] theorem State.bump_gov : (s.bump idx sub n).gov = s.gov := rfl
@[simp] theorem State.bump_fab : (s.bump idx sub n).fab = s.fab := rfl
@[simp] theorem State.bump_hedom : (s.bump idx sub n).hedom = s.hedom := rfl
@[simp] theorem State.bump_fuses : (s.bump idx sub n).fuses = s.fuses := rfl
@[simp] theorem State.bump_fw : (s.bump idx sub n).fw = s.fw := rfl
@[simp] theorem State.bump_unlock : (s.bump idx sub n).unlock = s.unlock := rfl
@[simp] theorem State.bump_dict : (s.bump idx sub n).dict = s.dict := rfl
@[simp] theorem State.bump_sb : (s.bump idx sub n).sb = s.sb := rfl
@[simp] theorem State.bump_logs : (s.bump idx sub n).logs = s.logs := rfl
@[simp] theorem State.bump_boot : (s.bump idx sub n).boot = s.boot := rfl
@[simp] theorem State.bump_pins : (s.bump idx sub n).pins = s.pins := rfl
@[simp] theorem State.bump_freeCtr : (s.bump idx sub n).freeCtr = s.freeCtr := rfl
@[simp] theorem State.bump_pending : (s.bump idx sub n).pending = s.pending := rfl
end

section
variable (s : State) (g : Nat) (e : BitVec 16)
@[simp] theorem State.setGranule_ident : (s.setGranule g e).ident = s.ident := rfl
@[simp] theorem State.setGranule_objs : (s.setGranule g e).objs = s.objs := rfl
@[simp] theorem State.setGranule_tiles : (s.setGranule g e).tiles = s.tiles := rfl
@[simp] theorem State.setGranule_mem : (s.setGranule g e).mem = s.mem := rfl
@[simp] theorem State.setGranule_coh : (s.setGranule g e).coh = s.coh := rfl
@[simp] theorem State.setGranule_collars : (s.setGranule g e).collars = s.collars := rfl
@[simp] theorem State.setGranule_gov : (s.setGranule g e).gov = s.gov := rfl
@[simp] theorem State.setGranule_fab : (s.setGranule g e).fab = s.fab := rfl
@[simp] theorem State.setGranule_hedom : (s.setGranule g e).hedom = s.hedom := rfl
@[simp] theorem State.setGranule_fuses : (s.setGranule g e).fuses = s.fuses := rfl
@[simp] theorem State.setGranule_fw : (s.setGranule g e).fw = s.fw := rfl
@[simp] theorem State.setGranule_unlock : (s.setGranule g e).unlock = s.unlock := rfl
@[simp] theorem State.setGranule_dict : (s.setGranule g e).dict = s.dict := rfl
@[simp] theorem State.setGranule_sb : (s.setGranule g e).sb = s.sb := rfl
@[simp] theorem State.setGranule_logs : (s.setGranule g e).logs = s.logs := rfl
@[simp] theorem State.setGranule_boot : (s.setGranule g e).boot = s.boot := rfl
@[simp] theorem State.setGranule_pins : (s.setGranule g e).pins = s.pins := rfl
@[simp] theorem State.setGranule_freeCtr : (s.setGranule g e).freeCtr = s.freeCtr := rfl
@[simp] theorem State.setGranule_pending : (s.setGranule g e).pending = s.pending := rfl
end

section
variable (s : State) (c : Nat)
@[simp] theorem State.countErr_ident : (s.countErr c).ident = s.ident := rfl
@[simp] theorem State.countErr_objs : (s.countErr c).objs = s.objs := rfl
@[simp] theorem State.countErr_tiles : (s.countErr c).tiles = s.tiles := rfl
@[simp] theorem State.countErr_cloaks : (s.countErr c).cloaks = s.cloaks := rfl
@[simp] theorem State.countErr_mem : (s.countErr c).mem = s.mem := rfl
@[simp] theorem State.countErr_coh : (s.countErr c).coh = s.coh := rfl
@[simp] theorem State.countErr_collars : (s.countErr c).collars = s.collars := rfl
@[simp] theorem State.countErr_gov : (s.countErr c).gov = s.gov := rfl
@[simp] theorem State.countErr_fab : (s.countErr c).fab = s.fab := rfl
@[simp] theorem State.countErr_hedom : (s.countErr c).hedom = s.hedom := rfl
@[simp] theorem State.countErr_fuses : (s.countErr c).fuses = s.fuses := rfl
@[simp] theorem State.countErr_fw : (s.countErr c).fw = s.fw := rfl
@[simp] theorem State.countErr_unlock : (s.countErr c).unlock = s.unlock := rfl
@[simp] theorem State.countErr_dict : (s.countErr c).dict = s.dict := rfl
@[simp] theorem State.countErr_sb : (s.countErr c).sb = s.sb := rfl
@[simp] theorem State.countErr_boot : (s.countErr c).boot = s.boot := rfl
@[simp] theorem State.countErr_pins : (s.countErr c).pins = s.pins := rfl
@[simp] theorem State.countErr_freeCtr : (s.countErr c).freeCtr = s.freeCtr := rfl
@[simp] theorem State.countErr_pending : (s.countErr c).pending = s.pending := rfl
end

section
variable (s : State) (b : Nat)
@[simp] theorem State.alert_ident : (s.alert b).ident = s.ident := rfl
@[simp] theorem State.alert_objs : (s.alert b).objs = s.objs := rfl
@[simp] theorem State.alert_tiles : (s.alert b).tiles = s.tiles := rfl
@[simp] theorem State.alert_cloaks : (s.alert b).cloaks = s.cloaks := rfl
@[simp] theorem State.alert_mem : (s.alert b).mem = s.mem := rfl
@[simp] theorem State.alert_coh : (s.alert b).coh = s.coh := rfl
@[simp] theorem State.alert_collars : (s.alert b).collars = s.collars := rfl
@[simp] theorem State.alert_gov : (s.alert b).gov = s.gov := rfl
@[simp] theorem State.alert_fab : (s.alert b).fab = s.fab := rfl
@[simp] theorem State.alert_hedom : (s.alert b).hedom = s.hedom := rfl
@[simp] theorem State.alert_fuses : (s.alert b).fuses = s.fuses := rfl
@[simp] theorem State.alert_fw : (s.alert b).fw = s.fw := rfl
@[simp] theorem State.alert_unlock : (s.alert b).unlock = s.unlock := rfl
@[simp] theorem State.alert_dict : (s.alert b).dict = s.dict := rfl
@[simp] theorem State.alert_sb : (s.alert b).sb = s.sb := rfl
@[simp] theorem State.alert_logs : (s.alert b).logs = s.logs := rfl
@[simp] theorem State.alert_pins : (s.alert b).pins = s.pins := rfl
@[simp] theorem State.alert_freeCtr : (s.alert b).freeCtr = s.freeCtr := rfl
@[simp] theorem State.alert_pending : (s.alert b).pending = s.pending := rfl
end

section
variable (s : State) (t r : Nat) (v : U64)
@[simp] theorem State.setF_ident : (s.setF t r v).ident = s.ident := rfl
@[simp] theorem State.setF_objs : (s.setF t r v).objs = s.objs := rfl
@[simp] theorem State.setF_cloaks : (s.setF t r v).cloaks = s.cloaks := rfl
@[simp] theorem State.setF_mem : (s.setF t r v).mem = s.mem := rfl
@[simp] theorem State.setF_coh : (s.setF t r v).coh = s.coh := rfl
@[simp] theorem State.setF_collars : (s.setF t r v).collars = s.collars := rfl
@[simp] theorem State.setF_gov : (s.setF t r v).gov = s.gov := rfl
@[simp] theorem State.setF_fab : (s.setF t r v).fab = s.fab := rfl
@[simp] theorem State.setF_hedom : (s.setF t r v).hedom = s.hedom := rfl
@[simp] theorem State.setF_fuses : (s.setF t r v).fuses = s.fuses := rfl
@[simp] theorem State.setF_fw : (s.setF t r v).fw = s.fw := rfl
@[simp] theorem State.setF_unlock : (s.setF t r v).unlock = s.unlock := rfl
@[simp] theorem State.setF_dict : (s.setF t r v).dict = s.dict := rfl
@[simp] theorem State.setF_sb : (s.setF t r v).sb = s.sb := rfl
@[simp] theorem State.setF_logs : (s.setF t r v).logs = s.logs := rfl
@[simp] theorem State.setF_boot : (s.setF t r v).boot = s.boot := rfl
@[simp] theorem State.setF_pins : (s.setF t r v).pins = s.pins := rfl
@[simp] theorem State.setF_freeCtr : (s.setF t r v).freeCtr = s.freeCtr := rfl
@[simp] theorem State.setF_pending : (s.setF t r v).pending = s.pending := rfl
end

section
variable (s : State) (t : Nat) (e : CoreEvent)
@[simp] theorem State.coreEvent_ident : (s.coreEvent t e).ident = s.ident := rfl
@[simp] theorem State.coreEvent_objs : (s.coreEvent t e).objs = s.objs := rfl
@[simp] theorem State.coreEvent_cloaks : (s.coreEvent t e).cloaks = s.cloaks := rfl
@[simp] theorem State.coreEvent_mem : (s.coreEvent t e).mem = s.mem := rfl
@[simp] theorem State.coreEvent_coh : (s.coreEvent t e).coh = s.coh := rfl
@[simp] theorem State.coreEvent_collars : (s.coreEvent t e).collars = s.collars := rfl
@[simp] theorem State.coreEvent_gov : (s.coreEvent t e).gov = s.gov := rfl
@[simp] theorem State.coreEvent_fab : (s.coreEvent t e).fab = s.fab := rfl
@[simp] theorem State.coreEvent_hedom : (s.coreEvent t e).hedom = s.hedom := rfl
@[simp] theorem State.coreEvent_fuses : (s.coreEvent t e).fuses = s.fuses := rfl
@[simp] theorem State.coreEvent_fw : (s.coreEvent t e).fw = s.fw := rfl
@[simp] theorem State.coreEvent_unlock : (s.coreEvent t e).unlock = s.unlock := rfl
@[simp] theorem State.coreEvent_dict : (s.coreEvent t e).dict = s.dict := rfl
@[simp] theorem State.coreEvent_sb : (s.coreEvent t e).sb = s.sb := rfl
@[simp] theorem State.coreEvent_logs : (s.coreEvent t e).logs = s.logs := rfl
@[simp] theorem State.coreEvent_boot : (s.coreEvent t e).boot = s.boot := rfl
@[simp] theorem State.coreEvent_pins : (s.coreEvent t e).pins = s.pins := rfl
@[simp] theorem State.coreEvent_freeCtr : (s.coreEvent t e).freeCtr = s.freeCtr := rfl
@[simp] theorem State.coreEvent_pending : (s.coreEvent t e).pending = s.pending := rfl
end

section
variable (s : State) (t : Nat) (e : CoreEvent)
@[simp] theorem State.trap_ident : (s.trap t e).ident = s.ident := rfl
@[simp] theorem State.trap_objs : (s.trap t e).objs = s.objs := rfl
@[simp] theorem State.trap_cloaks : (s.trap t e).cloaks = s.cloaks := rfl
@[simp] theorem State.trap_mem : (s.trap t e).mem = s.mem := rfl
@[simp] theorem State.trap_coh : (s.trap t e).coh = s.coh := rfl
@[simp] theorem State.trap_collars : (s.trap t e).collars = s.collars := rfl
@[simp] theorem State.trap_gov : (s.trap t e).gov = s.gov := rfl
@[simp] theorem State.trap_fab : (s.trap t e).fab = s.fab := rfl
@[simp] theorem State.trap_hedom : (s.trap t e).hedom = s.hedom := rfl
@[simp] theorem State.trap_fuses : (s.trap t e).fuses = s.fuses := rfl
@[simp] theorem State.trap_fw : (s.trap t e).fw = s.fw := rfl
@[simp] theorem State.trap_unlock : (s.trap t e).unlock = s.unlock := rfl
@[simp] theorem State.trap_dict : (s.trap t e).dict = s.dict := rfl
@[simp] theorem State.trap_sb : (s.trap t e).sb = s.sb := rfl
@[simp] theorem State.trap_logs : (s.trap t e).logs = s.logs := rfl
@[simp] theorem State.trap_boot : (s.trap t e).boot = s.boot := rfl
@[simp] theorem State.trap_pins : (s.trap t e).pins = s.pins := rfl
@[simp] theorem State.trap_freeCtr : (s.trap t e).freeCtr = s.freeCtr := rfl
@[simp] theorem State.trap_pending : (s.trap t e).pending = s.pending := rfl
end

section
variable (s : State) (m : Msg)
@[simp] theorem State.send_ident : (s.send m).ident = s.ident := rfl
@[simp] theorem State.send_objs : (s.send m).objs = s.objs := rfl
@[simp] theorem State.send_tiles : (s.send m).tiles = s.tiles := rfl
@[simp] theorem State.send_cloaks : (s.send m).cloaks = s.cloaks := rfl
@[simp] theorem State.send_mem : (s.send m).mem = s.mem := rfl
@[simp] theorem State.send_collars : (s.send m).collars = s.collars := rfl
@[simp] theorem State.send_gov : (s.send m).gov = s.gov := rfl
@[simp] theorem State.send_fab : (s.send m).fab = s.fab := rfl
@[simp] theorem State.send_hedom : (s.send m).hedom = s.hedom := rfl
@[simp] theorem State.send_fuses : (s.send m).fuses = s.fuses := rfl
@[simp] theorem State.send_fw : (s.send m).fw = s.fw := rfl
@[simp] theorem State.send_unlock : (s.send m).unlock = s.unlock := rfl
@[simp] theorem State.send_dict : (s.send m).dict = s.dict := rfl
@[simp] theorem State.send_sb : (s.send m).sb = s.sb := rfl
@[simp] theorem State.send_logs : (s.send m).logs = s.logs := rfl
@[simp] theorem State.send_boot : (s.send m).boot = s.boot := rfl
@[simp] theorem State.send_pins : (s.send m).pins = s.pins := rfl
@[simp] theorem State.send_freeCtr : (s.send m).freeCtr = s.freeCtr := rfl
@[simp] theorem State.send_pending : (s.send m).pending = s.pending := rfl
end

section
variable (s : State) (l : List Msg)
@[simp] theorem State.setNet_ident : (s.setNet l).ident = s.ident := rfl
@[simp] theorem State.setNet_objs : (s.setNet l).objs = s.objs := rfl
@[simp] theorem State.setNet_tiles : (s.setNet l).tiles = s.tiles := rfl
@[simp] theorem State.setNet_cloaks : (s.setNet l).cloaks = s.cloaks := rfl
@[simp] theorem State.setNet_mem : (s.setNet l).mem = s.mem := rfl
@[simp] theorem State.setNet_collars : (s.setNet l).collars = s.collars := rfl
@[simp] theorem State.setNet_gov : (s.setNet l).gov = s.gov := rfl
@[simp] theorem State.setNet_fab : (s.setNet l).fab = s.fab := rfl
@[simp] theorem State.setNet_hedom : (s.setNet l).hedom = s.hedom := rfl
@[simp] theorem State.setNet_fuses : (s.setNet l).fuses = s.fuses := rfl
@[simp] theorem State.setNet_fw : (s.setNet l).fw = s.fw := rfl
@[simp] theorem State.setNet_unlock : (s.setNet l).unlock = s.unlock := rfl
@[simp] theorem State.setNet_dict : (s.setNet l).dict = s.dict := rfl
@[simp] theorem State.setNet_sb : (s.setNet l).sb = s.sb := rfl
@[simp] theorem State.setNet_logs : (s.setNet l).logs = s.logs := rfl
@[simp] theorem State.setNet_boot : (s.setNet l).boot = s.boot := rfl
@[simp] theorem State.setNet_pins : (s.setNet l).pins = s.pins := rfl
@[simp] theorem State.setNet_freeCtr : (s.setNet l).freeCtr = s.freeCtr := rfl
@[simp] theorem State.setNet_pending : (s.setNet l).pending = s.pending := rfl
end

section
variable (s : State) (line : Nat) (x : Option Txn)
@[simp] theorem State.setHand_ident : (s.setHand line x).ident = s.ident := rfl
@[simp] theorem State.setHand_objs : (s.setHand line x).objs = s.objs := rfl
@[simp] theorem State.setHand_tiles : (s.setHand line x).tiles = s.tiles := rfl
@[simp] theorem State.setHand_cloaks : (s.setHand line x).cloaks = s.cloaks := rfl
@[simp] theorem State.setHand_mem : (s.setHand line x).mem = s.mem := rfl
@[simp] theorem State.setHand_collars : (s.setHand line x).collars = s.collars := rfl
@[simp] theorem State.setHand_gov : (s.setHand line x).gov = s.gov := rfl
@[simp] theorem State.setHand_fab : (s.setHand line x).fab = s.fab := rfl
@[simp] theorem State.setHand_hedom : (s.setHand line x).hedom = s.hedom := rfl
@[simp] theorem State.setHand_fuses : (s.setHand line x).fuses = s.fuses := rfl
@[simp] theorem State.setHand_fw : (s.setHand line x).fw = s.fw := rfl
@[simp] theorem State.setHand_unlock : (s.setHand line x).unlock = s.unlock := rfl
@[simp] theorem State.setHand_dict : (s.setHand line x).dict = s.dict := rfl
@[simp] theorem State.setHand_sb : (s.setHand line x).sb = s.sb := rfl
@[simp] theorem State.setHand_logs : (s.setHand line x).logs = s.logs := rfl
@[simp] theorem State.setHand_boot : (s.setHand line x).boot = s.boot := rfl
@[simp] theorem State.setHand_pins : (s.setHand line x).pins = s.pins := rfl
@[simp] theorem State.setHand_freeCtr : (s.setHand line x).freeCtr = s.freeCtr := rfl
@[simp] theorem State.setHand_pending : (s.setHand line x).pending = s.pending := rfl
end

section
variable (s : State) (line : Nat) (f : Filter)
@[simp] theorem State.setFilter_ident : (s.setFilter line f).ident = s.ident := rfl
@[simp] theorem State.setFilter_objs : (s.setFilter line f).objs = s.objs := rfl
@[simp] theorem State.setFilter_tiles : (s.setFilter line f).tiles = s.tiles := rfl
@[simp] theorem State.setFilter_cloaks : (s.setFilter line f).cloaks = s.cloaks := rfl
@[simp] theorem State.setFilter_mem : (s.setFilter line f).mem = s.mem := rfl
@[simp] theorem State.setFilter_collars : (s.setFilter line f).collars = s.collars := rfl
@[simp] theorem State.setFilter_gov : (s.setFilter line f).gov = s.gov := rfl
@[simp] theorem State.setFilter_fab : (s.setFilter line f).fab = s.fab := rfl
@[simp] theorem State.setFilter_hedom : (s.setFilter line f).hedom = s.hedom := rfl
@[simp] theorem State.setFilter_fuses : (s.setFilter line f).fuses = s.fuses := rfl
@[simp] theorem State.setFilter_fw : (s.setFilter line f).fw = s.fw := rfl
@[simp] theorem State.setFilter_unlock : (s.setFilter line f).unlock = s.unlock := rfl
@[simp] theorem State.setFilter_dict : (s.setFilter line f).dict = s.dict := rfl
@[simp] theorem State.setFilter_sb : (s.setFilter line f).sb = s.sb := rfl
@[simp] theorem State.setFilter_logs : (s.setFilter line f).logs = s.logs := rfl
@[simp] theorem State.setFilter_boot : (s.setFilter line f).boot = s.boot := rfl
@[simp] theorem State.setFilter_pins : (s.setFilter line f).pins = s.pins := rfl
@[simp] theorem State.setFilter_freeCtr : (s.setFilter line f).freeCtr = s.freeCtr := rfl
@[simp] theorem State.setFilter_pending : (s.setFilter line f).pending = s.pending := rfl
end

section
variable (s : State) (line : Nat) (e : Option LineErr)
@[simp] theorem State.setBad_ident : (s.setBad line e).ident = s.ident := rfl
@[simp] theorem State.setBad_objs : (s.setBad line e).objs = s.objs := rfl
@[simp] theorem State.setBad_tiles : (s.setBad line e).tiles = s.tiles := rfl
@[simp] theorem State.setBad_cloaks : (s.setBad line e).cloaks = s.cloaks := rfl
@[simp] theorem State.setBad_coh : (s.setBad line e).coh = s.coh := rfl
@[simp] theorem State.setBad_collars : (s.setBad line e).collars = s.collars := rfl
@[simp] theorem State.setBad_gov : (s.setBad line e).gov = s.gov := rfl
@[simp] theorem State.setBad_fab : (s.setBad line e).fab = s.fab := rfl
@[simp] theorem State.setBad_hedom : (s.setBad line e).hedom = s.hedom := rfl
@[simp] theorem State.setBad_fuses : (s.setBad line e).fuses = s.fuses := rfl
@[simp] theorem State.setBad_fw : (s.setBad line e).fw = s.fw := rfl
@[simp] theorem State.setBad_unlock : (s.setBad line e).unlock = s.unlock := rfl
@[simp] theorem State.setBad_dict : (s.setBad line e).dict = s.dict := rfl
@[simp] theorem State.setBad_sb : (s.setBad line e).sb = s.sb := rfl
@[simp] theorem State.setBad_logs : (s.setBad line e).logs = s.logs := rfl
@[simp] theorem State.setBad_boot : (s.setBad line e).boot = s.boot := rfl
@[simp] theorem State.setBad_pins : (s.setBad line e).pins = s.pins := rfl
@[simp] theorem State.setBad_freeCtr : (s.setBad line e).freeCtr = s.freeCtr := rfl
@[simp] theorem State.setBad_pending : (s.setBad line e).pending = s.pending := rfl
end

section
variable (s : State) (a : Nat) (b : Bytes)
@[simp] theorem State.setBytes_ident : (s.setBytes a b).ident = s.ident := rfl
@[simp] theorem State.setBytes_objs : (s.setBytes a b).objs = s.objs := rfl
@[simp] theorem State.setBytes_tiles : (s.setBytes a b).tiles = s.tiles := rfl
@[simp] theorem State.setBytes_cloaks : (s.setBytes a b).cloaks = s.cloaks := rfl
@[simp] theorem State.setBytes_coh : (s.setBytes a b).coh = s.coh := rfl
@[simp] theorem State.setBytes_collars : (s.setBytes a b).collars = s.collars := rfl
@[simp] theorem State.setBytes_gov : (s.setBytes a b).gov = s.gov := rfl
@[simp] theorem State.setBytes_fab : (s.setBytes a b).fab = s.fab := rfl
@[simp] theorem State.setBytes_hedom : (s.setBytes a b).hedom = s.hedom := rfl
@[simp] theorem State.setBytes_fuses : (s.setBytes a b).fuses = s.fuses := rfl
@[simp] theorem State.setBytes_fw : (s.setBytes a b).fw = s.fw := rfl
@[simp] theorem State.setBytes_unlock : (s.setBytes a b).unlock = s.unlock := rfl
@[simp] theorem State.setBytes_dict : (s.setBytes a b).dict = s.dict := rfl
@[simp] theorem State.setBytes_sb : (s.setBytes a b).sb = s.sb := rfl
@[simp] theorem State.setBytes_logs : (s.setBytes a b).logs = s.logs := rfl
@[simp] theorem State.setBytes_boot : (s.setBytes a b).boot = s.boot := rfl
@[simp] theorem State.setBytes_pins : (s.setBytes a b).pins = s.pins := rfl
@[simp] theorem State.setBytes_freeCtr : (s.setBytes a b).freeCtr = s.freeCtr := rfl
@[simp] theorem State.setBytes_pending : (s.setBytes a b).pending = s.pending := rfl
end

section
variable (s : State) (t line : Nat) (l : L2Line)
@[simp] theorem State.setL2_ident : (s.setL2 t line l).ident = s.ident := rfl
@[simp] theorem State.setL2_objs : (s.setL2 t line l).objs = s.objs := rfl
@[simp] theorem State.setL2_cloaks : (s.setL2 t line l).cloaks = s.cloaks := rfl
@[simp] theorem State.setL2_mem : (s.setL2 t line l).mem = s.mem := rfl
@[simp] theorem State.setL2_coh : (s.setL2 t line l).coh = s.coh := rfl
@[simp] theorem State.setL2_collars : (s.setL2 t line l).collars = s.collars := rfl
@[simp] theorem State.setL2_gov : (s.setL2 t line l).gov = s.gov := rfl
@[simp] theorem State.setL2_fab : (s.setL2 t line l).fab = s.fab := rfl
@[simp] theorem State.setL2_hedom : (s.setL2 t line l).hedom = s.hedom := rfl
@[simp] theorem State.setL2_fuses : (s.setL2 t line l).fuses = s.fuses := rfl
@[simp] theorem State.setL2_fw : (s.setL2 t line l).fw = s.fw := rfl
@[simp] theorem State.setL2_unlock : (s.setL2 t line l).unlock = s.unlock := rfl
@[simp] theorem State.setL2_dict : (s.setL2 t line l).dict = s.dict := rfl
@[simp] theorem State.setL2_sb : (s.setL2 t line l).sb = s.sb := rfl
@[simp] theorem State.setL2_logs : (s.setL2 t line l).logs = s.logs := rfl
@[simp] theorem State.setL2_boot : (s.setL2 t line l).boot = s.boot := rfl
@[simp] theorem State.setL2_pins : (s.setL2 t line l).pins = s.pins := rfl
@[simp] theorem State.setL2_freeCtr : (s.setL2 t line l).freeCtr = s.freeCtr := rfl
@[simp] theorem State.setL2_pending : (s.setL2 t line l).pending = s.pending := rfl
end

section
variable (s : State) (p : Nat) (x : Port)
@[simp] theorem State.setPort_ident : (s.setPort p x).ident = s.ident := rfl
@[simp] theorem State.setPort_objs : (s.setPort p x).objs = s.objs := rfl
@[simp] theorem State.setPort_tiles : (s.setPort p x).tiles = s.tiles := rfl
@[simp] theorem State.setPort_cloaks : (s.setPort p x).cloaks = s.cloaks := rfl
@[simp] theorem State.setPort_mem : (s.setPort p x).mem = s.mem := rfl
@[simp] theorem State.setPort_coh : (s.setPort p x).coh = s.coh := rfl
@[simp] theorem State.setPort_collars : (s.setPort p x).collars = s.collars := rfl
@[simp] theorem State.setPort_gov : (s.setPort p x).gov = s.gov := rfl
@[simp] theorem State.setPort_hedom : (s.setPort p x).hedom = s.hedom := rfl
@[simp] theorem State.setPort_fuses : (s.setPort p x).fuses = s.fuses := rfl
@[simp] theorem State.setPort_fw : (s.setPort p x).fw = s.fw := rfl
@[simp] theorem State.setPort_unlock : (s.setPort p x).unlock = s.unlock := rfl
@[simp] theorem State.setPort_dict : (s.setPort p x).dict = s.dict := rfl
@[simp] theorem State.setPort_sb : (s.setPort p x).sb = s.sb := rfl
@[simp] theorem State.setPort_logs : (s.setPort p x).logs = s.logs := rfl
@[simp] theorem State.setPort_boot : (s.setPort p x).boot = s.boot := rfl
@[simp] theorem State.setPort_pins : (s.setPort p x).pins = s.pins := rfl
@[simp] theorem State.setPort_freeCtr : (s.setPort p x).freeCtr = s.freeCtr := rfl
@[simp] theorem State.setPort_pending : (s.setPort p x).pending = s.pending := rfl
end

section
variable (s : State) (p : Nat) (f : Port → Port)
@[simp] theorem State.onPort_ident : (s.onPort p f).ident = s.ident := rfl
@[simp] theorem State.onPort_objs : (s.onPort p f).objs = s.objs := rfl
@[simp] theorem State.onPort_tiles : (s.onPort p f).tiles = s.tiles := rfl
@[simp] theorem State.onPort_cloaks : (s.onPort p f).cloaks = s.cloaks := rfl
@[simp] theorem State.onPort_mem : (s.onPort p f).mem = s.mem := rfl
@[simp] theorem State.onPort_coh : (s.onPort p f).coh = s.coh := rfl
@[simp] theorem State.onPort_collars : (s.onPort p f).collars = s.collars := rfl
@[simp] theorem State.onPort_gov : (s.onPort p f).gov = s.gov := rfl
@[simp] theorem State.onPort_hedom : (s.onPort p f).hedom = s.hedom := rfl
@[simp] theorem State.onPort_fuses : (s.onPort p f).fuses = s.fuses := rfl
@[simp] theorem State.onPort_fw : (s.onPort p f).fw = s.fw := rfl
@[simp] theorem State.onPort_unlock : (s.onPort p f).unlock = s.unlock := rfl
@[simp] theorem State.onPort_dict : (s.onPort p f).dict = s.dict := rfl
@[simp] theorem State.onPort_sb : (s.onPort p f).sb = s.sb := rfl
@[simp] theorem State.onPort_logs : (s.onPort p f).logs = s.logs := rfl
@[simp] theorem State.onPort_boot : (s.onPort p f).boot = s.boot := rfl
@[simp] theorem State.onPort_pins : (s.onPort p f).pins = s.pins := rfl
@[simp] theorem State.onPort_freeCtr : (s.onPort p f).freeCtr = s.freeCtr := rfl
@[simp] theorem State.onPort_pending : (s.onPort p f).pending = s.pending := rfl
end

section
variable (s : State) (r : Nat) (x : Ring)
@[simp] theorem State.setRing_ident : (s.setRing r x).ident = s.ident := rfl
@[simp] theorem State.setRing_objs : (s.setRing r x).objs = s.objs := rfl
@[simp] theorem State.setRing_tiles : (s.setRing r x).tiles = s.tiles := rfl
@[simp] theorem State.setRing_cloaks : (s.setRing r x).cloaks = s.cloaks := rfl
@[simp] theorem State.setRing_mem : (s.setRing r x).mem = s.mem := rfl
@[simp] theorem State.setRing_coh : (s.setRing r x).coh = s.coh := rfl
@[simp] theorem State.setRing_collars : (s.setRing r x).collars = s.collars := rfl
@[simp] theorem State.setRing_gov : (s.setRing r x).gov = s.gov := rfl
@[simp] theorem State.setRing_fab : (s.setRing r x).fab = s.fab := rfl
@[simp] theorem State.setRing_fuses : (s.setRing r x).fuses = s.fuses := rfl
@[simp] theorem State.setRing_fw : (s.setRing r x).fw = s.fw := rfl
@[simp] theorem State.setRing_unlock : (s.setRing r x).unlock = s.unlock := rfl
@[simp] theorem State.setRing_dict : (s.setRing r x).dict = s.dict := rfl
@[simp] theorem State.setRing_sb : (s.setRing r x).sb = s.sb := rfl
@[simp] theorem State.setRing_logs : (s.setRing r x).logs = s.logs := rfl
@[simp] theorem State.setRing_boot : (s.setRing r x).boot = s.boot := rfl
@[simp] theorem State.setRing_pins : (s.setRing r x).pins = s.pins := rfl
@[simp] theorem State.setRing_freeCtr : (s.setRing r x).freeCtr = s.freeCtr := rfl
@[simp] theorem State.setRing_pending : (s.setRing r x).pending = s.pending := rfl
end

section
variable (s : State) (v : Nat) (x : Vec)
@[simp] theorem State.setVec_ident : (s.setVec v x).ident = s.ident := rfl
@[simp] theorem State.setVec_objs : (s.setVec v x).objs = s.objs := rfl
@[simp] theorem State.setVec_tiles : (s.setVec v x).tiles = s.tiles := rfl
@[simp] theorem State.setVec_cloaks : (s.setVec v x).cloaks = s.cloaks := rfl
@[simp] theorem State.setVec_mem : (s.setVec v x).mem = s.mem := rfl
@[simp] theorem State.setVec_coh : (s.setVec v x).coh = s.coh := rfl
@[simp] theorem State.setVec_collars : (s.setVec v x).collars = s.collars := rfl
@[simp] theorem State.setVec_gov : (s.setVec v x).gov = s.gov := rfl
@[simp] theorem State.setVec_fab : (s.setVec v x).fab = s.fab := rfl
@[simp] theorem State.setVec_fuses : (s.setVec v x).fuses = s.fuses := rfl
@[simp] theorem State.setVec_fw : (s.setVec v x).fw = s.fw := rfl
@[simp] theorem State.setVec_unlock : (s.setVec v x).unlock = s.unlock := rfl
@[simp] theorem State.setVec_dict : (s.setVec v x).dict = s.dict := rfl
@[simp] theorem State.setVec_sb : (s.setVec v x).sb = s.sb := rfl
@[simp] theorem State.setVec_logs : (s.setVec v x).logs = s.logs := rfl
@[simp] theorem State.setVec_boot : (s.setVec v x).boot = s.boot := rfl
@[simp] theorem State.setVec_pins : (s.setVec v x).pins = s.pins := rfl
@[simp] theorem State.setVec_freeCtr : (s.setVec v x).freeCtr = s.freeCtr := rfl
@[simp] theorem State.setVec_pending : (s.setVec v x).pending = s.pending := rfl
end

section
variable (s : State) (i : Nat) (x : Session)
@[simp] theorem State.setSession_ident : (s.setSession i x).ident = s.ident := rfl
@[simp] theorem State.setSession_objs : (s.setSession i x).objs = s.objs := rfl
@[simp] theorem State.setSession_tiles : (s.setSession i x).tiles = s.tiles := rfl
@[simp] theorem State.setSession_cloaks : (s.setSession i x).cloaks = s.cloaks := rfl
@[simp] theorem State.setSession_mem : (s.setSession i x).mem = s.mem := rfl
@[simp] theorem State.setSession_coh : (s.setSession i x).coh = s.coh := rfl
@[simp] theorem State.setSession_collars : (s.setSession i x).collars = s.collars := rfl
@[simp] theorem State.setSession_gov : (s.setSession i x).gov = s.gov := rfl
@[simp] theorem State.setSession_fab : (s.setSession i x).fab = s.fab := rfl
@[simp] theorem State.setSession_hedom : (s.setSession i x).hedom = s.hedom := rfl
@[simp] theorem State.setSession_fuses : (s.setSession i x).fuses = s.fuses := rfl
@[simp] theorem State.setSession_fw : (s.setSession i x).fw = s.fw := rfl
@[simp] theorem State.setSession_unlock : (s.setSession i x).unlock = s.unlock := rfl
@[simp] theorem State.setSession_dict : (s.setSession i x).dict = s.dict := rfl
@[simp] theorem State.setSession_logs : (s.setSession i x).logs = s.logs := rfl
@[simp] theorem State.setSession_boot : (s.setSession i x).boot = s.boot := rfl
@[simp] theorem State.setSession_pins : (s.setSession i x).pins = s.pins := rfl
@[simp] theorem State.setSession_freeCtr : (s.setSession i x).freeCtr = s.freeCtr := rfl
@[simp] theorem State.setSession_pending : (s.setSession i x).pending = s.pending := rfl
end

section
variable (s : State) (n : Nat) (x : MSlot)
@[simp] theorem State.setMslot_ident : (s.setMslot n x).ident = s.ident := rfl
@[simp] theorem State.setMslot_objs : (s.setMslot n x).objs = s.objs := rfl
@[simp] theorem State.setMslot_tiles : (s.setMslot n x).tiles = s.tiles := rfl
@[simp] theorem State.setMslot_cloaks : (s.setMslot n x).cloaks = s.cloaks := rfl
@[simp] theorem State.setMslot_mem : (s.setMslot n x).mem = s.mem := rfl
@[simp] theorem State.setMslot_coh : (s.setMslot n x).coh = s.coh := rfl
@[simp] theorem State.setMslot_collars : (s.setMslot n x).collars = s.collars := rfl
@[simp] theorem State.setMslot_gov : (s.setMslot n x).gov = s.gov := rfl
@[simp] theorem State.setMslot_fab : (s.setMslot n x).fab = s.fab := rfl
@[simp] theorem State.setMslot_hedom : (s.setMslot n x).hedom = s.hedom := rfl
@[simp] theorem State.setMslot_fuses : (s.setMslot n x).fuses = s.fuses := rfl
@[simp] theorem State.setMslot_fw : (s.setMslot n x).fw = s.fw := rfl
@[simp] theorem State.setMslot_unlock : (s.setMslot n x).unlock = s.unlock := rfl
@[simp] theorem State.setMslot_sb : (s.setMslot n x).sb = s.sb := rfl
@[simp] theorem State.setMslot_logs : (s.setMslot n x).logs = s.logs := rfl
@[simp] theorem State.setMslot_boot : (s.setMslot n x).boot = s.boot := rfl
@[simp] theorem State.setMslot_pins : (s.setMslot n x).pins = s.pins := rfl
@[simp] theorem State.setMslot_freeCtr : (s.setMslot n x).freeCtr = s.freeCtr := rfl
@[simp] theorem State.setMslot_pending : (s.setMslot n x).pending = s.pending := rfl
end

section
variable (s : State) (i : Nat) (e : LedgerEntry)
@[simp] theorem State.setLedger_ident : (s.setLedger i e).ident = s.ident := rfl
@[simp] theorem State.setLedger_objs : (s.setLedger i e).objs = s.objs := rfl
@[simp] theorem State.setLedger_tiles : (s.setLedger i e).tiles = s.tiles := rfl
@[simp] theorem State.setLedger_cloaks : (s.setLedger i e).cloaks = s.cloaks := rfl
@[simp] theorem State.setLedger_mem : (s.setLedger i e).mem = s.mem := rfl
@[simp] theorem State.setLedger_coh : (s.setLedger i e).coh = s.coh := rfl
@[simp] theorem State.setLedger_collars : (s.setLedger i e).collars = s.collars := rfl
@[simp] theorem State.setLedger_gov : (s.setLedger i e).gov = s.gov := rfl
@[simp] theorem State.setLedger_fab : (s.setLedger i e).fab = s.fab := rfl
@[simp] theorem State.setLedger_fuses : (s.setLedger i e).fuses = s.fuses := rfl
@[simp] theorem State.setLedger_fw : (s.setLedger i e).fw = s.fw := rfl
@[simp] theorem State.setLedger_unlock : (s.setLedger i e).unlock = s.unlock := rfl
@[simp] theorem State.setLedger_dict : (s.setLedger i e).dict = s.dict := rfl
@[simp] theorem State.setLedger_sb : (s.setLedger i e).sb = s.sb := rfl
@[simp] theorem State.setLedger_logs : (s.setLedger i e).logs = s.logs := rfl
@[simp] theorem State.setLedger_boot : (s.setLedger i e).boot = s.boot := rfl
@[simp] theorem State.setLedger_pins : (s.setLedger i e).pins = s.pins := rfl
@[simp] theorem State.setLedger_freeCtr : (s.setLedger i e).freeCtr = s.freeCtr := rfl
@[simp] theorem State.setLedger_pending : (s.setLedger i e).pending = s.pending := rfl
end

section
variable (s : State) (l : String)
@[simp] theorem State.uart_ident : (s.uart l).ident = s.ident := rfl
@[simp] theorem State.uart_objs : (s.uart l).objs = s.objs := rfl
@[simp] theorem State.uart_tiles : (s.uart l).tiles = s.tiles := rfl
@[simp] theorem State.uart_cloaks : (s.uart l).cloaks = s.cloaks := rfl
@[simp] theorem State.uart_mem : (s.uart l).mem = s.mem := rfl
@[simp] theorem State.uart_coh : (s.uart l).coh = s.coh := rfl
@[simp] theorem State.uart_collars : (s.uart l).collars = s.collars := rfl
@[simp] theorem State.uart_gov : (s.uart l).gov = s.gov := rfl
@[simp] theorem State.uart_fab : (s.uart l).fab = s.fab := rfl
@[simp] theorem State.uart_hedom : (s.uart l).hedom = s.hedom := rfl
@[simp] theorem State.uart_fuses : (s.uart l).fuses = s.fuses := rfl
@[simp] theorem State.uart_fw : (s.uart l).fw = s.fw := rfl
@[simp] theorem State.uart_unlock : (s.uart l).unlock = s.unlock := rfl
@[simp] theorem State.uart_dict : (s.uart l).dict = s.dict := rfl
@[simp] theorem State.uart_sb : (s.uart l).sb = s.sb := rfl
@[simp] theorem State.uart_logs : (s.uart l).logs = s.logs := rfl
@[simp] theorem State.uart_boot : (s.uart l).boot = s.boot := rfl
@[simp] theorem State.uart_freeCtr : (s.uart l).freeCtr = s.freeCtr := rfl
@[simp] theorem State.uart_pending : (s.uart l).pending = s.pending := rfl
end

section
variable (s : State) (t : Nat) (o : Outstanding)
@[simp] theorem State.pushOut_ident : (s.pushOut t o).ident = s.ident := rfl
@[simp] theorem State.pushOut_objs : (s.pushOut t o).objs = s.objs := rfl
@[simp] theorem State.pushOut_cloaks : (s.pushOut t o).cloaks = s.cloaks := rfl
@[simp] theorem State.pushOut_mem : (s.pushOut t o).mem = s.mem := rfl
@[simp] theorem State.pushOut_coh : (s.pushOut t o).coh = s.coh := rfl
@[simp] theorem State.pushOut_collars : (s.pushOut t o).collars = s.collars := rfl
@[simp] theorem State.pushOut_gov : (s.pushOut t o).gov = s.gov := rfl
@[simp] theorem State.pushOut_fab : (s.pushOut t o).fab = s.fab := rfl
@[simp] theorem State.pushOut_hedom : (s.pushOut t o).hedom = s.hedom := rfl
@[simp] theorem State.pushOut_fuses : (s.pushOut t o).fuses = s.fuses := rfl
@[simp] theorem State.pushOut_fw : (s.pushOut t o).fw = s.fw := rfl
@[simp] theorem State.pushOut_unlock : (s.pushOut t o).unlock = s.unlock := rfl
@[simp] theorem State.pushOut_dict : (s.pushOut t o).dict = s.dict := rfl
@[simp] theorem State.pushOut_sb : (s.pushOut t o).sb = s.sb := rfl
@[simp] theorem State.pushOut_logs : (s.pushOut t o).logs = s.logs := rfl
@[simp] theorem State.pushOut_boot : (s.pushOut t o).boot = s.boot := rfl
@[simp] theorem State.pushOut_pins : (s.pushOut t o).pins = s.pins := rfl
@[simp] theorem State.pushOut_freeCtr : (s.pushOut t o).freeCtr = s.freeCtr := rfl
@[simp] theorem State.pushOut_pending : (s.pushOut t o).pending = s.pending := rfl
end

section
variable (s : State) (t pa : Nat) (b : Bytes) (tail : Bool)
@[simp] theorem State.pushStore_ident : (s.pushStore t pa b tail).ident = s.ident := rfl
@[simp] theorem State.pushStore_objs : (s.pushStore t pa b tail).objs = s.objs := rfl
@[simp] theorem State.pushStore_cloaks : (s.pushStore t pa b tail).cloaks = s.cloaks := rfl
@[simp] theorem State.pushStore_mem : (s.pushStore t pa b tail).mem = s.mem := rfl
@[simp] theorem State.pushStore_coh : (s.pushStore t pa b tail).coh = s.coh := rfl
@[simp] theorem State.pushStore_collars : (s.pushStore t pa b tail).collars = s.collars := rfl
@[simp] theorem State.pushStore_gov : (s.pushStore t pa b tail).gov = s.gov := rfl
@[simp] theorem State.pushStore_fab : (s.pushStore t pa b tail).fab = s.fab := rfl
@[simp] theorem State.pushStore_hedom : (s.pushStore t pa b tail).hedom = s.hedom := rfl
@[simp] theorem State.pushStore_fuses : (s.pushStore t pa b tail).fuses = s.fuses := rfl
@[simp] theorem State.pushStore_fw : (s.pushStore t pa b tail).fw = s.fw := rfl
@[simp] theorem State.pushStore_unlock : (s.pushStore t pa b tail).unlock = s.unlock := rfl
@[simp] theorem State.pushStore_dict : (s.pushStore t pa b tail).dict = s.dict := rfl
@[simp] theorem State.pushStore_sb : (s.pushStore t pa b tail).sb = s.sb := rfl
@[simp] theorem State.pushStore_logs : (s.pushStore t pa b tail).logs = s.logs := rfl
@[simp] theorem State.pushStore_boot : (s.pushStore t pa b tail).boot = s.boot := rfl
@[simp] theorem State.pushStore_pins : (s.pushStore t pa b tail).pins = s.pins := rfl
@[simp] theorem State.pushStore_freeCtr : (s.pushStore t pa b tail).freeCtr = s.freeCtr := rfl
@[simp] theorem State.pushStore_pending : (s.pushStore t pa b tail).pending = s.pending := rfl
end

section
variable (s : State) (t : Nat) (f : Lvu → Lvu)
@[simp] theorem State.onLvu_ident : (s.onLvu t f).ident = s.ident := rfl
@[simp] theorem State.onLvu_objs : (s.onLvu t f).objs = s.objs := rfl
@[simp] theorem State.onLvu_cloaks : (s.onLvu t f).cloaks = s.cloaks := rfl
@[simp] theorem State.onLvu_mem : (s.onLvu t f).mem = s.mem := rfl
@[simp] theorem State.onLvu_coh : (s.onLvu t f).coh = s.coh := rfl
@[simp] theorem State.onLvu_collars : (s.onLvu t f).collars = s.collars := rfl
@[simp] theorem State.onLvu_gov : (s.onLvu t f).gov = s.gov := rfl
@[simp] theorem State.onLvu_fab : (s.onLvu t f).fab = s.fab := rfl
@[simp] theorem State.onLvu_hedom : (s.onLvu t f).hedom = s.hedom := rfl
@[simp] theorem State.onLvu_fuses : (s.onLvu t f).fuses = s.fuses := rfl
@[simp] theorem State.onLvu_fw : (s.onLvu t f).fw = s.fw := rfl
@[simp] theorem State.onLvu_unlock : (s.onLvu t f).unlock = s.unlock := rfl
@[simp] theorem State.onLvu_dict : (s.onLvu t f).dict = s.dict := rfl
@[simp] theorem State.onLvu_sb : (s.onLvu t f).sb = s.sb := rfl
@[simp] theorem State.onLvu_logs : (s.onLvu t f).logs = s.logs := rfl
@[simp] theorem State.onLvu_boot : (s.onLvu t f).boot = s.boot := rfl
@[simp] theorem State.onLvu_pins : (s.onLvu t f).pins = s.pins := rfl
@[simp] theorem State.onLvu_freeCtr : (s.onLvu t f).freeCtr = s.freeCtr := rfl
@[simp] theorem State.onLvu_pending : (s.onLvu t f).pending = s.pending := rfl
end

section
variable (s : State) (t : Nat) (f : Glide → Glide)
@[simp] theorem State.onGlide_ident : (s.onGlide t f).ident = s.ident := rfl
@[simp] theorem State.onGlide_objs : (s.onGlide t f).objs = s.objs := rfl
@[simp] theorem State.onGlide_cloaks : (s.onGlide t f).cloaks = s.cloaks := rfl
@[simp] theorem State.onGlide_mem : (s.onGlide t f).mem = s.mem := rfl
@[simp] theorem State.onGlide_coh : (s.onGlide t f).coh = s.coh := rfl
@[simp] theorem State.onGlide_collars : (s.onGlide t f).collars = s.collars := rfl
@[simp] theorem State.onGlide_gov : (s.onGlide t f).gov = s.gov := rfl
@[simp] theorem State.onGlide_fab : (s.onGlide t f).fab = s.fab := rfl
@[simp] theorem State.onGlide_hedom : (s.onGlide t f).hedom = s.hedom := rfl
@[simp] theorem State.onGlide_fuses : (s.onGlide t f).fuses = s.fuses := rfl
@[simp] theorem State.onGlide_fw : (s.onGlide t f).fw = s.fw := rfl
@[simp] theorem State.onGlide_unlock : (s.onGlide t f).unlock = s.unlock := rfl
@[simp] theorem State.onGlide_dict : (s.onGlide t f).dict = s.dict := rfl
@[simp] theorem State.onGlide_sb : (s.onGlide t f).sb = s.sb := rfl
@[simp] theorem State.onGlide_logs : (s.onGlide t f).logs = s.logs := rfl
@[simp] theorem State.onGlide_boot : (s.onGlide t f).boot = s.boot := rfl
@[simp] theorem State.onGlide_pins : (s.onGlide t f).pins = s.pins := rfl
@[simp] theorem State.onGlide_freeCtr : (s.onGlide t f).freeCtr = s.freeCtr := rfl
@[simp] theorem State.onGlide_pending : (s.onGlide t f).pending = s.pending := rfl
end

section
variable (s : State) (t i : Nat) (x : GStream)
@[simp] theorem State.setStream_ident : (s.setStream t i x).ident = s.ident := rfl
@[simp] theorem State.setStream_objs : (s.setStream t i x).objs = s.objs := rfl
@[simp] theorem State.setStream_cloaks : (s.setStream t i x).cloaks = s.cloaks := rfl
@[simp] theorem State.setStream_mem : (s.setStream t i x).mem = s.mem := rfl
@[simp] theorem State.setStream_coh : (s.setStream t i x).coh = s.coh := rfl
@[simp] theorem State.setStream_collars : (s.setStream t i x).collars = s.collars := rfl
@[simp] theorem State.setStream_gov : (s.setStream t i x).gov = s.gov := rfl
@[simp] theorem State.setStream_fab : (s.setStream t i x).fab = s.fab := rfl
@[simp] theorem State.setStream_hedom : (s.setStream t i x).hedom = s.hedom := rfl
@[simp] theorem State.setStream_fuses : (s.setStream t i x).fuses = s.fuses := rfl
@[simp] theorem State.setStream_fw : (s.setStream t i x).fw = s.fw := rfl
@[simp] theorem State.setStream_unlock : (s.setStream t i x).unlock = s.unlock := rfl
@[simp] theorem State.setStream_dict : (s.setStream t i x).dict = s.dict := rfl
@[simp] theorem State.setStream_sb : (s.setStream t i x).sb = s.sb := rfl
@[simp] theorem State.setStream_logs : (s.setStream t i x).logs = s.logs := rfl
@[simp] theorem State.setStream_boot : (s.setStream t i x).boot = s.boot := rfl
@[simp] theorem State.setStream_pins : (s.setStream t i x).pins = s.pins := rfl
@[simp] theorem State.setStream_freeCtr : (s.setStream t i x).freeCtr = s.freeCtr := rfl
@[simp] theorem State.setStream_pending : (s.setStream t i x).pending = s.pending := rfl
end

/-! ### What an update gives -/

@[simp] theorem State.onTile_tile (s : State) (t : Nat) (f : Tile → Tile) : (s.onTile t f).tile t = f (s.tile t) := by
  simp [State.onTile, State.setTile, State.tile]

theorem State.onTile_tile_ne (s : State) {t u : Nat} (f : Tile → Tile) (h : u ≠ t) : (s.onTile t f).tile u = s.tile u := by
  simp [State.onTile, State.setTile, State.tile, tabGet_tabSet_ne _ _ _ h]

@[simp] theorem State.onCloak_cloak (s : State) (k : Nat) (f : Cloak → Cloak) : (s.onCloak k f).cloak k = f (s.cloak k) := by
  simp [State.onCloak, State.setCloak, State.cloak]

theorem State.onCloak_cloak_ne (s : State) {k j : Nat} (f : Cloak → Cloak) (h : j ≠ k) : (s.onCloak k f).cloak j = s.cloak j := by
  simp [State.onCloak, State.setCloak, State.cloak, tabGet_tabSet_ne _ _ _ h]

@[simp] theorem State.setCloak_cloak (s : State) (k : Nat) (x : Cloak) : (s.setCloak k x).cloak k = x := by
  simp [State.setCloak, State.cloak]

@[simp] theorem State.tick1_tile (s : State) (t : Nat) : s.tick1.tile t = s.tile t := rfl

@[simp] theorem State.tick1_cloak (s : State) (k : Nat) : s.tick1.cloak k = s.cloak k := rfl

@[simp] theorem State.setPort_port (s : State) (p : Nat) (x : Port) : (s.setPort p x).port p = x := by
  simp [State.setPort, State.port]

@[simp] theorem State.setRing_ring (s : State) (r : Nat) (x : Ring) : (s.setRing r x).ring r = x := by
  simp [State.setRing, State.ring]

@[simp] theorem State.setVec_vec (s : State) (v : Nat) (x : Vec) : (s.setVec v x).vec v = x := by
  simp [State.setVec, State.vec]

/-- A dictionary value after it is set. -/
@[simp] theorem State.setObj_obj (s : State) (idx sub v : Nat) : (s.setObj idx sub v).obj idx sub = v := by
  simp [State.setObj, State.obj, kvSet]

theorem State.setObj_obj_ne (s : State) {idx sub i j : Nat} (v : Nat) (h : pairOf i j ≠ pairOf idx sub) :
    (s.setObj idx sub v).obj i j = s.obj i j := by
  simp [State.setObj, State.obj, kvSet, kvGet_kvIns_ne _ _ _ h]

/-- x0 reads as zero whatever is written to it; any other register reads what was written (R66). -/
theorem State.setX_xreg (s : State) (t r q : Nat) (v : U64) :
    (s.setX t r v).xreg t q = if q = 0 then 0 else if q = r then v else s.xreg t q := by
  by_cases hq : q = 0
  · simp [State.xreg, hq]
  · by_cases hr : r = 0
    · have : q ≠ r := by omega
      simp [State.setX, hr, hq]
    · simp [State.setX, hr, State.xreg, hq, tabGet_tabSet]

theorem State.setF_freg (s : State) (t r q : Nat) (v : U64) : (s.setF t r v).freg t q = if q = r then v else s.freg t q := by
  simp [State.setF, State.freg, tabGet_tabSet]

section
variable (s : State) (t r : Nat) (v : U64)
@[simp] theorem State.setX_ident : (s.setX t r v).ident = s.ident := by unfold State.setX; split <;> rfl
@[simp] theorem State.setX_objs : (s.setX t r v).objs = s.objs := by unfold State.setX; split <;> rfl
@[simp] theorem State.setX_cloaks : (s.setX t r v).cloaks = s.cloaks := by unfold State.setX; split <;> rfl
@[simp] theorem State.setX_mem : (s.setX t r v).mem = s.mem := by unfold State.setX; split <;> rfl
@[simp] theorem State.setX_coh : (s.setX t r v).coh = s.coh := by unfold State.setX; split <;> rfl
@[simp] theorem State.setX_collars : (s.setX t r v).collars = s.collars := by unfold State.setX; split <;> rfl
@[simp] theorem State.setX_gov : (s.setX t r v).gov = s.gov := by unfold State.setX; split <;> rfl
@[simp] theorem State.setX_fab : (s.setX t r v).fab = s.fab := by unfold State.setX; split <;> rfl
@[simp] theorem State.setX_hedom : (s.setX t r v).hedom = s.hedom := by unfold State.setX; split <;> rfl
@[simp] theorem State.setX_fuses : (s.setX t r v).fuses = s.fuses := by unfold State.setX; split <;> rfl
@[simp] theorem State.setX_fw : (s.setX t r v).fw = s.fw := by unfold State.setX; split <;> rfl
@[simp] theorem State.setX_unlock : (s.setX t r v).unlock = s.unlock := by unfold State.setX; split <;> rfl
@[simp] theorem State.setX_dict : (s.setX t r v).dict = s.dict := by unfold State.setX; split <;> rfl
@[simp] theorem State.setX_sb : (s.setX t r v).sb = s.sb := by unfold State.setX; split <;> rfl
@[simp] theorem State.setX_logs : (s.setX t r v).logs = s.logs := by unfold State.setX; split <;> rfl
@[simp] theorem State.setX_boot : (s.setX t r v).boot = s.boot := by unfold State.setX; split <;> rfl
@[simp] theorem State.setX_pins : (s.setX t r v).pins = s.pins := by unfold State.setX; split <;> rfl
@[simp] theorem State.setX_freeCtr : (s.setX t r v).freeCtr = s.freeCtr := by unfold State.setX; split <;> rfl
@[simp] theorem State.setX_pending : (s.setX t r v).pending = s.pending := by unfold State.setX; split <;> rfl
end

end Sys2Proof.Machine
end

