-- ==== Sys2Proof/Laws/Ops.lean ====
section
/-!
SUPPORT. Laws/Ops.lean: what the shared operations of Machine/Ops.lean and Machine/Coh.lean can do. The lemma `_shape` of an
operation says once which fields it can change; the others say it of each field that stays.
-/
namespace Sys2Proof.Machine
open Sys2Proof

theorem State.bumpShared_shape (s : State) (i j n : Nat) : ∃ o, s.bumpShared i j n = { s with objs := o } := by
  unfold State.bumpShared; split <;> exact ⟨_, rfl⟩

section
variable (s : State) (i j n : Nat)
@[simp] theorem State.bumpShared_ident : (s.bumpShared i j n).ident = s.ident := by obtain ⟨_, e⟩ := s.bumpShared_shape i j n; rw [e]
@[simp] theorem State.bumpShared_tiles : (s.bumpShared i j n).tiles = s.tiles := by obtain ⟨_, e⟩ := s.bumpShared_shape i j n; rw [e]
@[simp] theorem State.bumpShared_cloaks : (s.bumpShared i j n).cloaks = s.cloaks := by obtain ⟨_, e⟩ := s.bumpShared_shape i j n; rw [e]
@[simp] theorem State.bumpShared_mem : (s.bumpShared i j n).mem = s.mem := by obtain ⟨_, e⟩ := s.bumpShared_shape i j n; rw [e]
@[simp] theorem State.bumpShared_coh : (s.bumpShared i j n).coh = s.coh := by obtain ⟨_, e⟩ := s.bumpShared_shape i j n; rw [e]
@[simp] theorem State.bumpShared_collars : (s.bumpShared i j n).collars = s.collars := by obtain ⟨_, e⟩ := s.bumpShared_shape i j n; rw [e]
@[simp] theorem State.bumpShared_gov : (s.bumpShared i j n).gov = s.gov := by obtain ⟨_, e⟩ := s.bumpShared_shape i j n; rw [e]
@[simp] theorem State.bumpShared_fab : (s.bumpShared i j n).fab = s.fab := by obtain ⟨_, e⟩ := s.bumpShared_shape i j n; rw [e]
@[simp] theorem State.bumpShared_hedom : (s.bumpShared i j n).hedom = s.hedom := by obtain ⟨_, e⟩ := s.bumpShared_shape i j n; rw [e]
@[simp] theorem State.bumpShared_fuses : (s.bumpShared i j n).fuses = s.fuses := by obtain ⟨_, e⟩ := s.bumpShared_shape i j n; rw [e]
@[simp] theorem State.bumpShared_fw : (s.bumpShared i j n).fw = s.fw := by obtain ⟨_, e⟩ := s.bumpShared_shape i j n; rw [e]
@[simp] theorem State.bumpShared_unlock : (s.bumpShared i j n).unlock = s.unlock := by obtain ⟨_, e⟩ := s.bumpShared_shape i j n; rw [e]
@[simp] theorem State.bumpShared_dict : (s.bumpShared i j n).dict = s.dict := by obtain ⟨_, e⟩ := s.bumpShared_shape i j n; rw [e]
@[simp] theorem State.bumpShared_sb : (s.bumpShared i j n).sb = s.sb := by obtain ⟨_, e⟩ := s.bumpShared_shape i j n; rw [e]
@[simp] theorem State.bumpShared_logs : (s.bumpShared i j n).logs = s.logs := by obtain ⟨_, e⟩ := s.bumpShared_shape i j n; rw [e]
@[simp] theorem State.bumpShared_boot : (s.bumpShared i j n).boot = s.boot := by obtain ⟨_, e⟩ := s.bumpShared_shape i j n; rw [e]
@[simp] theorem State.bumpShared_pins : (s.bumpShared i j n).pins = s.pins := by obtain ⟨_, e⟩ := s.bumpShared_shape i j n; rw [e]
@[simp] theorem State.bumpShared_freeCtr : (s.bumpShared i j n).freeCtr = s.freeCtr := by obtain ⟨_, e⟩ := s.bumpShared_shape i j n; rw [e]
@[simp] theorem State.bumpShared_pending : (s.bumpShared i j n).pending = s.pending := by obtain ⟨_, e⟩ := s.bumpShared_shape i j n; rw [e]
end

theorem State.hostTxn_shape (s : State) (user : TxUser) (opc addr len : Nat) (d : Bytes) :
    ∃ o h, s.hostTxn user opc addr len d = { s with objs := o, hedom := h } := ⟨_, _, rfl⟩

theorem State.raiseVec_shape (s : State) (v : Nat) : ∃ o h, s.raiseVec v = { s with objs := o, hedom := h } := by
  unfold State.raiseVec
  split
  · exact ⟨_, _, rfl⟩
  · dsimp only
    split
    · exact ⟨_, _, rfl⟩
    · split <;> exact ⟨_, _, rfl⟩

theorem State.raiseSource_shape (s : State) (n : Nat) : ∃ o h, s.raiseSource n = { s with objs := o, hedom := h } := s.raiseVec_shape _

theorem State.logHM_shape (s : State) (r : ErrRec) : ∃ o h l, s.logHM r = { s with objs := o, hedom := h, logs := l } := by
  obtain ⟨o, h, e⟩ := State.raiseSource_shape { s with logs := { s.logs with
    h := s.logs.h.push (if r.cloak = 0 then r else r.suppressed), m := s.logs.m.push (if r.cloak = 0 then r else r.suppressed) } } 3
  exact ⟨o, h, _, e⟩

theorem State.hedomSend_shape (s : State) (p : Packet) : ∃ o h, s.hedomSend p = { s with objs := o, hedom := h } := ⟨_, _, rfl⟩

section
variable (s : State) (p : Packet)
@[simp] theorem State.hedomSend_ident : (s.hedomSend p).ident = s.ident := by obtain ⟨_, _, e⟩ := s.hedomSend_shape p; rw [e]
@[simp] theorem State.hedomSend_tiles : (s.hedomSend p).tiles = s.tiles := by obtain ⟨_, _, e⟩ := s.hedomSend_shape p; rw [e]
@[simp] theorem State.hedomSend_cloaks : (s.hedomSend p).cloaks = s.cloaks := by obtain ⟨_, _, e⟩ := s.hedomSend_shape p; rw [e]
@[simp] theorem State.hedomSend_mem : (s.hedomSend p).mem = s.mem := by obtain ⟨_, _, e⟩ := s.hedomSend_shape p; rw [e]
@[simp] theorem State.hedomSend_coh : (s.hedomSend p).coh = s.coh := by obtain ⟨_, _, e⟩ := s.hedomSend_shape p; rw [e]
@[simp] theorem State.hedomSend_collars : (s.hedomSend p).collars = s.collars := by obtain ⟨_, _, e⟩ := s.hedomSend_shape p; rw [e]
@[simp] theorem State.hedomSend_gov : (s.hedomSend p).gov = s.gov := by obtain ⟨_, _, e⟩ := s.hedomSend_shape p; rw [e]
@[simp] theorem State.hedomSend_fab : (s.hedomSend p).fab = s.fab := by obtain ⟨_, _, e⟩ := s.hedomSend_shape p; rw [e]
@[simp] theorem State.hedomSend_fuses : (s.hedomSend p).fuses = s.fuses := by obtain ⟨_, _, e⟩ := s.hedomSend_shape p; rw [e]
@[simp] theorem State.hedomSend_fw : (s.hedomSend p).fw = s.fw := by obtain ⟨_, _, e⟩ := s.hedomSend_shape p; rw [e]
@[simp] theorem State.hedomSend_unlock : (s.hedomSend p).unlock = s.unlock := by obtain ⟨_, _, e⟩ := s.hedomSend_shape p; rw [e]
@[simp] theorem State.hedomSend_dict : (s.hedomSend p).dict = s.dict := by obtain ⟨_, _, e⟩ := s.hedomSend_shape p; rw [e]
@[simp] theorem State.hedomSend_sb : (s.hedomSend p).sb = s.sb := by obtain ⟨_, _, e⟩ := s.hedomSend_shape p; rw [e]
@[simp] theorem State.hedomSend_logs : (s.hedomSend p).logs = s.logs := by obtain ⟨_, _, e⟩ := s.hedomSend_shape p; rw [e]
@[simp] theorem State.hedomSend_boot : (s.hedomSend p).boot = s.boot := by obtain ⟨_, _, e⟩ := s.hedomSend_shape p; rw [e]
@[simp] theorem State.hedomSend_pins : (s.hedomSend p).pins = s.pins := by obtain ⟨_, _, e⟩ := s.hedomSend_shape p; rw [e]
@[simp] theorem State.hedomSend_freeCtr : (s.hedomSend p).freeCtr = s.freeCtr := by obtain ⟨_, _, e⟩ := s.hedomSend_shape p; rw [e]
@[simp] theorem State.hedomSend_pending : (s.hedomSend p).pending = s.pending := by obtain ⟨_, _, e⟩ := s.hedomSend_shape p; rw [e]
end

/-- Everything the sending of flits can change: a port or the Hedom link, and its counters. -/
theorem State.sentPort_shape (s : State) (p : Nat) (f : LinkKind → Port → Port) :
    ∃ o x h, s.sentPort p f = { s with objs := o, fab := x, hedom := h } := by
  unfold State.sentPort
  split <;> exact ⟨_, _, _, rfl⟩

/-- Everything flits that leave input buffers can change. -/
theorem State.release_shape (l : List Hold) : ∀ s : State, ∃ o x h, s.release l = { s with objs := o, fab := x, hedom := h } := by
  induction l with
  | nil => exact fun s => ⟨s.objs, s.fab, s.hedom, rfl⟩
  | cons a l ih =>
    intro s
    obtain ⟨o, x, h, e⟩ := s.sentPort_shape a.port (fun k x => (a.giveBack x).idle k 16)
    obtain ⟨o', x', h', e'⟩ := ih (s.sentPort a.port (fun k x => (a.giveBack x).idle k 16))
    exact ⟨o', x', h', by rw [State.release, List.foldl_cons]; exact e'.trans (by rw [e])⟩

/-- Everything a packet's arrival in the inbox can change. -/
theorem State.toInbox_shape (s : State) (p : Packet) : ∃ o x h, s.toInbox p = { s with objs := o, fab := x, hedom := h } := by
  unfold State.toInbox
  split
  · exact ⟨_, _, _, rfl⟩
  · obtain ⟨o, x, h, e⟩ := State.release_shape p.held { s with fab := { s.fab with inbox := s.fab.inbox ++ [{ p with held := [] }] } }
    exact ⟨o, x, h, e⟩

section
variable (s : State) (p : Packet)
@[simp] theorem State.toInbox_ident : (s.toInbox p).ident = s.ident := by obtain ⟨_, _, _, e⟩ := s.toInbox_shape p; rw [e]
@[simp] theorem State.toInbox_tiles : (s.toInbox p).tiles = s.tiles := by obtain ⟨_, _, _, e⟩ := s.toInbox_shape p; rw [e]
@[simp] theorem State.toInbox_cloaks : (s.toInbox p).cloaks = s.cloaks := by obtain ⟨_, _, _, e⟩ := s.toInbox_shape p; rw [e]
@[simp] theorem State.toInbox_mem : (s.toInbox p).mem = s.mem := by obtain ⟨_, _, _, e⟩ := s.toInbox_shape p; rw [e]
@[simp] theorem State.toInbox_coh : (s.toInbox p).coh = s.coh := by obtain ⟨_, _, _, e⟩ := s.toInbox_shape p; rw [e]
@[simp] theorem State.toInbox_collars : (s.toInbox p).collars = s.collars := by obtain ⟨_, _, _, e⟩ := s.toInbox_shape p; rw [e]
@[simp] theorem State.toInbox_gov : (s.toInbox p).gov = s.gov := by obtain ⟨_, _, _, e⟩ := s.toInbox_shape p; rw [e]
@[simp] theorem State.toInbox_fuses : (s.toInbox p).fuses = s.fuses := by obtain ⟨_, _, _, e⟩ := s.toInbox_shape p; rw [e]
@[simp] theorem State.toInbox_fw : (s.toInbox p).fw = s.fw := by obtain ⟨_, _, _, e⟩ := s.toInbox_shape p; rw [e]
@[simp] theorem State.toInbox_unlock : (s.toInbox p).unlock = s.unlock := by obtain ⟨_, _, _, e⟩ := s.toInbox_shape p; rw [e]
@[simp] theorem State.toInbox_dict : (s.toInbox p).dict = s.dict := by obtain ⟨_, _, _, e⟩ := s.toInbox_shape p; rw [e]
@[simp] theorem State.toInbox_sb : (s.toInbox p).sb = s.sb := by obtain ⟨_, _, _, e⟩ := s.toInbox_shape p; rw [e]
@[simp] theorem State.toInbox_logs : (s.toInbox p).logs = s.logs := by obtain ⟨_, _, _, e⟩ := s.toInbox_shape p; rw [e]
@[simp] theorem State.toInbox_boot : (s.toInbox p).boot = s.boot := by obtain ⟨_, _, _, e⟩ := s.toInbox_shape p; rw [e]
@[simp] theorem State.toInbox_pins : (s.toInbox p).pins = s.pins := by obtain ⟨_, _, _, e⟩ := s.toInbox_shape p; rw [e]
@[simp] theorem State.toInbox_freeCtr : (s.toInbox p).freeCtr = s.freeCtr := by obtain ⟨_, _, _, e⟩ := s.toInbox_shape p; rw [e]
@[simp] theorem State.toInbox_pending : (s.toInbox p).pending = s.pending := by obtain ⟨_, _, _, e⟩ := s.toInbox_shape p; rw [e]
end

section
variable (s : State) (user : TxUser) (opc addr len : Nat) (d : Bytes)
@[simp] theorem State.hostTxn_ident : (s.hostTxn user opc addr len d).ident = s.ident := by obtain ⟨_, _, e⟩ := s.hostTxn_shape user opc addr len d; rw [e]
@[simp] theorem State.hostTxn_tiles : (s.hostTxn user opc addr len d).tiles = s.tiles := by obtain ⟨_, _, e⟩ := s.hostTxn_shape user opc addr len d; rw [e]
@[simp] theorem State.hostTxn_cloaks : (s.hostTxn user opc addr len d).cloaks = s.cloaks := by obtain ⟨_, _, e⟩ := s.hostTxn_shape user opc addr len d; rw [e]
@[simp] theorem State.hostTxn_mem : (s.hostTxn user opc addr len d).mem = s.mem := by obtain ⟨_, _, e⟩ := s.hostTxn_shape user opc addr len d; rw [e]
@[simp] theorem State.hostTxn_coh : (s.hostTxn user opc addr len d).coh = s.coh := by obtain ⟨_, _, e⟩ := s.hostTxn_shape user opc addr len d; rw [e]
@[simp] theorem State.hostTxn_collars : (s.hostTxn user opc addr len d).collars = s.collars := by obtain ⟨_, _, e⟩ := s.hostTxn_shape user opc addr len d; rw [e]
@[simp] theorem State.hostTxn_gov : (s.hostTxn user opc addr len d).gov = s.gov := by obtain ⟨_, _, e⟩ := s.hostTxn_shape user opc addr len d; rw [e]
@[simp] theorem State.hostTxn_fab : (s.hostTxn user opc addr len d).fab = s.fab := by obtain ⟨_, _, e⟩ := s.hostTxn_shape user opc addr len d; rw [e]
@[simp] theorem State.hostTxn_fuses : (s.hostTxn user opc addr len d).fuses = s.fuses := by obtain ⟨_, _, e⟩ := s.hostTxn_shape user opc addr len d; rw [e]
@[simp] theorem State.hostTxn_fw : (s.hostTxn user opc addr len d).fw = s.fw := by obtain ⟨_, _, e⟩ := s.hostTxn_shape user opc addr len d; rw [e]
@[simp] theorem State.hostTxn_unlock : (s.hostTxn user opc addr len d).unlock = s.unlock := by obtain ⟨_, _, e⟩ := s.hostTxn_shape user opc addr len d; rw [e]
@[simp] theorem State.hostTxn_dict : (s.hostTxn user opc addr len d).dict = s.dict := by obtain ⟨_, _, e⟩ := s.hostTxn_shape user opc addr len d; rw [e]
@[simp] theorem State.hostTxn_sb : (s.hostTxn user opc addr len d).sb = s.sb := by obtain ⟨_, _, e⟩ := s.hostTxn_shape user opc addr len d; rw [e]
@[simp] theorem State.hostTxn_logs : (s.hostTxn user opc addr len d).logs = s.logs := by obtain ⟨_, _, e⟩ := s.hostTxn_shape user opc addr len d; rw [e]
@[simp] theorem State.hostTxn_boot : (s.hostTxn user opc addr len d).boot = s.boot := by obtain ⟨_, _, e⟩ := s.hostTxn_shape user opc addr len d; rw [e]
@[simp] theorem State.hostTxn_pins : (s.hostTxn user opc addr len d).pins = s.pins := by obtain ⟨_, _, e⟩ := s.hostTxn_shape user opc addr len d; rw [e]
@[simp] theorem State.hostTxn_freeCtr : (s.hostTxn user opc addr len d).freeCtr = s.freeCtr := by obtain ⟨_, _, e⟩ := s.hostTxn_shape user opc addr len d; rw [e]
@[simp] theorem State.hostTxn_pending : (s.hostTxn user opc addr len d).pending = s.pending := by obtain ⟨_, _, e⟩ := s.hostTxn_shape user opc addr len d; rw [e]
end

section
variable (s : State) (v : Nat)
@[simp] theorem State.raiseVec_ident : (s.raiseVec v).ident = s.ident := by obtain ⟨_, _, e⟩ := s.raiseVec_shape v; rw [e]
@[simp] theorem State.raiseVec_tiles : (s.raiseVec v).tiles = s.tiles := by obtain ⟨_, _, e⟩ := s.raiseVec_shape v; rw [e]
@[simp] theorem State.raiseVec_cloaks : (s.raiseVec v).cloaks = s.cloaks := by obtain ⟨_, _, e⟩ := s.raiseVec_shape v; rw [e]
@[simp] theorem State.raiseVec_mem : (s.raiseVec v).mem = s.mem := by obtain ⟨_, _, e⟩ := s.raiseVec_shape v; rw [e]
@[simp] theorem State.raiseVec_coh : (s.raiseVec v).coh = s.coh := by obtain ⟨_, _, e⟩ := s.raiseVec_shape v; rw [e]
@[simp] theorem State.raiseVec_collars : (s.raiseVec v).collars = s.collars := by obtain ⟨_, _, e⟩ := s.raiseVec_shape v; rw [e]
@[simp] theorem State.raiseVec_gov : (s.raiseVec v).gov = s.gov := by obtain ⟨_, _, e⟩ := s.raiseVec_shape v; rw [e]
@[simp] theorem State.raiseVec_fab : (s.raiseVec v).fab = s.fab := by obtain ⟨_, _, e⟩ := s.raiseVec_shape v; rw [e]
@[simp] theorem State.raiseVec_fuses : (s.raiseVec v).fuses = s.fuses := by obtain ⟨_, _, e⟩ := s.raiseVec_shape v; rw [e]
@[simp] theorem State.raiseVec_fw : (s.raiseVec v).fw = s.fw := by obtain ⟨_, _, e⟩ := s.raiseVec_shape v; rw [e]
@[simp] theorem State.raiseVec_unlock : (s.raiseVec v).unlock = s.unlock := by obtain ⟨_, _, e⟩ := s.raiseVec_shape v; rw [e]
@[simp] theorem State.raiseVec_dict : (s.raiseVec v).dict = s.dict := by obtain ⟨_, _, e⟩ := s.raiseVec_shape v; rw [e]
@[simp] theorem State.raiseVec_sb : (s.raiseVec v).sb = s.sb := by obtain ⟨_, _, e⟩ := s.raiseVec_shape v; rw [e]
@[simp] theorem State.raiseVec_logs : (s.raiseVec v).logs = s.logs := by obtain ⟨_, _, e⟩ := s.raiseVec_shape v; rw [e]
@[simp] theorem State.raiseVec_boot : (s.raiseVec v).boot = s.boot := by obtain ⟨_, _, e⟩ := s.raiseVec_shape v; rw [e]
@[simp] theorem State.raiseVec_pins : (s.raiseVec v).pins = s.pins := by obtain ⟨_, _, e⟩ := s.raiseVec_shape v; rw [e]
@[simp] theorem State.raiseVec_freeCtr : (s.raiseVec v).freeCtr = s.freeCtr := by obtain ⟨_, _, e⟩ := s.raiseVec_shape v; rw [e]
@[simp] theorem State.raiseVec_pending : (s.raiseVec v).pending = s.pending := by obtain ⟨_, _, e⟩ := s.raiseVec_shape v; rw [e]
end

section
variable (s : State) (n : Nat)
@[simp] theorem State.raiseSource_ident : (s.raiseSource n).ident = s.ident := by obtain ⟨_, _, e⟩ := s.raiseSource_shape n; rw [e]
@[simp] theorem State.raiseSource_tiles : (s.raiseSource n).tiles = s.tiles := by obtain ⟨_, _, e⟩ := s.raiseSource_shape n; rw [e]
@[simp] theorem State.raiseSource_cloaks : (s.raiseSource n).cloaks = s.cloaks := by obtain ⟨_, _, e⟩ := s.raiseSource_shape n; rw [e]
@[simp] theorem State.raiseSource_mem : (s.raiseSource n).mem = s.mem := by obtain ⟨_, _, e⟩ := s.raiseSource_shape n; rw [e]
@[simp] theorem State.raiseSource_coh : (s.raiseSource n).coh = s.coh := by obtain ⟨_, _, e⟩ := s.raiseSource_shape n; rw [e]
@[simp] theorem State.raiseSource_collars : (s.raiseSource n).collars = s.collars := by obtain ⟨_, _, e⟩ := s.raiseSource_shape n; rw [e]
@[simp] theorem State.raiseSource_gov : (s.raiseSource n).gov = s.gov := by obtain ⟨_, _, e⟩ := s.raiseSource_shape n; rw [e]
@[simp] theorem State.raiseSource_fab : (s.raiseSource n).fab = s.fab := by obtain ⟨_, _, e⟩ := s.raiseSource_shape n; rw [e]
@[simp] theorem State.raiseSource_fuses : (s.raiseSource n).fuses = s.fuses := by obtain ⟨_, _, e⟩ := s.raiseSource_shape n; rw [e]
@[simp] theorem State.raiseSource_fw : (s.raiseSource n).fw = s.fw := by obtain ⟨_, _, e⟩ := s.raiseSource_shape n; rw [e]
@[simp] theorem State.raiseSource_unlock : (s.raiseSource n).unlock = s.unlock := by obtain ⟨_, _, e⟩ := s.raiseSource_shape n; rw [e]
@[simp] theorem State.raiseSource_dict : (s.raiseSource n).dict = s.dict := by obtain ⟨_, _, e⟩ := s.raiseSource_shape n; rw [e]
@[simp] theorem State.raiseSource_sb : (s.raiseSource n).sb = s.sb := by obtain ⟨_, _, e⟩ := s.raiseSource_shape n; rw [e]
@[simp] theorem State.raiseSource_logs : (s.raiseSource n).logs = s.logs := by obtain ⟨_, _, e⟩ := s.raiseSource_shape n; rw [e]
@[simp] theorem State.raiseSource_boot : (s.raiseSource n).boot = s.boot := by obtain ⟨_, _, e⟩ := s.raiseSource_shape n; rw [e]
@[simp] theorem State.raiseSource_pins : (s.raiseSource n).pins = s.pins := by obtain ⟨_, _, e⟩ := s.raiseSource_shape n; rw [e]
@[simp] theorem State.raiseSource_freeCtr : (s.raiseSource n).freeCtr = s.freeCtr := by obtain ⟨_, _, e⟩ := s.raiseSource_shape n; rw [e]
@[simp] theorem State.raiseSource_pending : (s.raiseSource n).pending = s.pending := by obtain ⟨_, _, e⟩ := s.raiseSource_shape n; rw [e]
end

section
variable (s : State) (r : ErrRec)
@[simp] theorem State.logHM_ident : (s.logHM r).ident = s.ident := by obtain ⟨_, _, _, e⟩ := s.logHM_shape r; rw [e]
@[simp] theorem State.logHM_tiles : (s.logHM r).tiles = s.tiles := by obtain ⟨_, _, _, e⟩ := s.logHM_shape r; rw [e]
@[simp] theorem State.logHM_cloaks : (s.logHM r).cloaks = s.cloaks := by obtain ⟨_, _, _, e⟩ := s.logHM_shape r; rw [e]
@[simp] theorem State.logHM_mem : (s.logHM r).mem = s.mem := by obtain ⟨_, _, _, e⟩ := s.logHM_shape r; rw [e]
@[simp] theorem State.logHM_coh : (s.logHM r).coh = s.coh := by obtain ⟨_, _, _, e⟩ := s.logHM_shape r; rw [e]
@[simp] theorem State.logHM_collars : (s.logHM r).collars = s.collars := by obtain ⟨_, _, _, e⟩ := s.logHM_shape r; rw [e]
@[simp] theorem State.logHM_gov : (s.logHM r).gov = s.gov := by obtain ⟨_, _, _, e⟩ := s.logHM_shape r; rw [e]
@[simp] theorem State.logHM_fab : (s.logHM r).fab = s.fab := by obtain ⟨_, _, _, e⟩ := s.logHM_shape r; rw [e]
@[simp] theorem State.logHM_fuses : (s.logHM r).fuses = s.fuses := by obtain ⟨_, _, _, e⟩ := s.logHM_shape r; rw [e]
@[simp] theorem State.logHM_fw : (s.logHM r).fw = s.fw := by obtain ⟨_, _, _, e⟩ := s.logHM_shape r; rw [e]
@[simp] theorem State.logHM_unlock : (s.logHM r).unlock = s.unlock := by obtain ⟨_, _, _, e⟩ := s.logHM_shape r; rw [e]
@[simp] theorem State.logHM_dict : (s.logHM r).dict = s.dict := by obtain ⟨_, _, _, e⟩ := s.logHM_shape r; rw [e]
@[simp] theorem State.logHM_sb : (s.logHM r).sb = s.sb := by obtain ⟨_, _, _, e⟩ := s.logHM_shape r; rw [e]
@[simp] theorem State.logHM_boot : (s.logHM r).boot = s.boot := by obtain ⟨_, _, _, e⟩ := s.logHM_shape r; rw [e]
@[simp] theorem State.logHM_pins : (s.logHM r).pins = s.pins := by obtain ⟨_, _, _, e⟩ := s.logHM_shape r; rw [e]
@[simp] theorem State.logHM_freeCtr : (s.logHM r).freeCtr = s.freeCtr := by obtain ⟨_, _, _, e⟩ := s.logHM_shape r; rw [e]
@[simp] theorem State.logHM_pending : (s.logHM r).pending = s.pending := by obtain ⟨_, _, _, e⟩ := s.logHM_shape r; rw [e]
end

/-- Everything an error can change (R450 to R456): counters, the logs, the host's vector, and an event on a Cloak's tile. -/
theorem State.error_shape (s : State) (r : ErrRec) : ∃ o h l t, s.error r = { s with objs := o, hedom := h, logs := l, tiles := t } := by
  have hold : ∀ (s : State) r, ∃ o h l, s.logOrHold r = { s with objs := o, hedom := h, logs := l } := fun s r => by
    unfold State.logOrHold
    split
    · exact ⟨_, _, _, rfl⟩
    · exact s.logHM_shape r
  have logc : ∀ (s : State) r, ∃ l t, s.logC r = { s with logs := l, tiles := t } := fun s r => by
    unfold State.logC
    dsimp only
    split
    · exact ⟨_, _, rfl⟩
    · split <;> exact ⟨_, _, rfl⟩
  have cnt : ∀ (s : State) c, ∃ l, s.countUncorr c = { s with logs := l } := fun s c => by
    unfold State.countUncorr
    split <;> exact ⟨_, rfl⟩
  unfold State.error
  dsimp only
  obtain ⟨l0, e0⟩ := cnt (s.countErr r.cls.toNat) r.cls
  rw [e0]
  split
  · exact ⟨_, _, _, _, rfl⟩
  · obtain ⟨o, h, l, e1⟩ := hold { s.countErr r.cls.toNat with logs := l0 } { r with time := BitVec.ofNat 64 s.now }
    rw [e1]
    obtain ⟨l', t, e2⟩ := logc { s.countErr r.cls.toNat with logs := l, objs := o, hedom := h } { r with time := BitVec.ofNat 64 s.now }
    rw [e2]
    exact ⟨_, _, _, _, rfl⟩

section
variable (s : State) (r : ErrRec)
@[simp] theorem State.error_ident : (s.error r).ident = s.ident := by obtain ⟨_, _, _, _, e⟩ := s.error_shape r; rw [e]
@[simp] theorem State.error_cloaks : (s.error r).cloaks = s.cloaks := by obtain ⟨_, _, _, _, e⟩ := s.error_shape r; rw [e]
@[simp] theorem State.error_mem : (s.error r).mem = s.mem := by obtain ⟨_, _, _, _, e⟩ := s.error_shape r; rw [e]
@[simp] theorem State.error_coh : (s.error r).coh = s.coh := by obtain ⟨_, _, _, _, e⟩ := s.error_shape r; rw [e]
@[simp] theorem State.error_collars : (s.error r).collars = s.collars := by obtain ⟨_, _, _, _, e⟩ := s.error_shape r; rw [e]
@[simp] theorem State.error_gov : (s.error r).gov = s.gov := by obtain ⟨_, _, _, _, e⟩ := s.error_shape r; rw [e]
@[simp] theorem State.error_fab : (s.error r).fab = s.fab := by obtain ⟨_, _, _, _, e⟩ := s.error_shape r; rw [e]
@[simp] theorem State.error_fuses : (s.error r).fuses = s.fuses := by obtain ⟨_, _, _, _, e⟩ := s.error_shape r; rw [e]
@[simp] theorem State.error_fw : (s.error r).fw = s.fw := by obtain ⟨_, _, _, _, e⟩ := s.error_shape r; rw [e]
@[simp] theorem State.error_unlock : (s.error r).unlock = s.unlock := by obtain ⟨_, _, _, _, e⟩ := s.error_shape r; rw [e]
@[simp] theorem State.error_dict : (s.error r).dict = s.dict := by obtain ⟨_, _, _, _, e⟩ := s.error_shape r; rw [e]
@[simp] theorem State.error_sb : (s.error r).sb = s.sb := by obtain ⟨_, _, _, _, e⟩ := s.error_shape r; rw [e]
@[simp] theorem State.error_boot : (s.error r).boot = s.boot := by obtain ⟨_, _, _, _, e⟩ := s.error_shape r; rw [e]
@[simp] theorem State.error_pins : (s.error r).pins = s.pins := by obtain ⟨_, _, _, _, e⟩ := s.error_shape r; rw [e]
@[simp] theorem State.error_freeCtr : (s.error r).freeCtr = s.freeCtr := by obtain ⟨_, _, _, _, e⟩ := s.error_shape r; rw [e]
@[simp] theorem State.error_pending : (s.error r).pending = s.pending := by obtain ⟨_, _, _, _, e⟩ := s.error_shape r; rw [e]
end

theorem State.tileError_shape (s : State) (t cls src cause addr : Nat) :
    ∃ o h l x, s.tileError t cls src cause addr = { s with objs := o, hedom := h, logs := l, tiles := x } := s.error_shape _

section
variable (s : State) (t cls src cause addr : Nat)
@[simp] theorem State.tileError_ident : (s.tileError t cls src cause addr).ident = s.ident := by obtain ⟨_, _, _, _, e⟩ := s.tileError_shape t cls src cause addr; rw [e]
@[simp] theorem State.tileError_cloaks : (s.tileError t cls src cause addr).cloaks = s.cloaks := by obtain ⟨_, _, _, _, e⟩ := s.tileError_shape t cls src cause addr; rw [e]
@[simp] theorem State.tileError_mem : (s.tileError t cls src cause addr).mem = s.mem := by obtain ⟨_, _, _, _, e⟩ := s.tileError_shape t cls src cause addr; rw [e]
@[simp] theorem State.tileError_coh : (s.tileError t cls src cause addr).coh = s.coh := by obtain ⟨_, _, _, _, e⟩ := s.tileError_shape t cls src cause addr; rw [e]
@[simp] theorem State.tileError_collars : (s.tileError t cls src cause addr).collars = s.collars := by obtain ⟨_, _, _, _, e⟩ := s.tileError_shape t cls src cause addr; rw [e]
@[simp] theorem State.tileError_gov : (s.tileError t cls src cause addr).gov = s.gov := by obtain ⟨_, _, _, _, e⟩ := s.tileError_shape t cls src cause addr; rw [e]
@[simp] theorem State.tileError_fab : (s.tileError t cls src cause addr).fab = s.fab := by obtain ⟨_, _, _, _, e⟩ := s.tileError_shape t cls src cause addr; rw [e]
@[simp] theorem State.tileError_fuses : (s.tileError t cls src cause addr).fuses = s.fuses := by obtain ⟨_, _, _, _, e⟩ := s.tileError_shape t cls src cause addr; rw [e]
@[simp] theorem State.tileError_fw : (s.tileError t cls src cause addr).fw = s.fw := by obtain ⟨_, _, _, _, e⟩ := s.tileError_shape t cls src cause addr; rw [e]
@[simp] theorem State.tileError_unlock : (s.tileError t cls src cause addr).unlock = s.unlock := by obtain ⟨_, _, _, _, e⟩ := s.tileError_shape t cls src cause addr; rw [e]
@[simp] theorem State.tileError_dict : (s.tileError t cls src cause addr).dict = s.dict := by obtain ⟨_, _, _, _, e⟩ := s.tileError_shape t cls src cause addr; rw [e]
@[simp] theorem State.tileError_sb : (s.tileError t cls src cause addr).sb = s.sb := by obtain ⟨_, _, _, _, e⟩ := s.tileError_shape t cls src cause addr; rw [e]
@[simp] theorem State.tileError_boot : (s.tileError t cls src cause addr).boot = s.boot := by obtain ⟨_, _, _, _, e⟩ := s.tileError_shape t cls src cause addr; rw [e]
@[simp] theorem State.tileError_pins : (s.tileError t cls src cause addr).pins = s.pins := by obtain ⟨_, _, _, _, e⟩ := s.tileError_shape t cls src cause addr; rw [e]
@[simp] theorem State.tileError_freeCtr : (s.tileError t cls src cause addr).freeCtr = s.freeCtr := by obtain ⟨_, _, _, _, e⟩ := s.tileError_shape t cls src cause addr; rw [e]
@[simp] theorem State.tileError_pending : (s.tileError t cls src cause addr).pending = s.pending := by obtain ⟨_, _, _, _, e⟩ := s.tileError_shape t cls src cause addr; rw [e]
end

/-! ### Charges (R420, R421) -/

theorem State.topUp_shape (s : State) (t n : Nat) : ∃ x g, s.topUp t n = { s with tiles := x, gov := g } := by
  unfold State.topUp State.setPool
  dsimp only
  split
  · exact ⟨_, _, rfl⟩
  · split <;> exact ⟨_, _, rfl⟩

/-- Everything a charge can do: it is met, and taken from the account, or it waits with the top-ups received. -/
theorem State.charge_cases (s : State) (t : Nat) (c : ChargeClass) (n : Nat) :
    let u := s.topUp t (n - (s.tile t).acct.avail c)
    (n ≤ (u.tile t).acct.avail c ∧ s.charge t c n =
      (true, { u.onTile t (fun x => { x with acct := x.acct.take c n }) with gov := { u.gov with spent := u.gov.spent + n } })) ∨
    (¬ n ≤ (u.tile t).acct.avail c ∧ s.charge t c n = (false, u)) := by
  simp only [State.charge]
  split
  · next h => exact .inl ⟨h, rfl⟩
  · next h => exact .inr ⟨h, rfl⟩

theorem State.charge_shape (s : State) (t : Nat) (c : ChargeClass) (n : Nat) :
    ∃ x g, (s.charge t c n).2 = { s with tiles := x, gov := g } := by
  obtain ⟨x, g, e⟩ := s.topUp_shape t (n - (s.tile t).acct.avail c)
  rcases s.charge_cases t c n with ⟨_, h⟩ | ⟨_, h⟩
  · rw [h, e]; exact ⟨_, _, rfl⟩
  · rw [h, e]; exact ⟨_, _, rfl⟩

section
variable (s : State) (t : Nat) (c : ChargeClass) (n : Nat)
@[simp] theorem State.charge_ident : (s.charge t c n).2.ident = s.ident := by obtain ⟨_, _, e⟩ := s.charge_shape t c n; rw [e]
@[simp] theorem State.charge_objs : (s.charge t c n).2.objs = s.objs := by obtain ⟨_, _, e⟩ := s.charge_shape t c n; rw [e]
@[simp] theorem State.charge_cloaks : (s.charge t c n).2.cloaks = s.cloaks := by obtain ⟨_, _, e⟩ := s.charge_shape t c n; rw [e]
@[simp] theorem State.charge_mem : (s.charge t c n).2.mem = s.mem := by obtain ⟨_, _, e⟩ := s.charge_shape t c n; rw [e]
@[simp] theorem State.charge_coh : (s.charge t c n).2.coh = s.coh := by obtain ⟨_, _, e⟩ := s.charge_shape t c n; rw [e]
@[simp] theorem State.charge_collars : (s.charge t c n).2.collars = s.collars := by obtain ⟨_, _, e⟩ := s.charge_shape t c n; rw [e]
@[simp] theorem State.charge_fab : (s.charge t c n).2.fab = s.fab := by obtain ⟨_, _, e⟩ := s.charge_shape t c n; rw [e]
@[simp] theorem State.charge_hedom : (s.charge t c n).2.hedom = s.hedom := by obtain ⟨_, _, e⟩ := s.charge_shape t c n; rw [e]
@[simp] theorem State.charge_fuses : (s.charge t c n).2.fuses = s.fuses := by obtain ⟨_, _, e⟩ := s.charge_shape t c n; rw [e]
@[simp] theorem State.charge_fw : (s.charge t c n).2.fw = s.fw := by obtain ⟨_, _, e⟩ := s.charge_shape t c n; rw [e]
@[simp] theorem State.charge_unlock : (s.charge t c n).2.unlock = s.unlock := by obtain ⟨_, _, e⟩ := s.charge_shape t c n; rw [e]
@[simp] theorem State.charge_dict : (s.charge t c n).2.dict = s.dict := by obtain ⟨_, _, e⟩ := s.charge_shape t c n; rw [e]
@[simp] theorem State.charge_sb : (s.charge t c n).2.sb = s.sb := by obtain ⟨_, _, e⟩ := s.charge_shape t c n; rw [e]
@[simp] theorem State.charge_logs : (s.charge t c n).2.logs = s.logs := by obtain ⟨_, _, e⟩ := s.charge_shape t c n; rw [e]
@[simp] theorem State.charge_boot : (s.charge t c n).2.boot = s.boot := by obtain ⟨_, _, e⟩ := s.charge_shape t c n; rw [e]
@[simp] theorem State.charge_pins : (s.charge t c n).2.pins = s.pins := by obtain ⟨_, _, e⟩ := s.charge_shape t c n; rw [e]
@[simp] theorem State.charge_freeCtr : (s.charge t c n).2.freeCtr = s.freeCtr := by obtain ⟨_, _, e⟩ := s.charge_shape t c n; rw [e]
@[simp] theorem State.charge_pending : (s.charge t c n).2.pending = s.pending := by obtain ⟨_, _, e⟩ := s.charge_shape t c n; rw [e]
end

/-- Paid work: it is done on a state that differs from `s` in the account and the pools alone, or it waits. -/
theorem State.paid_cases (s : State) (t : Nat) (c : ChargeClass) (n : Nat) (f : State → State) :
    s.paid t c n f = f (s.charge t c n).2 ∨ s.paid t c n f = (s.charge t c n).2 := by
  unfold State.paid
  split
  · next h => left; rw [h]
  · next h => right; rw [h]

/-! ### Lines in memory -/

theorem State.countStarted_shape (s : State) (a n : Nat) : ∃ x, s.countStarted a n = { s with mem := { s.mem with started := x } } := by
  unfold State.countStarted; split <;> exact ⟨_, rfl⟩

theorem State.countBytes_shape (s : State) (a n : Nat) (w : Bool) :
    ∃ o x, s.countBytes a n w = { s with objs := o, mem := { s.mem with started := x } } := by
  obtain ⟨x, e⟩ := s.countStarted_shape a n
  unfold State.countBytes
  rw [e]
  dsimp only
  split
  · obtain ⟨o, h⟩ := State.bumpShared_shape { s with mem := { s.mem with started := x } } (if w then 0x1921 else 0x1920) (hbmStack a + 1) n
    exact ⟨o, x, h⟩
  · exact ⟨_, _, rfl⟩

/-- A count of bytes leaves the bytes and the errors of memory as they are. -/
@[simp] theorem State.countBytes_bytes (s : State) (a n : Nat) (w : Bool) : (s.countBytes a n w).mem.bytes = s.mem.bytes := by
  obtain ⟨_, _, e⟩ := s.countBytes_shape a n w; rw [e]
@[simp] theorem State.countBytes_bad (s : State) (a n : Nat) (w : Bool) : (s.countBytes a n w).mem.bad = s.mem.bad := by
  obtain ⟨_, _, e⟩ := s.countBytes_shape a n w; rw [e]

section
variable (s : State) (a n : Nat) (w : Bool)
@[simp] theorem State.countBytes_ident : (s.countBytes a n w).ident = s.ident := by obtain ⟨_, _, e⟩ := s.countBytes_shape a n w; rw [e]
@[simp] theorem State.countBytes_tiles : (s.countBytes a n w).tiles = s.tiles := by obtain ⟨_, _, e⟩ := s.countBytes_shape a n w; rw [e]
@[simp] theorem State.countBytes_cloaks : (s.countBytes a n w).cloaks = s.cloaks := by obtain ⟨_, _, e⟩ := s.countBytes_shape a n w; rw [e]
@[simp] theorem State.countBytes_coh : (s.countBytes a n w).coh = s.coh := by obtain ⟨_, _, e⟩ := s.countBytes_shape a n w; rw [e]
@[simp] theorem State.countBytes_collars : (s.countBytes a n w).collars = s.collars := by obtain ⟨_, _, e⟩ := s.countBytes_shape a n w; rw [e]
@[simp] theorem State.countBytes_gov : (s.countBytes a n w).gov = s.gov := by obtain ⟨_, _, e⟩ := s.countBytes_shape a n w; rw [e]
@[simp] theorem State.countBytes_fab : (s.countBytes a n w).fab = s.fab := by obtain ⟨_, _, e⟩ := s.countBytes_shape a n w; rw [e]
@[simp] theorem State.countBytes_hedom : (s.countBytes a n w).hedom = s.hedom := by obtain ⟨_, _, e⟩ := s.countBytes_shape a n w; rw [e]
@[simp] theorem State.countBytes_fuses : (s.countBytes a n w).fuses = s.fuses := by obtain ⟨_, _, e⟩ := s.countBytes_shape a n w; rw [e]
@[simp] theorem State.countBytes_fw : (s.countBytes a n w).fw = s.fw := by obtain ⟨_, _, e⟩ := s.countBytes_shape a n w; rw [e]
@[simp] theorem State.countBytes_unlock : (s.countBytes a n w).unlock = s.unlock := by obtain ⟨_, _, e⟩ := s.countBytes_shape a n w; rw [e]
@[simp] theorem State.countBytes_dict : (s.countBytes a n w).dict = s.dict := by obtain ⟨_, _, e⟩ := s.countBytes_shape a n w; rw [e]
@[simp] theorem State.countBytes_sb : (s.countBytes a n w).sb = s.sb := by obtain ⟨_, _, e⟩ := s.countBytes_shape a n w; rw [e]
@[simp] theorem State.countBytes_logs : (s.countBytes a n w).logs = s.logs := by obtain ⟨_, _, e⟩ := s.countBytes_shape a n w; rw [e]
@[simp] theorem State.countBytes_boot : (s.countBytes a n w).boot = s.boot := by obtain ⟨_, _, e⟩ := s.countBytes_shape a n w; rw [e]
@[simp] theorem State.countBytes_pins : (s.countBytes a n w).pins = s.pins := by obtain ⟨_, _, e⟩ := s.countBytes_shape a n w; rw [e]
@[simp] theorem State.countBytes_freeCtr : (s.countBytes a n w).freeCtr = s.freeCtr := by obtain ⟨_, _, e⟩ := s.countBytes_shape a n w; rw [e]
@[simp] theorem State.countBytes_pending : (s.countBytes a n w).pending = s.pending := by obtain ⟨_, _, e⟩ := s.countBytes_shape a n w; rw [e]
end

theorem State.memError_shape (s : State) (a : Nat) (e : LineErr) (u : Bool) (t : Nat) :
    ∃ o h l x, s.memError a e u t = { s with objs := o, hedom := h, logs := l, tiles := x } := by
  unfold State.memError
  dsimp only
  exact State.error_shape (s.bump _ _ _) _

/-- Everything the read of a line can change: byte counts, the error's records, and the mark of a corrected line. -/
theorem State.memLine_shape (s : State) (line t : Nat) :
    ∃ o h l x b w, (s.memLine line t).2 = { s with objs := o, hedom := h, logs := l, tiles := x, mem := { s.mem with bad := b, started := w } } := by
  obtain ⟨o, w, e⟩ := s.countBytes_shape (64 * line) 64 false
  unfold State.memLine
  simp only [e]
  split
  · exact ⟨_, _, _, _, _, _, rfl⟩
  · obtain ⟨o', h, l, x, e'⟩ := State.memError_shape { s with objs := o, mem := { s.mem with started := w } } (64 * line) .correctable true t
    exact ⟨o', h, l, x, _, _, by rw [e']; rfl⟩
  · next e1 _ _ =>
    obtain ⟨o', h, l, x, e'⟩ := State.memError_shape { s with objs := o, mem := { s.mem with started := w } } (64 * line) e1 true t
    exact ⟨o', h, l, x, _, _, by rw [e']⟩

/-- A line read leaves every byte of memory as it is. -/
@[simp] theorem State.memLine_bytes (s : State) (line t : Nat) : (s.memLine line t).2.mem.bytes = s.mem.bytes := by
  obtain ⟨_, _, _, _, _, _, e⟩ := s.memLine_shape line t; rw [e]

@[simp] theorem State.countBytes_writeFails (s : State) (a n : Nat) (w : Bool) : (s.countBytes a n w).mem.writeFails = s.mem.writeFails := by
  obtain ⟨_, _, e⟩ := s.countBytes_shape a n w; rw [e]

@[simp] theorem State.memError_mem (s : State) (a : Nat) (e : LineErr) (u : Bool) (t : Nat) : (s.memError a e u t).mem = s.mem := by
  obtain ⟨_, _, _, _, h⟩ := s.memError_shape a e u t; rw [h]

/-- A whole line written: its bytes are those given, unless the write fails for good. -/
@[simp] theorem State.putLine_bytes (s : State) (line : Nat) (b : Bytes) :
    (s.putLine line b).mem.bytes = if s.writeFails line = true then s.mem.bytes else memWrite s.mem.bytes (64 * line) b := by
  have e : (s.countBytes (64 * line) 64 true).writeFails line = s.writeFails line := by simp [State.writeFails]
  unfold State.putLine
  simp only [e]
  split
  · simp only [State.setBad, State.memError_mem, State.countBytes_bytes]
  · simp only [State.setBad, State.setBytes, State.countBytes_bytes]

/-- A line written keeps the canonical form of memory. -/
theorem State.putLine_wf (s : State) (line : Nat) (b : Bytes) (h : Memory.wf s.mem.bytes = true) :
    Memory.wf (s.putLine line b).mem.bytes = true := by
  rw [State.putLine_bytes]
  split
  · exact h
  · exact memWrite_wf _ _ _ h

theorem State.putMask_wf (s : State) (line t : Nat) (m : List Bool) (b : Bytes) (h : Memory.wf s.mem.bytes = true) :
    Memory.wf (s.putMask line t m b).2.mem.bytes = true := by
  unfold State.putMask
  dsimp only
  split
  · exact State.putLine_wf _ _ _ h
  · have := State.memLine_bytes s line t
    split
    · next e => rw [e] at this; exact State.putLine_wf _ _ _ (by rw [this]; exact h)
    · next e => rw [e] at this; dsimp only; rw [this]; exact h

/-- Everything a fault met on a line can change: the mark of the line, and whether its next write fails (R247, R251, R258). -/
theorem State.meet_shape (s : State) (line : Nat) (f : Option LineFault) (w : Bool) :
    ∃ b l, s.meet line f w = { s with mem := { s.mem with bad := b, writeFails := l } } := by
  unfold State.meet
  split
  · split
    · exact ⟨_, _, rfl⟩
    · split <;> exact ⟨_, _, rfl⟩
  · exact ⟨_, _, rfl⟩

/-- A fault met leaves the bytes of memory as they are. -/
@[simp] theorem State.meet_bytes (s : State) (line : Nat) (f : Option LineFault) (w : Bool) : (s.meet line f w).mem.bytes = s.mem.bytes := by
  obtain ⟨_, _, e⟩ := s.meet_shape line f w; rw [e]

/-- A request's place in its home's order changes the priority alone. -/
theorem State.order_shape (s : State) (line node : Nat) : ∃ p, s.order line node = { s with coh := { s.coh with prio := p } } := by
  unfold State.order; split <;> exact ⟨_, rfl⟩

/-- Everything the read of a line wherever it is held can change. -/
theorem State.currentLine_shape (s : State) (line r : Nat) : ∃ o h l x b w c, (s.currentLine line r).2 =
    { s with objs := o, hedom := h, logs := l, tiles := x, coh := c, mem := { s.mem with bad := b, started := w } } := by
  obtain ⟨p, e⟩ := s.order_shape line (readerNode r)
  unfold State.currentLine
  simp only [e]
  split
  · exact ⟨_, _, _, _, _, _, _, rfl⟩
  · obtain ⟨o, h, l, x, b, w, q⟩ := State.memLine_shape { s with coh := { s.coh with prio := p } } line r
    exact ⟨o, h, l, x, b, w, _, q⟩

theorem State.readEntry_shape (s : State) (r pa : Nat) : ∃ o h l x b w c, (s.readEntry r pa).2 =
    { s with objs := o, hedom := h, logs := l, tiles := x, coh := c, mem := { s.mem with bad := b, started := w } } := by
  unfold State.readEntry
  dsimp only
  split
  · split <;> exact ⟨_, _, _, _, _, _, _, rfl⟩
  · split
    · exact ⟨_, _, _, _, _, _, _, rfl⟩
    · have q := s.currentLine_shape (lineOf (localOf pa)) r
      split <;> (next e => rw [e] at q; exact q)

/-- Everything the reads of a walk can change. -/
theorem State.readEntries_shape (r : Nat) (l : List Nat) : ∀ s : State, ∃ o h g x b w c,
    l.foldl (fun (s : State) a => (s.readEntry r a).2) s =
      { s with objs := o, hedom := h, logs := g, tiles := x, coh := c, mem := { s.mem with bad := b, started := w } } := by
  induction l with
  | nil => exact fun s => ⟨s.objs, s.hedom, s.logs, s.tiles, s.mem.bad, s.mem.started, s.coh, rfl⟩
  | cons a l ih =>
    intro s
    obtain ⟨o, h, g, x, b, w, c, e⟩ := s.readEntry_shape r a
    obtain ⟨o', h', g', x', b', w', c', e'⟩ := ih (s.readEntry r a).2
    exact ⟨o', h', g', x', b', w', c', by rw [List.foldl_cons, e', e]⟩

theorem State.collarInstall_shape (s : State) (t : Nat) (e : XEntry) : ∃ c, s.collarInstall t e = { s with collars := c } := by
  unfold State.collarInstall State.setCollar
  dsimp only
  split
  · exact ⟨_, rfl⟩
  · split
    · split <;> exact ⟨_, rfl⟩
    · exact ⟨_, rfl⟩

/-- Everything a walk can change (R251, R267 to R269, R273). -/
theorem State.walk_shape (s : State) (t : Nat) (c : CuffId) (ctx : U64) (kernel : Bool) (k : XKind) (va : Nat) :
    ∃ o h l x b w y d, (s.walk t c ctx kernel k va).2 =
      { s with objs := o, hedom := h, logs := l, tiles := x, collars := d, coh := y, mem := { s.mem with bad := b, started := w } } := by
  unfold State.walk
  dsimp only
  generalize s.walkAll (walkReader t c) (s.tag t) (s.cuff t c) ctx va kernel k = r
  obtain ⟨o, h, l, x, b, w, y, e⟩ := State.readEntries_shape (walkReader t c) r.2.reads s
  rw [e]
  split
  · exact ⟨_, _, _, _, _, _, _, _, rfl⟩
  · next u _ =>
    obtain ⟨d, q⟩ := State.collarInstall_shape (State.onCuff
      (State.dropFetched { s with objs := o, hedom := h, logs := l, tiles := x, coh := y, mem := { s.mem with bad := b, started := w } }
        (fun a => (r.2.reads.map localOf).contains a)) t c (fun v => (v.installPtrs (ctxAsid ctx) va r.2.ptrs).install u)) t u
    exact ⟨o, h, l, _, b, w, _, d, by rw [q]; rfl⟩
  · exact ⟨o, h, l, x, b, w, _, _, rfl⟩

/-- Everything the look-up of an access can change (R271, R273). -/
theorem State.translated_shape (s : State) (t : Nat) (c : CuffId) (ctx : U64) (kernel : Bool) (k : XKind) (v : U64) :
    ∃ o h l x b w y d, s.translated t c ctx kernel k v =
      { s with objs := o, hedom := h, logs := l, tiles := x, collars := d, coh := y, mem := { s.mem with bad := b, started := w } } := by
  unfold State.translated
  dsimp only
  split
  · exact ⟨_, _, _, _, _, _, _, _, rfl⟩
  · split
    · exact ⟨_, _, _, _, _, _, _, _, rfl⟩
    · split
      · exact ⟨_, _, _, _, _, _, _, _, rfl⟩
      · obtain ⟨o, h, l, x, b, w, y, d, q⟩ := State.walk_shape ((s.onTile t (fun x => x.countXl 0)).onTile t (fun x => x.countXl 1)) t c ctx kernel k (vaOf v)
        exact ⟨o, h, l, x, b, w, y, d, by rw [q]; rfl⟩

/-- A look-up leaves every byte of memory as it is. -/
@[simp] theorem State.translated_bytes (s : State) (t : Nat) (c : CuffId) (ctx : U64) (kernel : Bool) (k : XKind) (v : U64) :
    (s.translated t c ctx kernel k v).mem.bytes = s.mem.bytes := by
  obtain ⟨_, _, _, _, _, _, _, _, e⟩ := s.translated_shape t c ctx kernel k v; rw [e]

/-- Everything a write of another unit into a Pocket can change (R72). -/
theorem State.pocketWrite_shape (s : State) (t a : Nat) (b : Bytes) : ∃ x n, s.pocketWrite t a b = { s with tiles := x, freeCtr := n } := by
  unfold State.pocketWrite
  dsimp only
  split <;> exact ⟨_, _, rfl⟩

@[simp] theorem State.pocketWrite_mem (s : State) (t a : Nat) (b : Bytes) : (s.pocketWrite t a b).mem = s.mem := by
  obtain ⟨_, _, e⟩ := s.pocketWrite_shape t a b; rw [e]

end Sys2Proof.Machine
end

