-- ==== Sys2Proof/WellFormed.lean ====
section
/-!
DEFINITION. WellFormed.lean: the commands that can be sent. Most operands are bounded by their types; what is checked here is
what the types leave open: the Cloak that a principal stands for, the numbers of granules and lines, and the lengths of the
byte strings and of the lists of readings that a command carries.
-/
namespace Sys2Proof

/-- C is the owner of a Cloak 1 to 64 (R34, R42). -/
def Principal.wf : Principal → Bool
  | .c k => decide (1 ≤ k) && decide (k ≤ 64)
  | _ => true

def GSrc.wf : GSrc → Bool
  | .window p _ _ => p.wf
  | .bundle => true

/-- The principal that a command names. -/
def Instr.principal : Instr → Option Principal
  | .create p _ _ _ => some p
  | .addTiles p _ _ => some p
  | .addGranules p _ _ => some p
  | .load p _ _ _ _ => some p
  | .finalise p _ => some p
  | .start p _ => some p
  | .stop p _ => some p
  | .resume p _ => some p
  | .destroy p _ => some p
  | .reclaimGranules p _ _ => some p
  | .exit p _ => some p
  | .releaseGranules p _ _ => some p
  | .rotateKey p _ => some p
  | .report p _ _ _ => some p
  | .getseal p _ _ => some p
  | .lalloc p _ _ => some p
  | .lfree p _ _ _ => some p
  | .lread p _ _ _ => some p
  | .glideResume p _ _ => some p
  | .glideAbort p _ _ => some p
  | .gateWrite p _ _ _ => some p
  | .gateovfClear p _ _ => some p
  | .gateunderClear p _ _ => some p
  | .sctlWrite p _ _ _ => some p
  | .svalWrite p _ _ _ => some p
  | .svalRead p _ _ => some p
  | .shootdownTailWrite p _ => some p
  | .shootdownRingEnable p _ => some p
  | .portControlWrite p _ _ => some p
  | .hedomLinkControlWrite p _ => some p
  | .reductionEnable p _ _ => some p
  | .rcfgWrite p _ _ => some p
  | .hidxWrite p _ _ => some p
  | .didxWrite p _ _ => some p
  | .dbpendClear p _ _ _ => some p
  | .vctlWrite p _ _ => some p
  | .updateOpen p => some p
  | .updateDataWrite p _ _ => some p
  | .finish p => some p
  | .updateAbort p => some p
  | .commit p => some p
  | .unlockChallengeRead p => some p
  | .unlockTokenWrite p _ => some p
  | .holdRelease p => some p
  | .aonRestore p => some p
  | .sessionCloseWrite p _ => some p
  | .timeMark p => some p
  | .coldResetRequest p => some p
  | .mainRailsWrite p _ => some p
  | .alertAcknowledge p _ => some p
  | .clearHLog p => some p
  | .clearMLog p => some p
  | .setPointWrite p _ _ => some p
  | .traceEnableWrite p _ => some p
  | _ => none

/-- The other operands that a command carries: a Glide source's principal; 64 bytes of report data (Table 16.5); an encapsulated
key of 65 bytes with an ML-KEM ciphertext of 1,088 or none (R54); a granule of the device (R39); a line of Lining or HBM; a
reading for each of 192 tiles, 8 stacks, 8 main rails or 10 rails (R254, R424, R461); a P-256 key of 65 bytes and a signature of
64 (Table 18.2; R337). -/
def Instr.lengths : Instr → Bool
  | .gstart _ src => src.wf
  | .gcredit _ src => src.wf
  | .ghalt _ src => src.wf
  | .report _ _ d _ => decide (d.length = 64)
  | .decapsulate _ enc kem _ => decide (enc.length = 65) && (decide (kem.length = 0) || decide (kem.length = 1088))
  | .ownerChangeComplete g => decide (g < Machine.granuleCount)
  | .patrolScrub line _ => (Machine.granuleOf (64 * line)).isSome
  | .stackTemperatureReading l => decide (l.length = 8)
  | .governorTick l => decide (l.length = 192)
  | .pmbusCurrentSample a w _ _ _ => decide (a.length = 8) && decide (w.length = 8)
  | .pmbusStatusPoll mv _ => decide (mv.length = 10)
  | .hello _ _ _ qm _ => decide (qm.length = 65)
  | .proof _ _ key sig => decide (key.length = 65) && decide (sig.length = 64)
  | .rekey _ m sig => decide (m.pub.length = 65) && decide (sig.length = 64)
  | _ => true

/-- A command that can be sent. -/
def Instr.wf (i : Instr) : Bool := (match i.principal with | some p => p.wf | none => true) && i.lengths

end Sys2Proof
end

