-- ==== Sys2Proof/Tests/Slice0.lean ====
section
/-!
SUPPORT. Tests/Slice0.lean: witnesses that the hypotheses of every statement can be met, ill-formed commands that WellFormed
refuses, and the results that the spec's tables and worked examples give.
-/
open Sys2Proof Sys2Proof.Machine

set_option maxRecDepth 100000
set_option Elab.async false

/-! ### Cloaks -/

/-- A READY package, with Cloak 3 in a state of its life. -/
def w0 : State := { State.reset with boot := { st := .ready } }
def wCloak (c : Cloak) : State := w0.setCloak 3 c
/-- Tiles 5 and 7 are Cloak 3's. -/
def wTiles (c : Cloak) : State := ((wCloak c).onTile 5 (fun x => { x with owner := 3 })).onTile 7 (fun x => { x with owner := 3 })
/-- The first granules of HBM, 32768 to 32770, are Cloak 3's. -/
def wGran (c : Cloak) : State := (((wTiles c).setGranule 32768 (entAssigned 3)).setGranule 32769 (entAssigned 3)).setGranule 32770 (entAssigned 3)
def wRun (q : QCmd) (l : List Nat) : CloakRun := { q := q, todo := l, count := 4 }
def wMem (s : State) : State := s.setBytes 0x01000600000 (natLe 8 0x1122334455667788)

/-! ### Engines -/

/-- A bundle from its slots. -/
def wBundle (m0 m1 tl g c : Nat) : BitVec 256 := BitVec.ofNat 256 (m0 * 2 ^ 208 + m1 * 2 ^ 160 + tl * 2 ^ 96 + g * 2 ^ 48 + c)
/-- A running stream with the given bundles in its prefetch queue, on tile 4. -/
def wSeq (b : List (BitVec 256)) : Seq :=
  { run := some { ticket := 3, started := true, bundle := 6 }, prefetch := (List.range b.length).zip b, nextTicket := 5 }
def wEng (q : Seq) : State := w0.onTile 4 (fun x => { x with eng := { x.eng with seq := q }, acct := { x.acct with unreserved := 100000 }, core := { x.core with x := [0, 0x20, 3, 7] } })
/-- A matrix slot: operation and accumulator of pair 0, array 0. -/
def wMat (op : Nat) : Nat := op * 2 ^ 44 + 1 * 2 ^ 40
def wTail (op : Nat) : Nat := op * 2 ^ 56
/-- The state in which the bundle has begun. -/
def wBegun (s : State) : State := match s.beginHead 4 with | .open_ s => s | _ => s
def wIss (s : State) : Issuing := match (s.tile 4).eng.seq.issuing with | some x => x | none => ⟨[], [], 0, 0⟩
def wHead (s : State) : Stream := match headBundle (s.island 4) with | some (st, _, _) => st | none => {}
def wMB : BitVec 256 := wBundle (wMat 5) 0 0 0 (7 * 2 ^ 43 + 2 ^ 39 + 5)
def wMM (op : Nat) : BitVec 256 := wBundle (wMat op) 0 0 0 0
def wTB (op : Nat) : BitVec 256 := wBundle 0 0 (wTail op) 0 0
def wCB (c : Nat) : BitVec 256 := wBundle 0 0 0 0 c
def wFl (u : EngUnit) (w : Nat) : InFlight := { unit := u, slot := 0, word := w, issue := 7, occ := 4, land := 13, strict := false }

/-! ### Scalar accesses -/

/-- Tile 4 with x registers, memory tokens and Pocket bytes. -/
def wCore (x : List U64) : State := w0.onTile 4 (fun y => { y with
  core := { y.core with x := 0 :: x, f := [7, 8, 9], fcsr := 0x2000 }
  pocket := [(8, 0x80), (9, 1), (10, 2), (11, 0xFF), (12, 4), (13, 5), (14, 6), (15, 0x87), (16, 1)]
  acct := { y.acct with unreserved := 100000 } })
/-- A base register: Pocket byte 4, or HBM byte 0x01000000010. -/
def wPk (o : Nat) : State := wCore [BitVec.ofNat 64 (0x1FFFFFFFFE00000 + o), 5, 9, 0xFFFFFFFF80000001]
def wHb (o : Nat) : State := wCore [BitVec.ofNat 64 (0x01000000000 + o), 5, 9, 0xFFFFFFFF80000001]
def wL2 (o : Nat) (st : LineSt) : State := (wHb o).onTile 4 (fun y => { y with l2 := { y.l2 with lines := [(localOf 0x01000000000 / 64, { st := st, data := (List.range 64).map (BitVec.ofNat 8) })] } })
def wBad : State := wCore [0xFFFF000000000, 5, 9]

/-! ### Vectors -/

/-- An instruction in the vector queue, and tile 4 with it at the head: vl 3 of 32-bit elements unless changed. -/
def wV (k : VKind) (z scalar : Bool) : VInstr := { kind := k, vd := 8, vsa := 2, vsb := 3, pg := 1, z := z, scalar := scalar }
def wE (k : VKind) (z : Bool) : VEntry := { i := wV k z false, pc := 0x80, xa := 0x1FFFFFFFFE00008, xb := 4, fb := 0, tctx := 0, kernel := true }
def wL (l : Lvu) : State := (wPk 4).onTile 4 (fun y => { y with lvu := l, acct := { y.acct with unreserved := 100000 } })
def wReg (l : List Nat) : BitVec 8192 := BitVec.ofNat 8192 (packElems 32 l)
def wLvu (e : VEntry) : Lvu :=
  { queue := [e, e], vl := 3, vtype := 2, vcsr := 0x2000, p := [0, 5, 3, 6]
    v := [0, 0, wReg [1, 0x3F800000, 0xFFFFFFFF, 7], wReg [4, 0x3F800000, 2, 9], 0, 0, 0, 0, wReg [9, 9, 9, 9], wReg [3, 3]] }
def wVec (k : VKind) (z : Bool) : State := wL (wLvu (wE k z))

/-- What the fault of the first element of a VLOAD_UNIT leaves. -/
def wFault (s : State) (e : VEntry) : State :=
  match (s.vmemBegun 4 e (.load .unit)).accessFault 4 .lvu e.tctx e.kernel .read (elemVa (s.tile 4).lvu e .unit 0) 4 with
  | some (_, _, u) => u
  | none => s
/-! ### Thread groups -/

/-- Lane `l` of a register holds `f l`. -/
def wLanes (f : Nat → Nat) : BitVec 2048 := BitVec.ofNat 2048 (packElems 32 ((List.range 64).map f))
/-- A group whose threads 0, 1, 3 and 63 run, with registers g0 to g15. -/
def wG : Group :=
  { ticket := 5, pc := 0x2000, running := 0x800000000000000B, live := 0x800000000000000B
    regs := [wLanes (fun l => l), wLanes (fun l => 3 - l), wLanes (fun l => 0xFFE00000 + 8 * l), wLanes (fun _ => 0x01FFFFFF), wLanes (fun l => 0xFFFFFFF0 + l), wLanes (fun l => l * l % 7)] }
def wDiv : Group := { wG with running := 3, stack := [.path 0x3000 8, .mark 0x4000 0x800000000000000B] }
def wBlock : Block := { ticket := 5, entry := 0x2000, arg := 0x1122334455667788, nregu := 32, pocket := 1, base := 65536, gateBase := 4, ngates := 3, event := true, slots := [2] }
/-- Tile 4 with the group in slot 2. -/
def wGroup (x : Group) : State := (wPk 4).onTile 4 (fun y => { y with
  core := { y.core with x := [0, 5, 5, 3] }
  grp := { y.grp with slots := [none, none, some x], resident := [wBlock], nextTicket := 6, gates := [0, 0, 0, 0, 0, 9], areaSize := 8 } })
def wBar : Group := { wG with running := 0, stack := [.barrier 0x2008 0x800000000000000B false 3], park := none }
def wParked : Group := { wG with park := some { cause := 1, addr := 0x123, flane := 3 }, wdog := 5 }
def wJob : GCopyJob := { id := 7, ticket := 5, slot := 2, va := 0x1000, off := 65536, len := 4096, store := false, gate := 5, cursor := 4096 }
def wJobs (j : GCopyJob) : State := (wGroup wG).onTile 4 (fun y => { y with grp := { y.grp with copies := [j] } })

def wFaulted : State := ((((wGroup wG).gmemBegun 4 2 wG wBlock ⟨.load 2 true 9, 3, true, 0⟩ .read).accessFault 4 .lvu wBlock.tctx wBlock.kernel .read (wG.va ⟨.load 2 true 9, 3, true, 0⟩ 0) 4).map (·.2.2)).getD {}
/-! ### Glide -/

/-- A bundle with a Glide slot. -/
def wGB (op : Nat) : BitVec 256 := wBundle 0 0 0 (op * 2 ^ 44 + 3 * 2 ^ 40 + 2 ^ 26 + 5 * 2 ^ 20 + 2) 0
/-- A plain descriptor: rows of 16 bytes, two rows, two tiles, ring of 256-byte slots at Pocket 4096; credit 1. -/
def wDesc : List U64 := [0x01000000010, 4096, BitVec.ofNat 64 (2 ^ 48 + 64), BitVec.ofNat 64 (2 ^ 48 + 512), 0, 0, BitVec.ofNat 64 (15 + 2 ^ 34 + 5 * 2 ^ 40 + 2 ^ 47), 0]
def wStream (x : GStream) : State := w0.onTile 4 (fun y => { y with
  acct := { y.acct with unreserved := 1000 }
  glide := { y.glide with streams := [{}, {}, {}, x], stitch := [{ en := true, stream := 3, alive := 2 }] } })
def wRunning : GStream := { state := .running, desc := wDesc, credit := 1 }
/-- The descriptor's words at Pocket byte 64. -/
def wStart : State := w0.onTile 4 (fun y => { y with pocket := ringWrite 2097152 [] 64 (wDesc.flatMap (fun w => natLe 8 w.toNat)) })

/-! ### Translation and coherence -/

/-- The device READY with its rails up. -/
def wUp : State := { w0 with boot := { st := .ready, rails := 8 } }
/-- Tile 4 with the given translation state. -/
def wX (x : Xlat) : State := (wCore [0x12345000, 5, 9]).onTile 4 (fun y => { y with xlat := x })
def wEntry (v : Nat) : XEntry := { size := 0, vpage := v * 4096, ppage := 0x01000000000, asid := 5, shr := false, g := false, u := true, x := true, w := true, r := true }
def wMiss (walking : Bool) : Miss := { row := .core, va := 0x12345678, tctx := 0x8000000000000005, kernel := true, kind := .read, walking := walking }
def wColl : CollarEntry := ⟨0, w0.collarSet 0 0 (wEntry 0x12345) 5, wEntry 0x12345⟩
def wWalk : Miss := { wMiss true with tctx := BitVec.ofNat 64 (2 ^ 63 + 0x01000000000 / 4096 * 2 ^ 16 + 5) }
/-- A page table at granule 32768: one leaf of 1 GiB for addresses 0 to 2^30 - 1. -/
def wTable (leaf : Nat) : State :=
  ((wX { misses := [wWalk] }).setBytes 0x01000000000 (natLe 8 (1 + 0x01000001000 / 4096 * 2 ^ 12))).setBytes 0x01000001000 (natLe 8 (1 + 0x01000002000 / 4096 * 2 ^ 12)) |>.setBytes 0x01000002000 (natLe 8 leaf)
/-- What the walk of wWalk gives. -/
def wZ (s : State) : Except Xl XEntry := (s.walkAll (walkReader 4 .core) (s.tag 4) (s.cuff 4 .core) wWalk.tctx 0x12345678 true .read).1
/-- The walk of wWalk, whose first entry an L2 may hold dirty. -/
def wWait : State := let s := wTable 7; { s with coh := { s.coh with filter := [(0x01000000000 / 64, { owner := some 9 })] } }
theorem waits_of {e : Except Xl XEntry} {a : Nat} (h : (match e with | .error (.wait x) => decide (x = a) | _ => false) = true) :
    e = .error (.wait a) := by
  split at h <;> simp_all
theorem gives_of {e : Except Nat Bytes} {r : Bytes} (h : (match e with | .ok x => decide (x = r) | _ => false) = true) : e = .ok r := by
  split at h <;> simp_all
/-- The shoot-down ring of four records at HBM byte 0x01000600000. -/
def wShoot : State := ((((((wX { core := { entries := [wEntry 1, wEntry 2] } }).setObj 0x1A01 1 0x01000600000).setObj 0x1A01 2 4).setObj 0x1A01 3 8).setObj 0x1A01 4 7).setObj 0x1A01 5 1).setBytes 0x01000600030 (natLe 8 0x1000 ++ natLe 2 5 ++ [0]) |> fun s => { s with collars := { s.collars with shooting := true } }
def wRec (s : State) : Bytes := match s.shootRecord 7 with | .ok r => r | _ => []
def wLine : BitVec 38 := 0x01000600000 / 64
/-- A message of tile 4 on its way to the home. -/
def wMsg (k : MsgKind) : Msg := { kind := k, line := 0x01000600000 / 64, src := 4, dst := homeNode, op := some .add, a := 5, off := 8, size := 8, mask := List.replicate 63 false ++ [true], data := List.replicate 64 9 }
def wNet (m : Msg) (f : Filter) : State := { wMem w0 with coh := { net := [{ m with line := 7 }, m], filter := [(0x01000600000 / 64, f)] } }
def wTo (k : MsgKind) : Msg := { kind := k, line := 0x01000600000 / 64, src := homeNode, dst := 4, req := 9, data := List.replicate 64 9 }
def wAt (m : Msg) (l : L2) : State := (wNet m {}).onTile 4 (fun y => { y with l2 := l })
def wLn (st : LineSt) : L2 := { lines := [(0x01000600000 / 64, { st := st, data := List.replicate 64 3 })] }
def wOut (wr : Bool) : Outstanding := { line := 0x01000600000 / 64, write := wr, addr := 0x01000600008, size := 4, dest := if wr then .store else .xreg 3 4 true }
def wHand (m : Msg) (x : Txn) (f : Filter) : State := let s := wNet m f; { s with coh := { s.coh with hand := [(0x01000600000 / 64, x)] } }
def wSt (s : State) : State := s.onTile 4 (fun y => { y with core := { y.core with storeQ := [⟨0x01000600008, [1, 2, 3, 4], false⟩] } })

/-! ### Links -/
def wPort (n : Nat) (x : Port) : State := (({ wUp with boot := { st := .ready, rails := 8, routerOk := true } }).setObj 0x1C00 2 1).setPort n x
def wHed (x : Port) : State := { wUp with hedom := { link := x } }
def wUpPort (k : LinkKind) : Port := { st := .up, credits := (fullCredits k).map (fun c => c - c / 2), pool := k.pool - 9, seq := 7, ack := 4, replay := [⟨5, 0, false, 0, [1], 15⟩, ⟨6, 0, false, 0, [2], 15⟩] }
/-- A flit of the Hedom link whose CRC is right. -/
def wFlit (vc : Fin 8) (seq : BitVec 16) (rtry : Bool) (scnt : BitVec 11) (body : Bytes) : Flit :=
  let f : Flit := { seq := seq, ack := 5, vc := vc, cls := false, fpo := 0, kph := 0, rtry := rtry, cvc := 1, ccls := false, ccnt := 3, scnt := scnt, body := body ++ List.replicate (244 - body.length) 0, tag := 0, syms := 6, words := 1, bad := false }
  { f with tag := BitVec.ofNat 64 (crc32c (Sys2Proof.Machine.Flit.header hedomLink f ++ f.body)) }
def wRdPkt : Packet := { opc := 4, len := 8, tag := 77, addr := 0x123400 }
def wFlBody (f : Flit) : Bytes := f.body
def wFlit4 (vc : Fin 8) (seq : BitVec 16) (rtry : Bool) : Flit :=
  let f : Flit := { wFlit vc seq rtry 0 [] with ack := 4 }
  { f with tag := BitVec.ofNat 64 (crc32c (Sys2Proof.Machine.Flit.header hedomLink f ++ f.body)) }
/-- The counts of a peer for which the sums of R320 hold, and for which they do not. -/
def wPeer (k : LinkKind) (x : Port) : LinkCounts :=
  { credits := (List.range 15).map k.room, flying := [], buffered := (List.range 15).map (fun i => k.room i - (if i = 14 then x.pool else tabGet 0 x.credits i)), back := [], ack := 6 }
def wNoPeer : LinkCounts := { credits := [], flying := [], buffered := [], back := [], ack := 0 }
def wRekey : RekeyMsg := { chain := [1], report := [2], random := 9, port := 31, pub := [4] }
/-! ### Fabric packets -/
/-- Where only one port of a route is UP, a packet leaves by it, whatever the hash over the ports is. -/
theorem egress_of_one (s : State) (p : Packet) (q : Nat) (h : bit (s.routeEntry p.dpid) 31 = true)
    (h1 : (routePorts (s.routeEntry p.dpid)).filter (fun x => decide ((s.port x).st = .up)) = [q]) : s.egress p = some q := by
  simp [State.egress, h, h1, Nat.mod_one]

/-- Package 5, with a route to package 9 through port 2, which is UP. -/
def wFabric (f : Fabric) : State :=
  ((((({ wMem wUp with fab := f, gov := { wUp.gov with shared := 1000 } }).setObj 0x1C00 1 5).setObj 0x1C00 2 1).setObj 0x1D00 10 (2 ^ 31 + 2 * 2 ^ 9)).setPort 2 { st := .up, credits := fullCredits fabricLink, pool := 100 })
def wReq (opc : Nat) : Packet := { dpid := 5, spid := 9, opc := opc, len := 8, tag := 77, hops := 3, addr := 0x01000600000, data := if opc = 1 then [] else if opc = 3 then atomData .add 8 6 0 else [1, 2, 3, 4, 5, 6, 7, 8] }
def wRsp (opc : Nat) : Packet := { dpid := 5, spid := 9, opc := opc, len := 8, tag := 77, data := [0xF1, 2, 3, 4] }
def wTx (d : Dest) : RTxn := ⟨77, .core 4 d, 1, 0x600000, 4, [], 9, 0⟩
/-- A tree of root 9 with parent 9, and an ACTIVE entry for it (INT32, two 4 KiB units at 0x01000600000). -/
def wTree (children : Nat) : Nat := 9 * 2 ^ 116 + 9 * 2 ^ 104 + children * 2 ^ 100 + 11
def wEntryRed (one : Bool) (st : Nat) : Nat := 0x01000600 * 2 ^ 96 + 1 * 2 ^ 78 + 9 * 2 ^ 66 + 10 * 2 ^ 38 + (if one then 2 ^ 37 else 0) + 2 ^ 36 + st * 2 ^ 33
def wRed (n : Nat) (one : Bool) (f : Fabric) : State := ((wFabric f).setObj 0x1C20 1 (wTree n)).setObj 0x1C30 1 (wEntryRed one 1)
def wRedPkt (opc src : Nat) : Packet := { dpid := 5, spid := src, opc := opc, len := 256, addr := 0x01000600100, data := List.replicate 256 3 }
def wChunk : RedChunk := { entry := 0, chunk := 1, acc := List.replicate 64 9, from_ := [5] }
/-- What an entry becomes when it is written, and the state in which the operation has been counted. -/
def wNew (s : State) (i : Fin 64) (v : BitVec 128) : Nat :=
  let e := v.toNat / 2 ^ 37 * 2 ^ 37
  let old := s.redEntry i.val
  let used := sumNat ((List.range 64).map (fun j => if j ≠ i.val ∧ redState (s.redEntry j) = 1 then redStore (s.redEntry j) else 0))
  if !v.getLsbD 36 then (if s.redBad .h e then e + 4 * 2 ^ 33 else e) else if redState old = 1 ∨ redState old = 3 then old else if s.redBad .h e then e + 4 * 2 ^ 33
    else if 32 < used + (if redFmt e = 3 ∨ redFmt e = 4 then 2 else 1) then e + 2 * 2 ^ 33 else e + 2 ^ 36 + 2 ^ 33
def wRedS (s : State) (i : Fin 64) (v : BitVec 128) : State := s.countedWrite .h 0x1C30 (i.val + 1) (decide (wNew s i v ≠ v.toNat))
def wAtomNew : Bytes := natLe 8 0x112233445566778E
/-! ### Host packets, rings and vectors -/
def wHostIn (l : List Packet) : State := { wMem wUp with gov := { wUp.gov with shared := 1000 }, hedom := { inbox := l, link := { st := .up, credits := fullCredits hedomLink, pool := 100 } } }
def wHp (opc a : Nat) : Packet := { opc := opc, len := 8, tag := 5, addr := a, data := if opc = 6 then atomData .add 8 6 0 else if opc = 5 then [1, 2, 3] else List.replicate 4 0xF1 }
def wHtx (d : Dest) : RTxn := ⟨5, .core 4 d, 4, 0x1000, 4, [], 0, 0⟩
def wHsnp (opc : Nat) (st : LineSt) : State := (wHostIn [wHp opc 0x40000000040]).onTile 4 (fun x => { x with l2 := { lines := [(lineOf 0x40000000040, { st := st, data := [7] })] } })
def wRing (v : Nat) : State := { wUp with hedom := { rings := [{ rcfg := BitVec.ofNat 64 v, hidx := 20, didx := 16 }], vectors := [{ mask := false, vaddr := 0x5000, data := 9 }, { mask := true, pend := true }] } }
/-! ### Identity -/
def wFw (f : Firmware) : State := { wUp with fw := f }
/-- A key pair's public key, and what it signs: a token with scope 2 and nonce 4, and the key itself. -/
def wKey : Bytes := (natBe 65 0x04088bb9ff22ab291a74c86fc677ba897baadee370cc6129b82d170ba3fc26415c442da9a716067956d91eaa02b93ad409490e87cd5e758ea6a331a1deb75ba846)
def wKeySig : Bytes := (natBe 64 0x3988322ab9f52c7f11d5d1aa92a2ac0b00275bcad8e934682257323fda672482f808b50458f21c8b9fe65cbe8480f0670c32cf91d06a0ca793ca0928aaf1729d)
def wToken : Bytes := ascii "LAPU" ++ [1, 0, 2, 0] ++ List.replicate 32 0 ++ natBe 32 4 ++ wKey ++ List.replicate 55 0 ++ (natBe 64 0x3988322ab9f52c7f11d5d1aa92a2ac0b00275bcad8e934682257323fda6724821de705f63eb661dc031bf6da9c1a685ac2508e43ca50e180627cbf66316412fd)
def wUnlockable : State := { wCloak { state := .ready } with unlock := { nonce := some 4 }, fuses := { fsHash := [Crypto.sha256 wKey] }, boot := { st := .ready, rails := 8 } }
/-! ### Mailbox and dictionary -/
def wDcmd (op len idx sub : Nat) (buf : Bool) : U64 := BitVec.ofNat 64 (op * 2 ^ 60 + 0x5A * 2 ^ 48 + len * 2 ^ 32 + (if buf then 2 ^ 31 else 0) + idx * 256 + sub)
def wMail (n : Nat) (c : U64) (d : Bytes) : State := (wMem wUp).setMslot n { busy := some c, data := d, dbuf := 0x01000600000, by_ := 4 }
def wLen (n idx sub : Nat) : Nat := Nat.min (Nat.min n 4096) (objSize idx sub)
def wVal (s : State) (p : Principal) (src idx sub : Nat) : Bytes := match catRow idx sub with | some r => s.objValue p src r idx sub | none => []
def wRow (idx sub : Nat) : ObjRow := (catRow idx sub).getD (.mk 0 0 0 0 .u8 0 0 .num 0 0 0 0)
def wMailH (n : Nat) (c : U64) (d : Bytes) (x : Option Xfer) : State :=
  ((((wMail n c d).setObj 0x1E00 3 0x200000).setObj 0x1E00 4 4).setObj 0x1E00 5 1).setMslot n { busy := some c, data := d, dbuf := 0x40000000100, by_ := 4 } |>.setXfer x
def wDict : State := wUp.setSession 2 { st := .opened, sid := 7 }
/-! ### Side-band -/
def wSb (i : Nat) (x : Session) : State := wUp.setSession i x
def wOpen : Session := { st := .opened, sid := 7, mac := 0x112233445566, keyIn := 5, keyOut := 6, saltIn := 1, saltOut := 2, txCnt := 3, lastCnt := 8, idle := 0 }
/-- A request frame for session 0 of a state, with counter `cnt`. -/
def wFrame (s : State) (type : Nat) (cnt : BitVec 32) (b : Bytes) : SbIn :=
  let x := s.session 0
  let aad := s.frameAad s.fuses.mac 0x112233445566 type x.sid.toNat cnt.toNat b.length
  { mac := 0x112233445566, sid := x.sid, cnt := cnt, body := b, tag := Crypto.gcmTag x.keyIn.toNat (x.saltIn.toNat * 2 ^ 64 + cnt.toNat) aad (Crypto.gcmOpen x.keyIn.toNat (x.saltIn.toNat * 2 ^ 64 + cnt.toNat) aad b), dst := s.fuses.mac }
/-- The headers of a frame from that manager to the device of a state. -/
def wHdr (s : State) (enrol : Bool) : SbHead := { mac := 0x112233445566, dst := s.fuses.mac, len := 4, room := 46, enrol := enrol }
def wBody (op flags idx sub len off period : Nat) (d : Bytes) : Bytes := natLe 1 op ++ natLe 1 flags ++ natLe 2 idx ++ natLe 1 sub ++ [0] ++ natLe 2 len ++ natLe 2 off ++ natLe 2 period ++ d
def wS : State := wSb 0 wOpen
/-- A challenged slot of the manager; its credential is not stored, and stored. -/
def wProof : State := wSb 1 { st := .setup, sid := 5, mac := 0x112233445566, challenged := true, cred := 2 }
def wProofK : State := { wProof with dict := { creds := [none, some (Crypto.sha256 wKey)] } }
/-! ### Energy and readings -/
def wGov (g : Governor) : State := { (wUp.onTile 4 (fun x => { x with owner := 3, acct := { array := 9, core := 4, unreserved := 7 } })) with gov := g, cloaks := { table := [{}, {}, {}, { state := .running }] } }
def wCoarse (c : Coarse) : State := { wUp with cloaks := { coarse := c }, gov := { tick := 200000 }, logs := { held := [{ cloak := 3, cls := 4 }, { cloak := 3, cls := 5 }], uncorr := 4 } }
def wSums : Kv (Int × Nat) := [(pairOf 0x1902 3, (41, 2)), (pairOf 0x2105 1, (1234, 3)), (pairOf 0x2302 9, (-13, 2))]
/-! ### Resets and start-up -/
def wBoot (b : Boot) : State := { wUp with boot := b, pins := { pkgId := 77, sbNode := 3, uart := ["x"], setPending := [2], vrails := [900, 1] } }
def wKept (b : Boot) : State := ({ wBoot b with dict := { hold := [(5, true)] }, gov := { uptime := 44 }, freeCtr := 3 }.setObj 0x2000 2 9).setObj 0x2203 1 90
def wFlashSlot : State := { (wBoot { step := 4 }) with fw := { flash := [] } }
def wTest (f : List U32) (h : Fin 4) : SelfTest := { fails := f, rows := [9], cols := [], hedom := h, ms := 3100 }
def wFloor : List U32 := (List.range 25).map (fun t => failRecord 8 0x10 1 t)

/-! ### Witnesses: for each statement, states and operands that meet its hypotheses -/

theorem test_met_CreateBuildsCloak :
  (∃ (s : State) (id : BitVec 8),
      s.engineFree id.toNat ∧ (s.cloak id.toNat).state = .free ∧ s.unlock.flag = false ∧ s.unlock.busy = false) :=
  ⟨w0, 3, by decide +kernel⟩

theorem test_met_ListCommandsBegin :
  (∃ (s : State) (id : BitVec 8) (map : BitVec 192) (t : Nat) (ts : List Nat),
      s.engineFree id.toNat ∧ (s.cloak id.toNat).state = .building ∧ mapTiles map = t :: ts ∧ (∀ x ∈ mapTiles map, s.fenced x
      = false ∧ s.tag x = 0 ∧ (s.tile x).idle = true ∧ s.tileWanted x = false))
  ∧ (∃ (s : State) (id : BitVec 8) (g : Nat) (gs : List Nat),
      s.engineFree id.toNat ∧ (s.cloak id.toNat).state ∈ [CloakSt.building, .ready, .running, .stopped] ∧ (g :: gs).length ≤
      256 ∧ (g :: gs).Nodup ∧ (∀ x ∈ g :: gs, s.granuleNever x = false ∧ entState (s.granule x) = 0 ∧ s.granuleWanted x =
      false))
  ∧ (∃ (s : State) (id : BitVec 8) (g : Nat) (gs : List Nat),
      s.engineFree id.toNat ∧ (s.cloak id.toNat).state ∈ [CloakSt.ready, .running, .stopped] ∧ (g :: gs).length ≤ 256 ∧ (g ::
      gs).Nodup ∧ (∀ x ∈ g :: gs, s.granuleNever x = false ∧ s.granule x = entAssigned id.toNat))
  ∧ (∃ (s : State) (id : BitVec 8) (g : Nat) (gs : List Nat),
      s.engineFree id.toNat ∧ (s.cloak id.toNat).state = .running ∧ (g :: gs).length ≤ 256 ∧ (g :: gs).Nodup ∧ (∀ x ∈ g :: gs,
      s.granuleNever x = false ∧ s.granule x = entAssigned id.toNat)) :=
  ⟨⟨(wCloak { state := .building }), 3, (2^5+2^7), 5, [7], by decide +kernel⟩,
   ⟨(wCloak { state := .building }), 3, 40000, [40002], by decide +kernel⟩,
   ⟨((wGran { state := .ready }).setFilter 0x40000001 { owner := some 9 }), 3, 32768, [32770], by decide +kernel⟩,
   ⟨(wGran { state := .running }), 3, 32769, [], by decide +kernel⟩⟩

theorem test_met_OwnerChangeCompletes :
  (∃ (s : State) (k : Nat) (g : Nat) (r : CloakRun) (rest : List Nat) (e : BitVec 16),
      s.canonical ∧ s.cloakRuns k r ∧ r.q.by_ = .h ∧ r.todo = g :: rest ∧ g ∉ rest ∧ ((r.q.cmd.opcode = 3 ∧ e = entAssigned k
      ∨ r.q.cmd.opcode = 10 ∧ e = entOpen)) ∧ s.changing g = some (k, e) ∧ entState (s.granule g) = 2 ∧ s.granuleBusy g =
      false) :=
  ⟨((wMem (wTiles { state := .running, run := some (wRun ⟨.h, 3, .addGranules [32771, 40000]⟩ [32771, 40000]) })).setGranule
    32771 entScrub), 3, 32771, (wRun ⟨.h, 3, .addGranules [32771, 40000]⟩ [32771, 40000]), [40000], (entAssigned 3),
    by decide +kernel⟩

theorem test_met_TileAssignmentCompletes :
  (∃ (s : State) (t : TileNo) (k : Nat) (r : CloakRun) (m : BitVec 192) (rest : List Nat),
      s.canonical ∧ s.cloakRuns k r ∧ r.q.by_ = .h ∧ r.q.cmd = .addTiles m ∧ r.todo = t.val :: rest ∧ s.assigning t = some k ∧
      (∀ g ∈ sliceGranules t, s.granuleBusy g = false ∧ entState (s.granule g) ≠ 3)) :=
  ⟨((wCloak { state := .building, run := some (wRun ⟨.h, 3, .addTiles 40⟩ [5, 7]) }).onTile 5 (fun x =>
    { x with pocket := [(3, 4)] })), 5, 3, (wRun ⟨.h, 3, .addTiles 40⟩ [5, 7]), 40, [7], by decide +kernel⟩

theorem test_met_LoadCopiesAndMeasures :
  (∃ (s : State) (id : BitVec 8) (src : BitVec 44) (len : BitVec 44) (dst : BitVec 44),
      s.engineFree id.toNat ∧ (s.cloak id.toNat).state = .building ∧ (s.cloak id.toNat).loadUncorr = false ∧ ((s.rangeOpen
      src.toNat len.toNat = true ∨ s.rangeHost src.toNat len.toNat = true)) ∧ s.rangeOwned id.toNat dst.toNat len.toNat =
      true)
  ∧ (∃ (s : State) (id : BitVec 8) (data : List (BitVec 8)) (src : Nat) (len : Nat) (dst : Nat) (r : CloakRun),
      s.canonical ∧ s.cloakRuns id.toNat r ∧ r.q.by_ = .h ∧ r.q.cmd = .load src len dst ∧ ((s.hostIn src = true ∧ len ≤
      data.length ∨ s.hostIn src = false ∧ s.quietAt src len)) ∧ ((s.rangeOpen src len = true ∨ s.rangeHost src len = true)) ∧
      s.quietAt dst len ∧ 0 < len)
  ∧ (∃ (s : State) (id : BitVec 8) (data : List (BitVec 8)) (src : Nat) (len : Nat) (dst : Nat) (r : CloakRun),
      s.cloakRuns id.toNat r ∧ r.q.by_ = .h ∧ r.q.cmd = .load src len dst ∧ s.hostIn src = true ∧ data.length < len ∧
      s.rangeHost src len = true ∧ s.quietAt dst len) :=
  ⟨⟨(wGran { state := .building }), 3, 0x01000600000, 100, 0x01000000010, by decide +kernel⟩,
   ⟨(wMem (wGran { state := .building, run := some (wRun ⟨.h, 3, .load 0x01000600000 100 0x01000000010⟩ []) })), 3, [],
    0x01000600000, 100, 0x01000000010, (wRun ⟨.h, 3, .load 0x01000600000 100 0x01000000010⟩ []), by decide +kernel⟩,
   ⟨(((wGran { state := .building, run := some (wRun ⟨.h, 3, .load 0x40000000000 100 0x01000000010⟩ []) }).setObj 0x1E00 5
    1).setObj 0x1E00 4 16), 3, [1,2,3], 0x40000000000, 100, 0x01000000010, (wRun ⟨.h, 3, .load 0x40000000000 100
    0x01000000010⟩ []), by decide +kernel⟩⟩

theorem test_met_SignedCommandsComplete :
  (∃ (s : State) (id : BitVec 8),
      s.engineFree id.toNat ∧ (s.cloak id.toNat).state = .building ∧ (s.cloak id.toNat).loadUncorr = false ∧ (s.cloak
      id.toNat).loadsOk ≠ 0 ∧ s.tilesOf id.toNat ≠ [])
  ∧ (∃ (s : State) (id : BitVec 8),
      s.engineFree id.toNat ∧ (s.cloak id.toNat).state = .running)
  ∧ (∃ (s : State) (id : BitVec 8) (dst : BitVec 44),
      s.engineFree id.toNat ∧ (s.cloak id.toNat).state = .running ∧ s.rangeOwned id.toNat dst.toNat 1616 = true)
  ∧ (∃ (s : State) (k : Nat) (js : List SignJob) (r : CloakRun),
      s.fw.signing = .finalise k :: js ∧ (s.cloak k).state = .building ∧ s.boot.st ≠ .snowplough ∧ s.cloakRuns k r ∧ r.q.by_ =
      .h ∧ r.q.cmd = .finalise)
  ∧ (∃ (s : State) (k : Nat) (js : List SignJob) (r : CloakRun),
      s.fw.signing = .rotate k :: js ∧ s.boot.st ≠ .snowplough ∧ s.cloakRuns k r ∧ r.q.by_ = .c k ∧ r.q.cmd = .rotateKey)
  ∧ (∃ (s : State) (k : Nat) (dst : Nat) (rdata : Bytes) (js : List SignJob) (r : CloakRun),
      s.fw.signing = .report k rdata dst :: js ∧ s.cloakRuns k r ∧ r.q.by_ = .c k ∧ r.q.cmd = .report rdata dst ∧ s.boot.st ≠
      .snowplough ∧ s.rangeOwned k dst 1616 = true ∧ s.canonical ∧ s.quietAt dst 1616) :=
  ⟨⟨(wGran { state := .building, loadsOk := 1, hybrid := true }), 3, by decide +kernel⟩,
   ⟨(wGran { state := .running }), 3, by decide +kernel⟩,
   ⟨(wGran { state := .running }), 3, 0x01000000010, by decide +kernel⟩,
   ⟨{ wGran { state := .building, run := some (wRun ⟨.h, 3, .finalise⟩ []) } with fw := { signing := [.finalise 3, .device] } },
    3, [.device], (wRun ⟨.h, 3, .finalise⟩ []), by decide +kernel⟩,
   ⟨{ wGran { state := .running, run := some (wRun ⟨.c 3, 3, .rotateKey⟩ []) } with fw := { signing := [.rotate 3, .device] } },
    3, [.device], (wRun ⟨.c 3, 3, .rotateKey⟩ []), by decide +kernel⟩,
   ⟨{ wMem (wGran { state := .running, run := some (wRun ⟨.c 3, 3, .report [9] 0x01000000010⟩ []) }) with fw := { signing := [.report 3 [9] 0x01000000010] } },
    3, 0x01000000010, [9], [], (wRun ⟨.c 3, 3, .report [9] 0x01000000010⟩ []), by decide +kernel⟩⟩

theorem test_met_StartStopResume :
  (∃ (s : State) (id : BitVec 8) (t : Nat) (ts : List Nat),
      s.engineFree id.toNat ∧ (s.cloak id.toNat).state = .ready ∧ s.tilesOf id.toNat = t :: ts)
  ∧ (∃ (s : State) (p : Principal) (id : BitVec 8),
      s.engineFree id.toNat ∧ (s.cloak id.toNat).state = .running ∧ ((p = .h ∨ p = .m)))
  ∧ (∃ (s : State) (p : Principal) (id : BitVec 8) (r : CloakRun),
      s.cloakRuns id.toNat r ∧ r.q.by_ = p ∧ ((p = .h ∨ p = .m)) ∧ r.q.cmd = .stop ∧ (s.cloak id.toNat).state = .running ∧ (∀
      x ∈ s.tilesOf id.toNat, (s.tile x).quiet = true))
  ∧ (∃ (s : State) (p : Principal) (id : BitVec 8),
      s.engineFree id.toNat ∧ (s.cloak id.toNat).state = .stopped ∧ ((p = .m ∨ p = .h ∧ (s.cloak id.toNat).stoppedBy ≠ some
      .m))) :=
  ⟨⟨(wGran { state := .ready, entry := 0x1234 }), 3, 5, [7], by decide +kernel⟩,
   ⟨((wGran { state := .running }).setStream 7 4 { state := .running }), .m, 3, by decide +kernel⟩,
   ⟨(wGran { state := .running, run := some (wRun ⟨.m, 3, .stop⟩ []) }), .m, 3, (wRun ⟨.m, 3, .stop⟩ []), by decide +kernel⟩,
   ⟨((wGran { state := .stopped, stoppedBy := some .h }).onTile 5 (fun x => { x with halted := true })), .h, 3,
    by decide +kernel⟩⟩

theorem test_met_DestroyFreesCloak :
  (∃ (s : State) (p : Principal) (id : BitVec 8),
      s.engineFree id.toNat ∧ ((p = .h ∨ p = .m)) ∧ (s.cloak id.toNat).state ∈ [CloakSt.building, .ready, .stopped])
  ∧ (∃ (s : State) (p : Principal) (id : BitVec 8) (c : Instr) (cmd : CloakCmd),
      s.engineFree id.toNat ∧ (s.cloak id.toNat).state = .running ∧ ((c = .destroy p id ∧ cmd = .destroy ∧ (p = .h ∨ p = .m) ∨
      c = .exit p id ∧ cmd = .exit ∧ p = .c id.toNat)))
  ∧ (∃ (s : State) (id : BitVec 8),
      (s.cloak id.toNat).state = .destroying ∧ (s.cloak id.toNat).root ≠ none ∧ (∀ x ∈ s.tilesOf id.toNat, (s.tile x).quiet =
      true))
  ∧ (∃ (s : State) (id : BitVec 8) (r : CloakRun),
      s.canonical ∧ s.cloakRuns id.toNat r ∧ r.q.by_ = .h ∧ (s.cloak id.toNat).state = .destroying ∧ (s.cloak
      id.toNat).selfDestroy = false ∧ s.answersDue id.toNat = false ∧ (((s.cloak id.toNat).root = none ∨ ∀ x ∈ s.tilesOf
      id.toNat, (s.tile x).quiet = true))) :=
  ⟨⟨(wGran { state := .building, root := some 5, memKey := some 6, macKey := some 7 }), .h, 3, by decide +kernel⟩,
   ⟨((wGran { state := .running, root := some 5 }).setStream 7 4 { state := .running }), (.c 3), 3, (.exit (.c 3) 3), .exit,
    by decide +kernel⟩,
   ⟨((wGran { state := .destroying, root := some 5, memKey := some 6, macKey := some 7 }).setStream 7 4
    { key := some (4, 5) }), 3, by decide +kernel⟩,
   ⟨(((wMem (wGran { state := .destroying, root := some 4, run := some (wRun ⟨.h, 3, .destroy⟩ []) })).setObj 0x1202 3
    77).setLedger 5 { version := 2, st := .sealed, owner := 3 }), 3, (wRun ⟨.h, 3, .destroy⟩ []), by decide +kernel⟩⟩

theorem test_met_LedgerAndSeal :
  (∃ (s : State) (id : BitVec 8) (count : BitVec 32) (i : Nat),
      s.canonical ∧ s.engineFree id.toNat ∧ (s.cloak id.toNat).state = .running ∧ 0 < count.toNat ∧ count.toNat ≤ 65536 ∧
      s.ledgerHeld id.toNat + count.toNat ≤ s.obj 0x1E01 id.toNat ∧ i + count.toNat ≤ 262144 ∧ (∀ j ∈ rangeFrom i count.toNat,
      (s.ledger j).st = .free) ∧ ((∀ i', i' < i → ∃ j ∈ rangeFrom i' count.toNat, (s.ledger j).st ≠ .free)))
  ∧ (∃ (s : State) (id : BitVec 8) (first : BitVec 32) (count : BitVec 32),
      s.canonical ∧ s.engineFree id.toNat ∧ (s.cloak id.toNat).state = .running ∧ first.toNat + count.toNat ≤ 262144 ∧ (∀ j ∈
      rangeFrom first.toNat count.toNat, (s.ledger j).st ≠ .free ∧ (s.ledger j).owner = id))
  ∧ (∃ (s : State) (id : BitVec 8) (index : BitVec 32) (dst : BitVec 44),
      s.canonical ∧ s.engineFree id.toNat ∧ (s.cloak id.toNat).state = .running ∧ (s.ledger index.toNat).owner = id ∧
      s.rangeOwned id.toNat dst.toNat 16 = true ∧ s.quietAt dst.toNat 16)
  ∧ (∃ (s : State) (id : BitVec 8) (dst : BitVec 44),
      s.canonical ∧ s.engineFree id.toNat ∧ (s.cloak id.toNat).state = .running ∧ s.rangeOwned id.toNat dst.toNat 32 = true ∧
      s.quietAt dst.toNat 32) :=
  ⟨⟨(((wGran { state := .running }).setObj 0x1E01 3 20).setLedger 2 { st := .empty, owner := 4 }), 3, 6, 3,
    by decide +kernel⟩,
   ⟨((wGran { state := .running }).setLedger 2 { st := .sealed, owner := 3, version := 9 }), 3, 2, 1, by decide +kernel⟩,
   ⟨((wGran { state := .running }).setLedger 2 { st := .sealed, owner := 3, version := 9 }), 3, 2, 0x01000000010,
    by decide +kernel⟩,
   ⟨(wGran { state := .running }), 3, 0x01000000010, by decide +kernel⟩⟩

theorem test_met_DecapsulationTurns :
  (∃ (s : State) (id : BitVec 8) (dst : BitVec 44),
      1 ≤ id.toNat ∧ id.toNat ≤ 64 ∧ (s.cloak id.toNat).state = .running ∧ s.rangeOwned id.toNat dst.toNat 128 = true ∧
      (s.cloak id.toNat).decaps.length < 64)
  ∧ (∃ (s : State) (id : BitVec 8) (dst : BitVec 44),
      1 ≤ id.toNat ∧ id.toNat ≤ 64 ∧ (s.cloak id.toNat).state = .running ∧ s.rangeOwned id.toNat dst.toNat 128 = true ∧ 64 ≤
      (s.cloak id.toNat).decaps.length)
  ∧ (∃ (s : State) (i : Nat) (k : Nat) (d : Decap) (ds : List Decap),
      s.canonical ∧ 1 ≤ s.cloaks.decapNext ∧ s.cloaks.decapNext ≤ 64 ∧ i < 64 ∧ k = (s.cloaks.decapNext - 1 + i) % 64 + 1 ∧
      (s.cloak k).decaps = d :: ds ∧ ((∀ j, j < i → (s.cloak ((s.cloaks.decapNext - 1 + j) % 64 + 1)).decaps = [])) ∧
      s.rangeOwned k d.dst 128 = true ∧ s.quietAt d.dst 128)
  ∧ (∃ (s : State) (id : BitVec 8) (dst : BitVec 44),
      1 ≤ id.toNat ∧ id.toNat ≤ 64 ∧ (s.cloak id.toNat).state = .running ∧ s.rangeOwned id.toNat dst.toNat 128 = false)
  ∧ (∃ (s : State) (k : Nat) (d : Decap) (ds : List Decap),
      s.cloaks.decapNext = k ∧ 1 ≤ k ∧ k ≤ 64 ∧ (s.cloak k).decaps = d :: ds ∧ s.rangeOwned k d.dst 128 = false ∧ s.sReady
      d.dst 128 = true) :=
  ⟨⟨(wGran { state := .running }), 3, 0x01000000010, by decide +kernel⟩,
   ⟨(wGran { state := .running, decaps := List.replicate 64 ⟨[], [], 0⟩ }), 3, 0x01000000010, by decide +kernel⟩,
   ⟨(wMem (wGran { state := .running, decaps := [⟨[1], [], 0x01000000010⟩] })), 2, 3, ⟨[1], [], 0x01000000010⟩, [],
    by decide +kernel⟩,
   ⟨(wGran { state := .running }), 3, 0x01000600010, by decide +kernel⟩,
   ⟨(let s := wGran { state := .running, decaps := [⟨[1], [], 0x01000600010⟩] };
    { s with cloaks := { s.cloaks with decapNext := 3 } }), 3, ⟨[1], [], 0x01000600010⟩, [], by decide +kernel⟩⟩

theorem test_met_UnacceptedCommandsChangeNothing :
  (∃ (s : State) (c : Instr) (q : QCmd),
      cloakCommand c = some q ∧ s.engineFree q.id ∧ q.cmd.allowed q.by_ q.id = true ∧ (s.cloak q.id).state ∉ acceptedIn q.cmd
      ∧ (s.cloak q.id).state ≠ .destroying ∧ s.unlock.flag = false ∧ s.unlock.busy = false)
  ∧ (∃ (s : State) (p : Principal) (id : BitVec 8),
      s.engineFree id.toNat ∧ ((p = .h ∨ p = .m)) ∧ (s.cloak id.toNat).state = .stopped)
  ∧ (∃ (s : State) (p : Principal) (id : BitVec 8),
      s.engineFree id.toNat ∧ ((p = .h ∨ p = .m)) ∧ (s.cloak id.toNat).state = .destroying)
  ∧ (∃ (s : State) (id : BitVec 8),
      s.engineFree id.toNat ∧ (s.cloak id.toNat).state = .stopped ∧ (s.cloak id.toNat).stoppedBy = some .m)
  ∧ (∃ (s : State) (c : Instr) (q : QCmd),
      cloakCommand c = some q ∧ s.engineFree q.id ∧ q.cmd.allowed q.by_ q.id = false) :=
  ⟨⟨(wGran { state := .running }), (.finalise .h 3), ⟨.h, 3, .finalise⟩, by decide +kernel⟩,
   ⟨(wGran { state := .stopped }), .m, 3, by decide +kernel⟩,
   ⟨(wGran { state := .destroying }), .m, 3, by decide +kernel⟩,
   ⟨(wGran { state := .stopped, stoppedBy := some .m }), 3, by decide +kernel⟩,
   ⟨(wGran { state := .running }), (.exit .h 3), ⟨.h, 3, .exit⟩, by decide +kernel⟩⟩

theorem test_met_StreamCommandsOfTheCore :
  (∃ (s : State) (s1 : State) (t : TileNo) (rd : Fin 32) (ra : Fin 32) (rb : Fin 32),
      s.coreReads t [rd, ra, rb] [] = true ∧ s.storesDue t = false ∧ s.fenced? t 0 = false ∧ s.calm t ∧ (s.tile
      t).eng.seq.queue.length < 4 ∧ s.wakeArray t = (true, s1))
  ∧ (∃ (s : State) (t : TileNo) (rd : Fin 32) (ra : Fin 32) (rb : Fin 32),
      s.coreReads t [rd, ra, rb] [] = true ∧ s.storesDue t = false ∧ s.fenced? t 0 = false ∧ 4 ≤ (s.tile
      t).eng.seq.queue.length)
  ∧ (∃ (s : State) (t : TileNo) (rd : Fin 32) (ra : Fin 32) (r : Stream),
      s.coreReads t [rd, ra] [] = true ∧ (s.tile t).eng.seq.run = some r ∧ r.ticket = (s.xreg t ra).setWidth 16 ∧ (∀ x ∈
      (s.tile t).eng.seq.queue, x.ticket ≠ r.ticket))
  ∧ (∃ (s : State) (t : TileNo) (rd : Fin 32) (ra : Fin 32),
      s.coreReads t [rd, ra] [] = true ∧ (s.tile t).eng.seq.alive ((s.xreg t ra).setWidth 16) = false ∧ (∀ r ∈ (s.tile
      t).eng.seq.records, r.ticket ≠ (s.xreg t ra).setWidth 16))
  ∧ (∃ (s : State) (t : TileNo) (rd : Fin 32) (ra : Fin 32) (r : StreamRec) (rs : List StreamRec) (c : Instr),
      s.coreReads t [rd, ra] [] = true ∧ (s.tile t).eng.seq.alive ((s.xreg t ra).setWidth 16) = false ∧ (s.tile
      t).eng.seq.records = r :: rs ∧ r.ticket = (s.xreg t ra).setWidth 16 ∧ ((c = .estat t rd ra ∨ c = .ewait t rd ra)))
  ∧ (∃ (s : State) (s1 : State) (t : TileNo) (ra : Fin 32) (st : Stream) (rest : List Stream),
      s.coreReads t [ra] [] = true ∧ s.fenced? t 0 = false ∧ s.calm t ∧ s.wakeArray t = (true, s1) ∧ (s.tile t).eng.seq.queue
      = st :: rest ∧ st.ticket = (s.xreg t ra).setWidth 16)
  ∧ (∃ (s : State) (s1 : State) (t : TileNo) (ra : Fin 32) (st : Stream),
      s.coreReads t [ra] [] = true ∧ s.fenced? t 0 = false ∧ s.calm t ∧ s.wakeArray t = (true, s1) ∧ (∀ x ∈ (s.tile
      t).eng.seq.queue, x.ticket ≠ (s.xreg t ra).setWidth 16) ∧ (s.tile t).eng.seq.run = some st)
  ∧ (∃ (s : State) (s1 : State) (t : TileNo) (st : Stream),
      s.coreRuns t = true ∧ s.storesDue t = false ∧ (s.tile t).eng.seq.run = some st ∧ s.wakeArray t = (true, s1) ∧ st.started
      = true ∧ st.uncorr = none ∧ (s.tile t).eng.seq.issuing = none) :=
  ⟨⟨(wEng { nextTicket := 0xFFFF }), (wEng { nextTicket := 0xFFFF }), 4, 3, 1, 2, by decide +kernel⟩,
   ⟨(wEng { queue := [{}, {}, {}, {}] }), 4, 3, 1, 2, by decide +kernel⟩,
   ⟨(wEng { run := some { ticket := 3, bundle := 9 } }), 4, 1, 2, { ticket := 3, bundle := 9 }, by decide +kernel⟩,
   ⟨(wEng { records := [⟨4, true, 2, 8⟩] }), 4, 1, 2, by decide +kernel⟩,
   ⟨(wEng { records := [⟨3, true, 2, 8⟩] }), 4, 1, 2, ⟨3, true, 2, 8⟩, [], (.ewait 4 1 2), by decide +kernel⟩,
   ⟨(wEng { queue := [{ ticket := 3, bundle := 2 }, { ticket := 4 }] }), (wEng
    { queue := [{ ticket := 3, bundle := 2 }, { ticket := 4 }] }), 4, 2, { ticket := 3, bundle := 2 }, [{ ticket := 4 }],
    by decide +kernel⟩,
   ⟨(wEng { run := some { ticket := 3 } }), (wEng { run := some { ticket := 3 } }), 4, 2, { ticket := 3 }, by decide +kernel⟩,
   ⟨(wEng (wSeq [5, 6])), (wEng (wSeq [5, 6])), 4, { ticket := 3, started := true, bundle := 6 }, by decide +kernel⟩⟩

theorem test_met_StreamLife :
  (∃ (s : State) (s1 : State) (t : TileNo) (r : Stream) (rest : List Stream),
      s.engineRuns t = true ∧ s.nextStream t r rest ∧ r.uncorr = none ∧ s.wakeArray t = (true, s1))
  ∧ (∃ (s : State) (s1 : State) (t : TileNo) (r : Stream),
      s.engineRuns t = true ∧ s.nextStream t r [] ∧ r.event = false ∧ s.wakeArray t = (true, s1) ∧ (s.tile t).eng.seq.flight =
      [] ∧ (s.tile t).eng.seq.waitFrom = none ∧ s.tag t = 0)
  ∧ (∃ (s : State) (s1 : State) (t : TileNo) (r : Stream) (i : Nat) (h : BitVec 256) (rest : List (Nat × BitVec 256)),
      s.engineRuns t = true ∧ s.wakeArray t = (true, s1) ∧ (s.tile t).eng.seq.run = some r ∧ r.started = true ∧ r.ended =
      false ∧ r.stopping = false ∧ r.uncorr = none ∧ (s.tile t).eng.seq.prefetch = (i, h) :: rest ∧ rest.length < 3 ∧ noOps h
      = false)
  ∧ (∃ (s : State) (t : TileNo) (c : Instr) (r : Stream) (faulted : Bool),
      (s.tile t).eng.seq.run = some r ∧ r.started = true ∧ r.uncorr = none ∧ (s.tile t).eng.seq.issuing = none ∧ (s.tile
      t).eng.seq.queue = [] ∧ (drain s.freeCtr (s.island t)).met = false ∧ ((c = .streamDone t ∧ r.ended = true ∧ faulted =
      false ∨ c = .streamStopComplete t ∧ r.stopping = true ∧ faulted = true)))
  ∧ (∃ (s : State) (t : TileNo) (r : Stream) (i : Nat) (b : BitVec 256),
      (s.tile t).eng.seq.run = some r ∧ r.started = true ∧ r.uncorr = none ∧ (s.tile t).eng.seq.issuing = none ∧ (s.tile
      t).eng.seq.queue = [] ∧ r.waitLim ≠ 0 ∧ headBundle (s.island t) = some (r, i, b) ∧ gateMet (s.tile t).eng.seq b = false
      ∧ (settle s.freeCtr ((s.tile t).eng.seq.waitFrom.getD (s.tile t).eng.seq.now + 2 ^ r.waitLim) (s.island t)).met = false) :=
  ⟨⟨((wEng { queue := [{ ticket := 3, args := 64, first := 96 }] }).onTile 4 (fun x =>
    { x with pocket := [(64, 9), (65, 1), (112, 3), (113, 4), (114, 99)] })), ((wEng
    { queue := [{ ticket := 3, args := 64, first := 96 }] }).onTile 4 (fun x =>
    { x with pocket := [(64, 9), (65, 1), (112, 3), (113, 4), (114, 99)] })), 4, { ticket := 3, args := 64, first := 96 }, [],
    by decide +kernel⟩,
   ⟨(wEng { queue := [{ ticket := 3, args := 64, first := 96 }] }), (wEng
    { queue := [{ ticket := 3, args := 64, first := 96 }] }), 4, { ticket := 3, args := 64, first := 96 }, by decide +kernel⟩,
   ⟨(wEng (wSeq [wMB])), (wEng (wSeq [wMB])), 4, { ticket := 3, started := true, bundle := 6 }, 0, wMB, [],
    by decide +kernel⟩,
   ⟨(wEng
    { run := some { ticket := 3, started := true, ended := true, event := true, doneGate := 4, bundle := 6 }, flight := [wFl .tailor (wTail 5)] }),
    4, (.streamDone 4), { ticket := 3, started := true, ended := true, event := true, doneGate := 4, bundle := 6 }, false,
    by decide +kernel⟩,
   ⟨(wEng
    { run := some { ticket := 3, started := true, waitLim := 4, event := true }, prefetch := [(11, wCB (8 * 2 ^ 43 + 5 * 2 ^ 37 + 2))] }),
    4, { ticket := 3, started := true, waitLim := 4, event := true }, 11, (wCB (8 * 2 ^ 43 + 5 * 2 ^ 37 + 2)),
    by decide +kernel⟩⟩

theorem test_met_MatrixSlotsIssue :
  (∃ (c : Instr) (t : TileNo) (slot : Fin 2) (op : Nat) (s : State) (s1 : State) (b : BitVec 256) (st : Stream) (i : Nat) (x : Issuing),
      matrixCode c = some (t, slot, op) ∧ s.slotOpens t slot op b s1 st i x) :=
  ⟨(.acz 4 0), 4, 0, 5, (wEng (wSeq [wMB])), (wBegun (wEng (wSeq [wMB]))), wMB, (wHead (wBegun (wEng (wSeq [wMB])))), 0,
    (wIss (wBegun (wEng (wSeq [wMB])))), by decide +kernel⟩

theorem test_met_TailorSlotsIssue :
  (∃ (c : Instr) (t : TileNo) (op : Nat) (s : State) (s1 : State) (b : BitVec 256) (st : Stream) (i : Nat) (x : Issuing),
      tailorCode c = some (t, op) ∧ s.slotOpens t 2 op b s1 st i x) :=
  ⟨(.tzero 4), 4, 5, (wEng (wSeq [wTB 5])), (wBegun (wEng (wSeq [wTB 5]))), (wTB 5), (wHead (wBegun (wEng (wSeq [wTB 5])))),
    0, (wIss (wBegun (wEng (wSeq [wTB 5])))), by decide +kernel⟩

theorem test_met_ControlSlotsTakeEffect :
  (∃ (c : Instr) (t : TileNo) (op : Nat) (s : State) (s1 : State) (b : BitVec 256) (st : Stream) (i : Nat) (x : Issuing),
      controlCode c = some (t, op) ∧ s.slotOpens t 4 op b s1 st i x) :=
  ⟨(.qadd 4), 4, 7, (wEng (wSeq [wMB])), (wBegun (wEng (wSeq [wMB]))), wMB, (wHead (wBegun (wEng (wSeq [wMB])))), 0, (wIss
    (wBegun (wEng (wSeq [wMB])))), by decide +kernel⟩

theorem test_met_StrictModeTiming :
  (∃ (w : Nat) (t : Nat) (e1 : Nat),
      1 ≤ mMop w ∧ mMop w ≤ 3 ∧ pairAllowed (mFmtA w) (mFmtB w) = true ∧ e1 ≤ t)
  ∧ (∃ (w : Nat),
      4 ≤ mMop w ∧ mMop w ≤ 7)
  ∧ (∃ (w : Nat),
      tTop w ≤ 0x9F) :=
  ⟨⟨(wMat 1), 9, 5, by decide +kernel⟩,
   ⟨(wMat 4), by decide +kernel⟩,
   ⟨(wTail 0x12), by decide +kernel⟩⟩

theorem test_met_IssueTiming :
  (∃ (w : Nat) (t : Nat) (y : Isl) (j : Nat),
      1 ≤ mMop w ∧ mMop w ≤ 7 ∧ ((4 ≤ mMop w ∨ pairAllowed (mFmtA w) (mFmtB w) = true)) ∧ j ∈ mArrays w ∧ tabGet 0
      y.eng.seq.rowEnd j ≤ t)
  ∧ (∃ (w : Nat),
      tTop w ≤ 0x9F) :=
  ⟨⟨(wMat 3 + 3 * 2 ^ 36 + 3 * 2 ^ 33), 9, { eng := {}, pk := [] }, 0, by decide +kernel⟩,
   ⟨(wTail 0x88), by decide +kernel⟩⟩

theorem test_met_ResultsLand :
  (∃ (s : State) (t : TileNo) (c : Instr) (f : InFlight),
      (s.tile t).eng.seq.flight = [f] ∧ s.calm t ∧ (s.island t).landsLater f = false ∧ (∀ a ∈ (s.tile t).eng.accs,
      a.parityFailed = false) ∧ ((c = .matrixResult t false false ∧ f.isTailor = false ∨ c = .tailorResult t false ∧
      f.isTailor = true)))
  ∧ (∃ (s : State) (t : TileNo) (c : Instr) (f : InFlight) (plane : Bool) (r : Stream),
      (s.tile t).eng.seq.flight = [f] ∧ 0 < f.land ∧ (s.tile t).eng.seq.run = some r ∧ r.uncorr = none ∧ (s.tile
      t).eng.seq.issuing = none ∧ (s.tile t).eng.seq.queue = [] ∧ s.tag t = 0 ∧ ((c = .matrixResult t true plane ∧ f.isTailor
      = false ∨ c = .tailorResult t true ∧ f.isTailor = true)))
  ∧ (∃ (j : Nat) (f : InFlight),
      f.unit = .array j ∧ mMop f.word = 5)
  ∧ (∃ (j : Nat) (e : Engine) (e' : Engine) (f : InFlight),
      f.unit = .array j ∧ mMop f.word = 2 ∧ f.early = false ∧ tabGet 0 e.keys j = tabGet 0 e'.keys j)
  ∧ (∃ (f : InFlight),
      f.unit = .tailor ∧ tTop f.word = 5) :=
  ⟨⟨(wEng { flight := [wFl .tailor (wTail 5)] }), 4, (.tailorResult 4 false), (wFl .tailor (wTail 5)), by decide +kernel⟩,
   ⟨(wEng { run := some { ticket := 3, started := true }, flight := [{ wFl (.array 0) (wMat 3) with bundle := 9 }] }), 4,
    (.matrixResult 4 true true), { wFl (.array 0) (wMat 3) with bundle := 9 }, true, { ticket := 3, started := true },
    by decide +kernel⟩,
   ⟨0, (wFl (.array 0) (wMat 5)), by decide +kernel⟩,
   ⟨0, {}, { accs := [{ nprod := 6 }] }, (wFl (.array 0) (wMat 2)), by decide +kernel⟩,
   ⟨(wFl .tailor (wTail 5)), by decide +kernel⟩⟩

theorem test_met_CoreLoadAndStore :
  (∃ (s : State) (t : TileNo) (user : Bool) (fp : Bool) (n : Fin 17) (rd : Fin 32) (base : Fin 32) (off : BitVec 16) (x : Side),
      s.coreReads t (base.val :: (if fp then [] else pairRegs rd.val n.val)) (if fp then [rd.val] else []) = true ∧ s.fenced?
      t 3 = false ∧ memIllegal fp rd.val n.val = false ∧ s.coreTakes t user .read (s.xreg t base.val + off.signExtend 64)
      n.val x)
  ∧ (∃ (s : State) (t : TileNo) (user : Bool) (fp : Bool) (n : Fin 17) (rs : Fin 32) (base : Fin 32) (off : BitVec 16) (o : Nat),
      s.coreReads t (base.val :: (if fp then [] else pairRegs rs.val n.val)) (if fp then [rs.val] else []) = true ∧ s.fenced?
      t 2 = false ∧ memIllegal fp rs.val n.val = false ∧ s.coreTakes t user .write (s.xreg t base.val + off.signExtend 64)
      n.val (.pocket o))
  ∧ (∃ (s : State) (t : TileNo) (user : Bool) (fp : Bool) (n : Fin 17) (rs : Fin 32) (base : Fin 32) (off : BitVec 16) (a : Nat) (shr : Bool),
      s.coreReads t (base.val :: (if fp then [] else pairRegs rs.val n.val)) (if fp then [rs.val] else []) = true ∧ s.fenced?
      t 2 = false ∧ memIllegal fp rs.val n.val = false ∧ s.coreTakes t user .write (s.xreg t base.val + off.signExtend 64)
      n.val (.mem a shr))
  ∧ (∃ (s : State) (t : TileNo) (user : Bool) (fp : Bool) (n : Fin 17) (r : Fin 32) (base : Fin 32) (off : BitVec 16) (a : Nat) (shr : Bool) (load : Bool),
      s.coreReads t (base.val :: (if fp then [] else pairRegs r.val n.val)) (if fp then [r.val] else []) = true ∧ s.fenced? t
      (if load then 3 else 2) = false ∧ memIllegal fp r.val n.val = false ∧ s.coreTakes t user (if load then .read else
      .write) (s.xreg t base.val + off.signExtend 64) n.val (.mem a shr))
  ∧ (∃ (s : State) (t : TileNo) (user : Bool) (fp : Bool) (load : Bool) (n : Fin 17) (r : Fin 32) (base : Fin 32) (off : BitVec 16) (x : Side),
      s.coreReads t (base.val :: (if fp then [] else pairRegs r.val n.val)) (if fp then [r.val] else []) = true ∧ s.fenced? t
      (if load then 3 else 2) = false ∧ memIllegal fp r.val n.val = false ∧ s.coreTakes t user (if load then .read else
      .write) (s.xreg t base.val + off.signExtend 64) n.val x) :=
  ⟨⟨(wPk 4), 4, true, false, 2, 3, 1, 7, (.pocket 11), by decide +kernel⟩,
   ⟨(wPk 4), 4, true, false, 4, 4, 1, 5, 9, by decide +kernel⟩,
   ⟨(wL2 8 .e), 4, true, false, 4, 4, 1, 0, 0x01000000008, false, by decide +kernel⟩,
   ⟨(wHb 8), 4, true, false, 4, 4, 1, 0, 0x01000000008, false, true, by decide +kernel⟩,
   ⟨wBad, 4, true, false, true, 4, 4, 1, 0, .page, by decide +kernel⟩⟩

theorem test_met_ScalarAtomics :
  (∃ (s : State) (t : TileNo) (user : Bool) (major : Nat) (func : BitVec 11) (rd : Fin 32) (ra : Fin 32) (rb : Fin 32) (op : AtomOp) (size : Nat) (o : Nat) (c : Instr),
      ((major = 0x20 ∧ c = .amoRmw t user func rd ra rb ∨ major = 0x21 ∧ c = .cas t user func rd ra rb ∨ major = 0x22 ∧ c =
      .cas128 t user func rd ra rb ∨ major = 0x23 ∧ c = .amoFp t user func rd ra rb)) ∧ s.atomGoes t user major func rd ra rb
      op size (.pocket o))
  ∧ (∃ (s : State) (t : TileNo) (user : Bool) (major : Nat) (func : BitVec 11) (rd : Fin 32) (ra : Fin 32) (rb : Fin 32) (op : AtomOp) (size : Nat) (a : Nat) (shr : Bool) (c : Instr),
      ((major = 0x20 ∧ c = .amoRmw t user func rd ra rb ∨ major = 0x21 ∧ c = .cas t user func rd ra rb ∨ major = 0x22 ∧ c =
      .cas128 t user func rd ra rb ∨ major = 0x23 ∧ c = .amoFp t user func rd ra rb)) ∧ s.atomGoes t user major func rd ra rb
      op size (.mem a shr))
  ∧ (∃ (s : State) (t : TileNo) (user : Bool) (major : Nat) (func : BitVec 11) (rd : Fin 32) (ra : Fin 32) (rb : Fin 32) (c : Instr),
      ((major = 0x20 ∧ c = .amoRmw t user func rd ra rb ∨ major = 0x21 ∧ c = .cas t user func rd ra rb ∨ major = 0x22 ∧ c =
      .cas128 t user func rd ra rb ∨ major = 0x23 ∧ c = .amoFp t user func rd ra rb)) ∧ s.coreRuns t = true ∧ atomOf (major *
      2 ^ 26 + func.toNat) = none)
  ∧ (∃ (s : State) (t : TileNo) (func : BitVec 11) (rd : Fin 32) (ra : Fin 32) (rb : Fin 32),
      s.coreReads t [ra, rd, rb] [] = true ∧ s.fenced? t 3 = false ∧ s.fenced? t 2 = false ∧ func.toNat / 16 % 4 = 3 ∧
      func.toNat / 64 ≤ 8 ∧ (s.xreg t ra).toNat % 8 ≠ 0) :=
  ⟨⟨(wPk 4), 4, true, 0x20, (1 * 64 + 2 * 16), 3, 1, 4, .add, 4, 4, (.amoRmw 4 true (1 * 64 + 2 * 16) 3 1 4),
    by decide +kernel⟩,
   ⟨(wHb 16), 4, true, 0x20, (4 + 1 * 64 + 2 * 16), 3, 1, 4, .add, 4, 0x01000000010, false, (.amoRmw 4 true (4 + 1 * 64 + 2 *
    16) 3 1 4), by decide +kernel⟩,
   ⟨(wHb 16), 4, true, 0x20, (9 * 64 + 2 * 16), 3, 1, 4, (.amoRmw 4 true (9 * 64 + 2 * 16) 3 1 4), by decide +kernel⟩,
   ⟨(wHb 12), 4, (1 * 64 + 3 * 16), 3, 1, 4, by decide +kernel⟩⟩

theorem test_met_ScalarAndSystem :
  (∃ (s : State) (t : TileNo) (f : VFmt) (op : FpOp) (rd : Fin 32) (ra : Fin 32) (rb : Fin 32) (rc : Fin 32),
      s.coreReads t [ra.val, rd.val] [ra.val, rb.val, rc.val, rd.val] = true ∧ scalarLegal f op = true)
  ∧ (∃ (s : State) (t : TileNo) (f : VFmt) (op : FpOp) (rd : Fin 32) (ra : Fin 32) (rb : Fin 32) (rc : Fin 32),
      s.coreReads t [ra.val, rd.val] [ra.val, rb.val, rc.val, rd.val] = true ∧ scalarLegal f op = false)
  ∧ (∃ (s : State) (t : TileNo) (ra : Fin 32),
      s.coreReads t [ra] [] = true)
  ∧ (∃ (s : State) (t : TileNo),
      s.coreRuns t = true)
  ∧ (∃ (c : CoreWord),
      c.wf = true) :=
  ⟨⟨(wHb 12), 4, .f32, .add, 2, 0, 1, 2, by decide +kernel⟩,
   ⟨(wHb 12), 4, .e4m3, .add, 2, 0, 1, 2, by decide +kernel⟩,
   ⟨(wHb 12), 4, 4, by decide +kernel⟩,
   ⟨((wHb 12).onTile 4 (fun y => { y with core := { y.core with storeQ := [⟨64, [1], false⟩] } })), 4, by decide +kernel⟩,
   ⟨(.fence 4 1), by decide +kernel⟩⟩

theorem test_met_VectorQueueCommands :
  (∃ (s : State) (t : TileNo) (i : VInstr),
      s.coreReads t (vReadsX i ++ vxOut i) (vReadsF i ++ vfOut i) = true ∧ vIllegal (s.tile t).lvu.sewSent i = false ∧
      s.coreLoadsDue t = false ∧ (s.tile t).lvu.queue.length < 32 ∧
      (match i.kind with | .load _ => s.fenced? t 3 | .store _ => s.fenced? t 2 | _ => false) = false)
  ∧ (∃ (s : State) (t : TileNo) (i : VInstr),
      s.coreReads t (vReadsX i ++ vxOut i) (vReadsF i ++ vfOut i) = true ∧ vIllegal (s.tile t).lvu.sewSent i = true)
  ∧ (∃ (s : State) (t : TileNo),
      ((s.coreRuns t = false ∨ s.vectorIdle t = true ∨ (s.tile t).lvu.faulted = true)))
  ∧ (∃ (s : State) (t : TileNo),
      s.coreRuns t = true ∧ s.vectorIdle t = false ∧ (s.tile t).lvu.faulted = false)
  ∧ (∃ (s : State) (t : TileNo) (i : VInstr) (m : VMode),
      s.coreReads t (vReadsX i ++ vxOut i) (vReadsF i ++ vfOut i) = true ∧ vIllegal (s.tile t).lvu.sewSent i = false ∧
      ((i.kind = .load m ∧ s.fenced? t 3 = true ∨ i.kind = .store m ∧ s.fenced? t 2 = true)))
  ∧ (∃ (s : State) (t : TileNo),
      s.coreRuns t = true ∧ (s.tile t).lvu.faulted = true) :=
  ⟨⟨(wL { queue := [wE .vrelease false] }), 4, (wV (.int .add) false true), by decide +kernel⟩,
   ⟨(wL {}), 4, (wV (.fp false .add) false true), by decide +kernel⟩,
   ⟨w0, 4, by decide +kernel⟩,
   ⟨(wL { queue := [wE .vrelease false] }), 4, by decide +kernel⟩,
   ⟨((wL { queue := [wE .vrelease false] }).onTile 4 (fun y =>
    { y with core := { y.core with fences := [(8, 8)] }, l2 := { y.l2 with out := [{ line := 5, write := false, addr := 320, size := 4, dest := .xreg 3 4 true }] } })),
    4, (wV (.load .unit) false false), .unit, by decide +kernel⟩,
   ⟨(wL { faulted := true, vstart := 7 }), 4, by decide +kernel⟩⟩

theorem test_met_VectorControlCommands :
  (∃ (s : State) (t : TileNo) (e : VEntry) (c : Fin 4),
      s.vheadPaid t e 0 ∧ e.i.kind = .setvl c)
  ∧ (∃ (s : State) (t : TileNo) (e : VEntry),
      s.vheadPaid t e 0 ∧ e.i.kind = .vrelease)
  ∧ (∃ (s : State) (t : TileNo) (e : VEntry) (write : Bool),
      s.vheadPaid t e 0 ∧ e.i.kind = (if write then .vcsrw else .vcsrr))
  ∧ (∃ (s : State) (t : TileNo) (e : VEntry) (sb : Fin 2) (pair : Fin 4) (gate : Fin 64),
      (s.tile t).lvu.sending = none ∧ s.vheadPaid t e (unitCharge (s.tile t).lvu 1) ∧ e.i.kind = .vsend sb pair gate ∧
      s.stagingFull t (2 * pair + sb) = false)
  ∧ (∃ (s : State) (t : TileNo) (e : VEntry) (sb : Fin 2) (pair : Fin 4) (gate : Fin 64),
      (s.tile t).lvu.sending = none ∧ s.vheadPaid t e (unitCharge (s.tile t).lvu 1) ∧ e.i.kind = .vsend sb pair gate ∧
      s.stagingFull t (2 * pair + sb) = true)
  ∧ (∃ (s : State) (t : TileNo) (i : VInstr) (v : BitVec 8192) (sb : Fin 2) (pair : Fin 4) (gate : Fin 64),
      s.vectorRuns t = true ∧ (s.tile t).lvu.sending = some (i, v) ∧ i.kind = .vsend sb pair gate ∧ s.stagingFull t (2 * pair
      + sb) = false) :=
  ⟨⟨(wVec (.setvl 3) false), 4, (wE (.setvl 3) false), 3, by decide +kernel⟩,
   ⟨(wVec .vrelease false), 4, (wE .vrelease false), by decide +kernel⟩,
   ⟨(wVec .vcsrw false), 4, (wE .vcsrw false), true, by decide +kernel⟩,
   ⟨(wVec (.vsend 1 2 5) false), 4, (wE (.vsend 1 2 5) false), 1, 2, 5, by decide +kernel⟩,
   ⟨((wVec (.vsend 1 2 5) false).onTile 4 (fun y =>
    { y with eng := { y.eng with staging := [{}, {}, {}, {}, {}, { full := true }] } })), 4, (wE (.vsend 1 2 5) false), 1, 2,
    5, by decide +kernel⟩,
   ⟨(wL { sending := some (wV (.vsend 1 2 5) false false, 77) }), 4, (wV (.vsend 1 2 5) false false), 77, 1, 2, 5,
    by decide +kernel⟩⟩

theorem test_met_VectorArithmetic :
  (∃ (s : State) (t : TileNo) (e : VEntry) (op : VIntOp),
      s.vheadPaid t e (vintCharge op (s.tile t).lvu) ∧ e.i.kind = .int op ∧ cmpWrites op = false ∧ op ≠ .toScalar)
  ∧ (∃ (s : State) (t : TileNo) (e : VEntry) (op : VIntOp),
      s.vheadPaid t e (vintCharge op (s.tile t).lvu) ∧ e.i.kind = .int op ∧ cmpWrites op = true)
  ∧ (∃ (s : State) (t : TileNo) (e : VEntry),
      s.vheadPaid t e (vintCharge .toScalar (s.tile t).lvu) ∧ e.i.kind = .int .toScalar)
  ∧ (∃ (s : State) (t : TileNo) (e : VEntry) (bf : Bool) (op : FpOp),
      s.vheadPaid t e (vfpCharge op (s.tile t).lvu) ∧ e.i.kind = .fp bf op)
  ∧ (∃ (s : State) (c : Instr) (t : TileNo) (fn : Nat) (e : VEntry),
      fixedCode c = some (t, fn) ∧ s.vheadPaid t e (vfxCharge fn (s.tile t).lvu) ∧ e.i.kind = .fx (Fin.ofNat 64 fn))
  ∧ (∃ (s : State) (t : TileNo) (e : VEntry) (zacc : Bool) (neg : Bool) (k : Fin 32),
      s.vheadPaid t e (arithCharge (s.tile t).lvu 8) ∧ e.i.kind = .vfop zacc neg k ∧ vIllegal (s.tile t).lvu.sew e.i = false) :=
  ⟨⟨(wVec (.int .add) true), 4, (wE (.int .add) true), .add, by decide +kernel⟩,
   ⟨(wVec (.int .cmpLt) true), 4, (wE (.int .cmpLt) true), .cmpLt, by decide +kernel⟩,
   ⟨(wVec (.int .toScalar) true), 4, (wE (.int .toScalar) true), by decide +kernel⟩,
   ⟨(wVec (.fp false .mul) true), 4, (wE (.fp false .mul) true), false, .mul, by decide +kernel⟩,
   ⟨(wVec (.fx 0) true), (.fxadds 4), 4, 0, (wE (.fx 0) true), by decide +kernel⟩,
   ⟨(wVec (.vfop false true 1) false), 4, (wE (.vfop false true 1) false), false, true, 1, by decide +kernel⟩⟩

theorem test_met_VectorPredicatesAndReductions :
  (∃ (s : State) (t : TileNo) (e : VEntry) (op : PredOp),
      s.vheadPaid t e (unitCharge (s.tile t).lvu 1) ∧ e.i.kind = .pred op ∧ op ≠ .count ∧ op ≠ .first)
  ∧ (∃ (s : State) (t : TileNo) (e : VEntry) (op : PredOp),
      s.vheadPaid t e (unitCharge (s.tile t).lvu 1) ∧ e.i.kind = .pred op ∧ ((op = .count ∨ op = .first)))
  ∧ (∃ (s : State) (t : TileNo) (c : Instr) (op : RedOp) (e : VEntry) (bf : Bool),
      reduceCode c = some (t, op) ∧ s.vheadPaid t e (if op = .osum then 5 * (s.tile t).lvu.len else arithCharge (s.tile t).lvu
      2) ∧ e.i.kind = .red bf op) :=
  ⟨⟨(wVec (.pred .andn) true), 4, (wE (.pred .andn) true), .andn, by decide +kernel⟩,
   ⟨(wVec (.pred .first) true), 4, (wE (.pred .first) true), .first, by decide +kernel⟩,
   ⟨(wVec (.red false .sum) true), 4, (.vfredsum 4), .sum, (wE (.red false .sum) true), false, by decide +kernel⟩⟩

theorem test_met_VectorMemory :
  (∃ (s : State) (c : Instr) (t : TileNo) (m : VMode) (e : VEntry),
      vmemCode c = some (t, false, m) ∧ s.vmemStarts t e (.load m) ∧ ((∀ k, k < (s.tile t).lvu.len → ((s.tile t).lvu.pred
      e.i.pg).testBit k = true → s.elemInPocket t e m k)))
  ∧ (∃ (s : State) (c : Instr) (t : TileNo) (m : VMode) (e : VEntry),
      vmemCode c = some (t, true, m) ∧ s.vmemStarts t e (.store m) ∧ ((∀ k, k < (s.tile t).lvu.len → ((s.tile t).lvu.pred
      e.i.pg).testBit k = true → s.elemInPocket t e m k)))
  ∧ (∃ (s : State) (s1 : State) (c : Instr) (t : TileNo) (write : Bool) (m : VMode) (e : VEntry) (f : Side) (a : U64),
      vmemCode c = some (t, write, m) ∧ s.vmemStarts t e (if write then .store m else .load m) ∧ 0 < (s.tile t).lvu.len ∧
      ((s.tile t).lvu.pred e.i.pg).testBit 0 = true ∧ (s.vmemBegun t e (if write then .store m else .load m)).accessFault t
      .lvu e.tctx e.kernel (if write then .write else .read) (elemVa (s.tile t).lvu e m 0) ((s.tile t).lvu.sew / 8) = some (f,
      a, s1) ∧ f.walking? = none)
  ∧ (∃ (s : State) (t : TileNo) (e : VEntry) (k : Nat),
      s.vmemStarts t e (.load .faultFirst) ∧ 0 < k ∧ k < (s.tile t).lvu.len ∧ ((∀ j, j < k → ((s.tile t).lvu.pred
      e.i.pg).testBit j = true → s.elemInPocket t e .faultFirst j)) ∧ ((s.tile t).lvu.pred e.i.pg).testBit k = true ∧
      (s.accessFault t .lvu e.tctx e.kernel .read (elemVa (s.tile t).lvu e .faultFirst k) ((s.tile t).lvu.sew / 8)).any (fun f
      => f.1.walking?.isNone) = true) :=
  ⟨⟨(wVec (.load .unit) true), (.vloadUnit 4), 4, .unit, (wE (.load .unit) true), by decide +kernel⟩,
   ⟨(wVec (.store .unit) true), (.vstoreUnit 4), 4, .unit, (wE (.store .unit) true), rfl, by decide +kernel⟩,
   ⟨(wL (wLvu { wE (.load .unit) true with xa := 0xFFFF000000000 })), (wFault (wL (wLvu
    { wE (.load .unit) true with xa := 0xFFFF000000000 })) { wE (.load .unit) true with xa := 0xFFFF000000000 }), (.vloadUnit
    4), 4, false, .unit, { wE (.load .unit) true with xa := 0xFFFF000000000 }, .page, 0xFFFF000000000, by decide +kernel⟩,
   ⟨((wL (wLvu { wE (.load .faultFirst) true with xa := 0x1FFFFFFFFFFFFF8 })).setGranule 0 (entAssigned 5)), 4,
    { wE (.load .faultFirst) true with xa := 0x1FFFFFFFFFFFFF8 }, 2, by decide +kernel⟩⟩

theorem test_met_VectorIslandAndSeam :
  (∃ (s : State) (t : TileNo),
      s.runs t = true ∧ (s.tile t).lvu.power = .active ∧ s.lvuIdle t = true)
  ∧ (∃ (s : State) (t : TileNo),
      s.runs t = true ∧ (s.tile t).lvu.power = .retention ∧ s.lvuIdle t = true ∧ (s.tile t).lvu.released = true ∧ s.obj 0x1400
      3 ≠ 4294967295)
  ∧ (∃ (s : State) (t : TileNo) (c : Nat) (n : Nat),
      s.runs t = true ∧ s.lvuWanted t = true ∧ (((s.tile t).lvu.power = .retention ∧ c = 300 ∧ n = 60 ∨ (s.tile t).lvu.power =
      .cold ∧ c = 6000 ∧ n = 1200)) ∧ c ≤ (s.tile t).acct.vector + (s.tile t).acct.unreserved)
  ∧ (∃ (s : State) (t : TileNo) (held : List SeamMsg) (rest : List SeamMsg) (g : Nat) (n : Nat) (set : Bool) (grp : Bool),
      (s.tile t).seam = held ++ (if grp then .grpGate g set n else .seqGate g set n) :: rest ∧ (∀ m ∈ held, (s.tile
      t).seamHolds m = true) ∧ (s.tile t).seamHolds (if grp then .grpGate g set n else .seqGate g set n) = false ∧ g < 64)
  ∧ (∃ (s : State) (t : TileNo) (held : List SeamMsg) (rest : List SeamMsg) (b : Nat) (g : Nat) (n : Nat) (d : Bytes),
      (s.tile t).seam = held ++ .staged b d g n :: rest ∧ (∀ m ∈ held, (s.tile t).seamHolds m = true) ∧ (s.tile
      t).acct.arrayAsleep = false ∧ g < 64)
  ∧ (∃ (s : State) (t : TileNo),
      (∀ m ∈ (s.tile t).seam, (s.tile t).seamHolds m = true)) :=
  ⟨⟨(wL {}), 4, by decide +kernel⟩,
   ⟨(wL { power := .retention, released := true, vl := 5, v := [1] }), 4, by decide +kernel⟩,
   ⟨(wL { power := .cold, queue := [wE .vrelease false] }), 4, 6000, 1200, by decide +kernel⟩,
   ⟨((wL {}).onTile 4 (fun y => { y with seam := [.seqGate 5 false 3, .grpGate 4 true 1] })), 4, [], [.grpGate 4 true 1], 5,
    3, false, false, by decide +kernel⟩,
   ⟨((wL { power := .retention }).onTile 4 (fun y => { y with seam := [.grpGate 4 true 1, .staged 3 [7] 5 1] })), 4,
    [.grpGate 4 true 1], [], 3, 5, 1, [7], by decide +kernel⟩,
   ⟨((wL { power := .retention }).onTile 4 (fun y => { y with seam := [.grpGate 4 true 1] })), 4, by decide +kernel⟩⟩

theorem test_met_GroupControl :
  (∃ (s : State) (t : TileNo) (rd : Fin 32) (ra : Fin 32),
      s.coreReads t [rd, ra] [] = true ∧ s.storesDue t = false)
  ∧ (∃ (s : State) (t : TileNo) (rd : Fin 32) (ra : Fin 32) (c : Instr),
      s.coreReads t [rd, ra] [] = true ∧ ((c = .gstat t rd ra ∨ c = .gjoin t rd ra ∧ (s.tile t).grp.joinWaits ((s.xreg t
      ra).setWidth 16) = false)))
  ∧ (∃ (s : State) (t : TileNo) (ra : Fin 32) (b : Block),
      s.coreReads t [ra] [] = true ∧ ((s.tile t).grp.resident ++ (s.tile t).grp.queue).find? (fun b => decide (b.ticket =
      (s.xreg t ra).setWidth 16)) = some b)
  ∧ (∃ (s : State) (t : TileNo) (ra : Fin 32) (rb : Fin 32) (b : Block) (j : Nat) (g : Nat) (x : Group) (p : Park),
      s.coreReads t [ra, rb] [] = true ∧ (s.tile t).grp.resident.find? (fun b => decide (b.ticket = (s.xreg t ra).setWidth
      16)) = some b ∧ b.slots[j]? = some g ∧ b.slots.Nodup ∧ s.group t g = some x ∧ x.park = some p)
  ∧ (∃ (s : State) (t : TileNo) (rd : Fin 32) (ra : Fin 32) (rb : Fin 32) (b : Block) (g : Nat) (x : Group) (p : Park),
      s.coreReads t [rd, ra, rb] [] = true ∧ (s.tile t).grp.resident.find? (fun b => decide (b.ticket = (s.xreg t ra).setWidth
      16)) = some b ∧ b.slots[(s.xreg t rb).toNat % 16]? = some g ∧ s.group t g = some x ∧ x.park = some p ∧ x.pendingBar =
      false)
  ∧ (∃ (s : State) (t : TileNo) (rd : Fin 32) (ra : Fin 32),
      s.coreReads t [rd, ra] [] = true) :=
  ⟨⟨((wCore [64, 0]).onTile 4 (fun y =>
    { y with grp := { y.grp with areaSize := 8 }, pocket := [(65, 3), (80, 2), (81, 4), (82, 5), (87, 3)] })), 4, 2, 1,
    by decide +kernel⟩,
   ⟨(wGroup wG), 4, 3, 1, (.gstat 4 3 1), by decide +kernel⟩,
   ⟨((wGroup wG).onTile 4 (fun y => { y with grp := { y.grp with resident := [{ wBlock with doneGate := 7 }] } })), 4, 1,
    { wBlock with doneGate := 7 }, by decide +kernel⟩,
   ⟨(wGroup wParked), 4, 1, 3, wBlock, 0, 2, wParked, { cause := 1, addr := 0x123, flane := 3 }, by decide +kernel⟩,
   ⟨((wGroup wParked).onTile 4 (fun y => { y with core := { y.core with x := [0, 5, 128, 64] } })), 4, 3, 1, 2, wBlock, 2,
    wParked, { cause := 1, addr := 0x123, flane := 3 }, by decide +kernel⟩,
   ⟨(wGroup wG), 4, 3, 1, by decide +kernel⟩⟩

theorem test_met_BlockLife :
  (∃ (s : State) (t : TileNo) (b : Block),
      s.vectorRuns t = true ∧ (s.tile t).grp.canReside = some b)
  ∧ (∃ (j : Nat) (l : Nat),
      j < 16 ∧ l < 64)
  ∧ (∃ (s : State) (t : TileNo) (b : Block),
      s.runs t = true ∧ (s.tile t).grp.resident.find? (fun b => (s.tile t).grp.blockOver b) = some b)
  ∧ (∃ (s : State) (t : TileNo) (g : Fin 32) (x : Group) (b : Block),
      s.runs t = true ∧ s.group t g = some x ∧ (s.tile t).grp.blockOf g = some b ∧ x.live ≠ 0 ∧ x.allWait false = true)
  ∧ (∃ (s : State) (t : TileNo) (g : Fin 32) (x : Group) (b : Block),
      s.runs t = true ∧ s.group t g = some x ∧ (s.tile t).grp.blockOf g = some b ∧ x.live ≠ 0 ∧ x.allWait false = false ∧
      (s.tile t).grp.blockWaits b = true ∧ b.slots.Nodup)
  ∧ (∃ (x : Group) (e : PathEntry) (pc : U64) (m : U64) (blk : Bool) (a : Nat),
      x.bbar = false ∧ e = .barrier pc m blk a ∧ x.stack = [e])
  ∧ (∃ (s : State) (t : TileNo) (g : Fin 32) (x : Group) (b : Block),
      s.runs t = true ∧ s.group t g = some x ∧ x.pendingBar = true ∧ x.park = none ∧ (s.tile t).grp.blockOf g = some b)
  ∧ (∃ (s : State) (t : TileNo) (g : Fin 32) (x : Group) (pc : U64) (m : U64) (q : List PathEntry),
      s.runs t = true ∧ s.group t g = some x ∧ x.spin = true ∧ x.park = none ∧ popPath (pathSet x.stack).1 = some (pc, m, q))
  ∧ (∃ (s : State) (t : TileNo) (c : GCopyJob),
      (s.tile t).grp.copies.find? (fun c => !c.busy && (decide (c.len ≤ c.cursor) || (c.killed && c.fault.isSome))) = some c)
  ∧ (∃ (s : State) (t : TileNo) (c : GCopyJob) (cause : Nat) (va : U64) (x : Group) (b : Block),
      (s.tile t).grp.copies.find? (fun c => s.copyParks t c) = some c ∧ c.fault = some (cause, va) ∧ s.group t c.slot = some x
      ∧ (s.tile t).grp.blockOf c.slot = some b) :=
  ⟨⟨((wPk 4).onTile 4 (fun y =>
    { y with grp := { y.grp with areaSize := 8, queue := [{ ticket := 3, ngroups := 2, pocket := 2, entry := 0x40, gateBase := 5, ngates := 2 }] } })),
    4, { ticket := 3, ngroups := 2, pocket := 2, entry := 0x40, gateBase := 5, ngates := 2, slots := [0, 1] },
    by decide +kernel⟩,
   ⟨1, 63, by decide +kernel⟩,
   ⟨(wGroup { wG with live := 0, running := 0 }), 4, wBlock, by decide +kernel⟩,
   ⟨(wGroup wBar), 4, 2, wBar, wBlock, by decide +kernel⟩,
   ⟨(wGroup { wG with bbar := true }), 4, 2, { wG with bbar := true }, wBlock, by decide +kernel⟩,
   ⟨wBar, (.barrier 0x2008 0x800000000000000B false 3), 0x2008, 0x800000000000000B, false, 3, by decide +kernel⟩,
   ⟨(wGroup wBar), 4, 2, wBar, wBlock, by decide +kernel⟩,
   ⟨(wGroup { wDiv with spin := true }), 4, 2, { wDiv with spin := true }, 0x3000, 8, [], by decide +kernel⟩,
   ⟨(wJobs wJob), 4, wJob, by decide +kernel⟩,
   ⟨(wJobs { wJob with cursor := 1500, fault := some (1, 0x1400) }), 4,
    { wJob with cursor := 1500, fault := some (1, 0x1400) }, 1, 0x1400, wG, wBlock, by decide +kernel⟩⟩

theorem test_met_GroupArithmeticAndCollectives :
  (∃ (s : State) (t : TileNo) (g : Fin 32) (o : GArith) (rd : GReg) (ra : GReg) (rb : GReg) (rc : GReg) (x : Group) (b : Block),
      garithOk o rd ra rb rc = true ∧ s.groupIssues t g x b (groupOcc o) (garithRegs o rd ra rb rc))
  ∧ (∃ (rd : GReg) (ra : GReg) (rb : GReg) (rc : GReg) (op : VIntOp) (c : Fin 3),
      garithOk (.int op c) rd ra rb rc = true)
  ∧ (∃ (rd : GReg) (ra : GReg) (rb : GReg) (rc : GReg) (f : VFmt) (op : FpOp),
      garithOk (.fp f op) rd ra rb rc = true)
  ∧ (∃ (s : State) (t : TileNo) (g : Fin 32) (o : GArith) (rd : GReg) (ra : GReg) (rb : GReg) (rc : GReg) (x : Group) (b : Block),
      garithOk o rd ra rb rc = false ∧ s.groupIssues t g x b 1 [])
  ∧ (∃ (s : State) (t : TileNo) (g : Fin 32) (x : Group) (b : Block),
      s.groupIssues t g x b 1 [])
  ∧ (∃ (s : State) (t : TileNo) (g : Fin 32) (rd : GReg) (ra : GReg) (rb : GReg) (x : Group) (b : Block),
      s.groupIssues t g x b 4 [rd, ra, rb])
  ∧ (∃ (s : State) (t : TileNo) (g : Fin 32) (rd : GReg) (ra : GReg) (x : Group) (b : Block),
      s.groupIssues t g x b 1 [rd.val, rd.val + 1, ra.val])
  ∧ (∃ (s : State) (t : TileNo) (g : Fin 32) (rd : GReg) (ra : GReg) (imm : BitVec 16) (x : Group) (b : Block),
      imm.toNat % 4 ≠ 3 ∧ s.groupIssues t g x b 2 [rd, ra])
  ∧ (∃ (s : State) (t : TileNo) (g : Fin 32) (rd : GReg) (ra : GReg) (rb : GReg) (rc : GReg) (x : Group) (b : Block),
      s.groupIssues t g x b 32 (spanOf rd 4 ++ spanOf ra 2 ++ spanOf rb 2 ++ spanOf rc 4))
  ∧ (∃ (s : State) (t : TileNo) (g : Fin 32) (addr : GReg) (off : GReg) (len : GReg) (x : Group) (b : Block),
      (s.tile t).grp.copies.length < 32 ∧ s.groupIssues t g x b 1 (spanOf addr 2 ++ [off.val, len.val])) :=
  ⟨⟨(wGroup wG), 4, 2, (.int .add 2), 9, 1, 4, 0, wG, wBlock, by decide +kernel⟩,
   ⟨9, 1, 4, 0, .sub, 2, by decide +kernel⟩,
   ⟨9, 1, 4, 0, .f32, .add, by decide +kernel⟩,
   ⟨(wGroup wG), 4, 2, (.int .gather 2), 9, 1, 4, 0, wG, wBlock, by decide +kernel⟩,
   ⟨(wGroup wG), 4, 2, wG, wBlock, by decide +kernel⟩,
   ⟨(wGroup wG), 4, 2, 9, 0, 1, wG, wBlock, by decide +kernel⟩,
   ⟨(wGroup wG), 4, 2, 9, 0, wG, wBlock, by decide +kernel⟩,
   ⟨(wGroup wG), 4, 2, 9, 4, 0, wG, wBlock, by decide +kernel⟩,
   ⟨(wGroup wG), 4, 2, 12, 0, 2, 4, wG, wBlock, by decide +kernel⟩,
   ⟨(wGroup wG), 4, 2, 2, 0, 4, wG, wBlock, by decide +kernel⟩⟩

theorem test_met_GroupMemory :
  (∃ (s : State) (t : TileNo) (g : Fin 32) (size : Fin 4) (signed : Bool) (rd : GReg) (base : GReg) (pair : Bool) (off : BitVec 16) (x : Group) (b : Block),
      s.groupMemory t g x b ⟨.load size signed rd, base, pair, off⟩ .read ∧ x.inPocket ⟨.load size signed rd, base, pair,
      off⟩)
  ∧ (∃ (s : State) (t : TileNo) (g : Fin 32) (size : Fin 4) (rs : GReg) (base : GReg) (pair : Bool) (off : BitVec 16) (x : Group) (b : Block),
      s.groupMemory t g x b ⟨.store size rs, base, pair, off⟩ .write ∧ x.inPocket ⟨.store size rs, base, pair, off⟩)
  ∧ (∃ (s : State) (t : TileNo) (g : Fin 32) (op : AtomOp) (size : Fin 5) (rd : GReg) (rs : GReg) (base : GReg) (rc : Option GReg) (pair : Bool) (off : BitVec 16) (imm : BitVec 16) (x : Group) (b : Block),
      s.groupMemory t g x b ⟨.atomic op size rd rs rc imm, base, pair, off⟩ .atomic ∧ x.inPocket ⟨.atomic op size rd rs rc
      imm, base, pair, off⟩)
  ∧ (∃ (s : State) (s2 : State) (t : TileNo) (g : Fin 32) (o : GMemOp) (c : Instr) (k : XKind) (x : Group) (b : Block) (l : Nat) (f : Side) (a : U64),
      (match o.kind with | .load n sg rd => decide (c = .groupLoad t g n sg rd o.base o.pair o.off ∧ k = .read) | .store n rs => decide (c = .groupStore t g n rs o.base o.pair o.off ∧ k = .write) | .atomic op n rd rs rc imm => decide (c = .groupAtomic t g op n rd rs o.base rc o.pair o.off imm ∧ k = .atomic))
      = true ∧ s.groupMemory t g x b o k ∧ nextLane x.running 0 = some l ∧ ((isAtomicOp o = true → (x.va o l).toNat % gsize
      o.kind = 0)) ∧ (s.gmemBegun t g x b o k).accessFault t .lvu b.tctx b.kernel k (x.va o l) (gsize o.kind) = some (f, a,
      s2) ∧ f.walking? = none) :=
  ⟨⟨(wGroup wG), 4, 2, 1, true, 9, 2, true, 4, wG, wBlock, by decide +kernel⟩,
   ⟨(wGroup wG), 4, 2, 3, 4, 2, true, 8, wG, wBlock, by decide +kernel⟩,
   ⟨(wGroup wG), 4, 2, .add, 2, 9, 4, 2, none, true, 4, 0, wG, wBlock, by decide +kernel⟩,
   ⟨(wGroup wG), wFaulted, 4, 2, ⟨.load 2 true 9, 3, true, 0⟩, (.groupLoad 4 2 2 true 9 3 true 0), .read, wG, wBlock, 0,
    .page, 0xFFFFFFF001FFFFFF, by decide +kernel⟩⟩

theorem test_met_GroupControlFlow :
  (∃ (s : State) (t : TileNo) (g : Fin 32) (x : Group) (b : Block),
      s.groupIssues t g x b 1 [])
  ∧ (∃ (s : State) (t : TileNo) (g : Fin 32) (ra : GReg) (x : Group) (b : Block),
      s.groupIssues t g x b 1 [ra])
  ∧ (∃ (l : Nat),
      l < 64)
  ∧ (∃ (s : State) (t : TileNo) (g : Fin 32) (imm : BitVec 16) (c : Instr) (x : Group) (b : Block),
      s.gready t g = some (x, b) ∧ x.mem = none ∧ ((s.fetched t x b).resolve t .lvu b.tctx b.kernel .fetch x.pc 8).faults =
      true ∧ ((c = .gfence t g ∨ c = .gbra t g imm ∨ c = .gsync t g ∨ c = .gexit t g)))
  ∧ (∃ (x : Group) (target : U64) (m : U64) (r : List PathEntry),
      m &&& x.live ≠ 0 ∧ x.stack = .mark target m :: r ∧ (∀ e ∈ r, isBarrier e = false))
  ∧ (∃ (s : State) (t : TileNo) (g : Fin 32) (rb : GReg) (imm : BitVec 16) (x : Group) (b : Block),
      s.groupIssues t g x b 1 [rb] ∧ imm.toNat % 64 < b.ngates ∧ x.lanes rb x.low 1 ≤ gateVal (s.tile t).grp.gates (b.gateBase
      + imm.toNat % 64))
  ∧ (∃ (s : State) (t : TileNo) (g : Fin 32) (rb : GReg) (imm : BitVec 16) (x : Group) (b : Block),
      s.groupIssues t g x b 1 [rb] ∧ b.ngates ≤ imm.toNat % 64) :=
  ⟨⟨(wGroup wG), 4, 2, wG, wBlock, by decide +kernel⟩,
   ⟨(wGroup wG), 4, 2, 1, wG, wBlock, by decide +kernel⟩,
   ⟨3, by decide +kernel⟩,
   ⟨(wGroup { wG with pc := 0xFFFFF000000000 }), 4, 2, 5, (.gsync 4 2), { wG with pc := 0xFFFFF000000000 }, wBlock,
    by decide +kernel⟩,
   ⟨{ wG with stack := [.mark 0x4000 0xF] }, 0x4000, 0xF, [], by decide +kernel⟩,
   ⟨(wGroup wG), 4, 2, 5, 1, wG, wBlock, by decide +kernel⟩,
   ⟨(wGroup wG), 4, 2, 5, 3, wG, wBlock, by decide +kernel⟩⟩

theorem test_met_GlideStreamCommands :
  (∃ (c : Instr) (op : Nat) (t : TileNo) (s : State) (s1 : State) (s2 : State) (b : BitVec 256) (st : Stream) (i : Nat) (x : Issuing),
      s.slotOpens t 3 op b s1 st i x ∧ ((op = 1 ∧ c = .gstart t .bundle ∧ s2 = s1.gStartCmd t (gStream (slotG b)) ((qGet x.q
      (gDreg (slotG b)) + gDoff (slotG b) * 64) % 2097152) st.tctx st.kernel ∨ op = 2 ∧ c = .gcredit t .bundle ∧ s2 =
      s1.gCreditCmd t (gStream (slotG b)) (gCount (slotG b)) ∨ op = 3 ∧ c = .ghalt t .bundle ∧ s2 = s1.gHaltCmd t (gStream
      (slotG b)) ∨ op = 4 ∧ c = .gadd t ∧ s2 = s1.gateAdd t (gGate (slotG b)) (gCount (slotG b)))))
  ∧ (∃ (s : State) (p : Principal) (t : TileNo),
      s.glideAccess p t true = true ∧ s.fenced t = false)
  ∧ (∃ (s : State) (p : Principal) (t : TileNo) (i : Fin 16) (a : U64) (c : Instr),
      ((s.glideAccess p t true = false ∨ s.fenced t = true)) ∧ ((c = .gstart t (.window p i a) ∨ c = .gcredit t (.window p i
      a) ∨ c = .ghalt t (.window p i a) ∨ c = .glideResume p t i ∨ c = .glideAbort p t i)))
  ∧ (∃ (i : Nat),
      i < 16)
  ∧ (∃ (s : State) (t : Nat) (i : Nat) (off : Nat) (d : List U64),
      i < 16 ∧ (s.stream t i).state ≠ .running ∧ (s.stream t i).state ≠ .stopped ∧ d = clampDesc ((List.range 8).map (fun w =>
      BitVec.ofNat 64 (leNat (ringRead 2097152 (s.tile t).pocket (off % 2097152 / 64 * 64 + 8 * w) 8)))) ∧ ((badDesc d = true
      ∨ dCmode d = 0)))
  ∧ (∃ (s : State) (t : Nat) (i : Nat),
      (((s.stream t i).state = .running ∨ (s.stream t i).state = .stopped))) :=
  ⟨⟨(.gcredit 4 .bundle), 2, 4, (wEng (wSeq [wGB 2])), (wBegun (wEng (wSeq [wGB 2]))), ((wBegun (wEng (wSeq [wGB
    2]))).gCreditCmd 4 3 2), (wGB 2), (wHead (wBegun (wEng (wSeq [wGB 2])))), 0, (wIss (wBegun (wEng (wSeq [wGB 2])))),
    by decide +kernel⟩,
   ⟨(wStream wRunning), .h, 4, by decide +kernel⟩,
   ⟨(wStream wRunning), .m, 4, 3, 5, (.ghalt 4 (.window .m 3 5)), by decide +kernel⟩,
   ⟨3, by decide +kernel⟩,
   ⟨wStart, 4, 3, 64, wDesc, by decide +kernel⟩,
   ⟨(wStream wRunning), 4, 3, by decide +kernel⟩⟩

theorem test_met_GlideTiles :
  (∃ (s : State) (t : TileNo) (i : Fin 16),
      s.runs t = true ∧ (s.stream t i).canStart = true ∧ ((dGathers (s.stream t i).desc = false ∨ dKsrc (s.stream t i).desc ≠
      0)))
  ∧ (∃ (s : State) (s1 : State) (t : TileNo) (i : Fin 16) (j : TileJob) (n : Nat) (a : Nat) (shr : Bool),
      s.ready = true ∧ s.fenced t = false ∧ (s.tile t).glide.reqs.length < 512 ∧ (rrOrder (s.tile t).glide.rr).find? (fun q =>
      s.wantsGlide t q) = some i.val ∧ (s.stream t i).keyDue = false ∧ (s.stream t i).nextJob = some j ∧ dGathers (s.stream t
      i).desc = false ∧ dDir (s.stream t i).desc = false ∧ dRkind (s.stream t i).desc = false ∧ j.second = false ∧ (∀ f ∈
      (s.stream t i).flight, f.tagBad = false) ∧ n = requestLen (s.stream t i).desc j j.next ∧ s1 = s.glideReads t i j ∧
      (s1.glideSide t (s1.stream t i) true .read j.k j.next n).1 = .mem a shr ∧ s1.quietAt a n ∧ s.jobCharge t i j ≤ (s.tile
      t).acct.memory + (s.tile t).acct.unreserved)
  ∧ (∃ (s : State) (t : TileNo) (i : Fin 16) (j : TileJob) (r : List TileJob),
      (s.stream t i).flight = j :: r ∧ (s.stream t i).state = .running ∧ (s.stream t i).aborting = false ∧ dGathers (s.stream
      t i).desc = false ∧ (s.stream t i).halting = false ∧ (s.stream t i).stopping = false ∧ j.got = jobTotal (s.stream t
      i).desc j ∧ j.fault = none)
  ∧ (∃ (s : State) (t : TileNo) (i : Fin 16) (j : TileJob) (r : List TileJob) (cause : Nat) (va : U64),
      (s.stream t i).flight = j :: r ∧ j.fault = some (cause, va) ∧ (s.stream t i).aborting = false) :=
  ⟨⟨(wStream wRunning), 4, 3, by decide +kernel⟩,
   ⟨(wMem (wStream { wRunning with flight := [{ k := 0 }], desc := 0x01000600004 :: wDesc.drop 1 })), ((wMem (wStream
    { wRunning with flight := [{ k := 0 }], desc := 0x01000600004 :: wDesc.drop 1 })).glideReads 4 3 { k := 0 }), 4, 3,
    { k := 0 }, 16, 0x01000600004, false, by decide +kernel⟩,
   ⟨(wStream { wRunning with flight := [{ k := 0, got := 32, plain := [1, 2] }] }), 4, 3,
    { k := 0, got := 32, plain := [1, 2] }, [], by decide +kernel⟩,
   ⟨(wStream { wRunning with flight := [{ k := 0, fault := some (1, 0x555) }, { k := 1 }] }), 4, 3,
    { k := 0, fault := some (1, 0x555) }, [{ k := 1 }], 1, 0x555, by decide +kernel⟩⟩

theorem test_met_GlideWindowRegisters :
  (∃ (s : State) (p : Principal) (t : TileNo),
      s.glideAccess p t true = true ∧ s.fenced t = false)
  ∧ (∃ (s : State) (p : Principal) (t : TileNo),
      s.glideAccess p t false = true ∧ s.fenced t = false)
  ∧ (∃ (s : State) (p : Principal) (t : TileNo) (g : Fin 64) (k : Fin 8) (v : U64) (c : Instr),
      ((s.glideAccess p t true = false ∨ s.fenced t = true)) ∧ ((c = .gateWrite p t g v ∨ c = .gateovfClear p t v ∨ c =
      .gateunderClear p t v ∨ c = .sctlWrite p t k v ∨ c = .svalWrite p t k v))) :=
  ⟨⟨w0, .h, 4, by decide +kernel⟩,
   ⟨(wStream wRunning), .s, 4, by decide +kernel⟩,
   ⟨(wStream wRunning), .s, 4, 0, 0, 3, (.sctlWrite .s 4 0 3), by decide +kernel⟩⟩

theorem test_met_TranslationCommands :
  (∃ (s : State) (t : TileNo) (sa : Fin 32) (sb : Fin 32) (c : Instr) (i : Inv),
      s.coreReads t [sa, sb] [] = true ∧ s.storesDue t = false ∧ ((c = .tinva t false sa sb ∧ i = ⟨0, s.xreg t sa, (s.xreg t
      sb).setWidth 16⟩ ∨ c = .tinvs t false sb ∧ i = ⟨1, 0, (s.xreg t sb).setWidth 16⟩ ∨ c = .tinvd t false ∧ i = ⟨2, 0, 0⟩)))
  ∧ (∃ (s : State) (t : TileNo),
      s.coreRuns t = true)
  ∧ (∃ (s : State) (t : TileNo) (sa : Fin 32) (sb : Fin 32) (c : Instr),
      s.coreReads t [sa, sb] [] = true ∧ ((c = .tinva t true sa sb ∨ c = .tinvs t true sb ∨ c = .tinvd t true ∨ c = .tsync t
      true ∨ c = .tctxWrite t true sa ∨ c = .etctxWrite t true sa)))
  ∧ (∃ (s : State) (t : TileNo) (sa : Fin 32),
      s.coreReads t [sa] [] = true ∧ s.vectorIdle t = true)
  ∧ (∃ (s : State) (t : TileNo) (sa : Fin 32),
      s.coreReads t [sa] [] = true)
  ∧ (∃ (s : State) (t : TileNo) (w : WalkRow) (va : U64) (ctx : U64),
      s.runs t = true ∧ va.toNat % 2 ^ 57 < 0x1FFFFFFFFE00000 ∧ ctx.getLsbD 63 = true ∧ (∀ e ∈ (s.cuff t (rowCuff w)).entries,
      e.hits (ctxAsid ctx) (va.toNat % 2 ^ 57) = false))
  ∧ (∃ (s : State) (r : RowAt) (m : Miss),
      (s.tile r.t).xlat.asking r.row = some m)
  ∧ (∃ (s : State) (r : WalkAt) (m : Miss) (a : Nat),
      ((s.tile r.t).xlat.walks r.row)[r.n.val]? = some m ∧ (s.walkAll (walkReader r.t (rowCuff r.row)) (s.tag r.t) (s.cuff r.t
      (rowCuff r.row)) m.tctx (m.va.toNat % 2 ^ 57) m.kernel m.kind).1 = .error (.wait a))
  ∧ (∃ (s : State) (r : WalkAt) (m : Miss) (z : Except Xl XEntry),
      ((s.tile r.t).xlat.walks r.row)[r.n.val]? = some m ∧ z = (s.walkAll (walkReader r.t (rowCuff r.row)) (s.tag r.t) (s.cuff
      r.t (rowCuff r.row)) m.tctx (m.va.toNat % 2 ^ 57) m.kernel m.kind).1 ∧
      (match z with | .error (.wait _) => false | _ => true) = true)
  ∧ (∃ (s : State) (t : TileNo) (i : Inv) (rest : List Inv),
      (s.tile t).xlat.inv = i :: rest ∧ s.xlOutstanding (s.tag t) [i] = false)
  ∧ (∃ (s : State) (t : TileNo) (i : Inv) (rest : List Inv),
      (s.tile t).xlat.inv = i :: rest ∧ ((∃ x, x < 192 ∧ s.tag x = s.tag t ∧ ((s.tile x).l2.out ≠ [] ∨ ∃ f ∈ (s.tile
      x).glide.streams, ∃ j ∈ f.flight, ∃ e ∈ j.xl, i.removes e = true)))) :=
  ⟨⟨(wX {}), 4, 1, 2, (.tinva 4 false 1 2), ⟨0, 0x12345000, 5⟩, by decide +kernel⟩,
   ⟨(wX {}), 4, by decide +kernel⟩,
   ⟨(wX {}), 4, 1, 2, (.tsync 4 true), by decide +kernel⟩,
   ⟨(wX {}), 4, 1, by decide +kernel⟩,
   ⟨(wX {}), 4, 1, by decide +kernel⟩,
   ⟨(wX { core := { entries := [wEntry 1] } }), 4, (.stream 3), 0x12345678, 0x8000000000000005, by decide +kernel⟩,
   ⟨(wX { misses := [wMiss false] }), ⟨4, .core⟩, (wMiss false), by decide +kernel⟩,
   ⟨wWait, ⟨4, .core, 0⟩, wWalk, 0x01000000000, by decide +kernel, waits_of (by decide +kernel)⟩,
   ⟨(wTable 7), ⟨4, .core, 0⟩, wWalk, (wZ (wTable 7)), by decide +kernel, rfl, by decide +kernel⟩,
   ⟨(wX { inv := [⟨1, 0, 5⟩], core := { entries := [wEntry 1, { wEntry 2 with asid := 6 }] } }), 4, ⟨1, 0, 5⟩, [],
    by decide +kernel⟩,
   ⟨((wX { inv := [⟨1, 0, 5⟩] }).onTile 4 (fun y => { y with l2 := { y.l2 with out := [wOut true] } })), 4, ⟨1, 0, 5⟩, [],
    by decide +kernel⟩⟩

theorem test_met_ShootdownRing :
  (∃ (s : State) (p : Principal),
      s.dictFree = true ∧ s.writeCheck p 0x1A01 3 = 0 ∧ s.obj 0x1A01 4 < 2 ^ 32 ∧ s.obj 0x1A01 2 < 2 ^ 31)
  ∧ (∃ (s : State) (p : Principal),
      s.dictFree = true ∧ s.writeCheck p 0x1A01 5 = 0)
  ∧ (∃ (s : State) (p : Principal) (v : U32) (b : Bool) (c : Instr) (j : Nat),
      ((c = .shootdownTailWrite p v ∧ j = 3 ∨ c = .shootdownRingEnable p b ∧ j = 5)) ∧ (s.writeCheck p 0x1A01 j ≠ 0 ∨
      s.dictFree = false))
  ∧ (∃ (s : State) (r : Bytes),
      (s.collars.shooting = true ∧ s.obj 0x1A01 4 < 2 ^ 32 - 1 ∧ s.obj 0x1A01 3 = s.obj 0x1A01 4 + 1) ∧ s.shootRecord (s.obj
      0x1A01 4) = .ok r ∧ s.xlOutstanding 0 (recordInvs r) = false ∧ s.canonical ∧ s.reaches 0 (s.obj 0x1A01 1 + 16 * s.obj
      0x1A01 2) = true ∧ s.quietAt (s.obj 0x1A01 1 + 16 * s.obj 0x1A01 2) 8)
  ∧ (∃ (s : State) (d : Nat) (l : Except Nat (List Inv)),
      (s.collars.shooting = true ∧ d = (s.obj 0x1A01 3 + 2 ^ 32 - s.obj 0x1A01 4) % 2 ^ 32 ∧ ((s.reaches 0 (s.obj 0x1A01 1 +
      16 * s.obj 0x1A01 2) = true → s.sReady (s.obj 0x1A01 1 + 16 * s.obj 0x1A01 2) 8 = true))) ∧ l = s.shootRecords (s.obj
      0x1A01 4) (if d < 2 ^ 31 then d else 0) ∧ ((l.toBool = false ∨ ∃ x, x < 192 ∧ s.tag x = 0 ∧ (s.tile x).l2.out ≠ []))) :=
  ⟨⟨(((wUp.setObj 0x1A01 4 7).setObj 0x1A01 2 4).setObj 0x1A01 5 1), .h, by decide +kernel⟩,
   ⟨((wUp.setObj 0x1A01 4 7).setObj 0x1A01 3 9), .h, by decide +kernel⟩,
   ⟨wUp, (.c 3), 9, true, (.shootdownTailWrite (.c 3) 9), 3, by decide +kernel⟩,
   ⟨wShoot, (wRec wShoot), by decide +kernel, gives_of (by decide +kernel), by decide +kernel⟩,
   ⟨((wShoot.onTile 9 (fun y => { y with l2 := { y.l2 with out := [wOut true] } }))), 1, (((wShoot.onTile 9 (fun y =>
    { y with l2 := { y.l2 with out := [wOut true] } }))).shootRecords 7 1), by decide +kernel, rfl, by decide +kernel⟩⟩

theorem test_met_HomeServesRequests :
  (∃ (s : State) (n : Fin 195) (at_ : LineRead) (k : MsgKind) (c : Instr) (m : Msg) (rest : List Msg),
      n < 192 ∧ (k, c) ∈ [(MsgKind.rds, Instr.rds n at_), (.rdx, .rdx n at_), (.upg, .upg n at_), (.rdnc, .rdnc n at_),
      (.wrnc, .wrnc n at_), (.atom, .atom n at_)] ∧ s.arrives k at_.line.toNat (fun m => decide (m.src = n) && decide (m.dst =
      homeNode)) m rest)
  ∧ (∃ (s : State) (n : Fin 195) (at_ : LineRead) (k : MsgKind) (c : Instr) (m : Msg) (rest : List Msg),
      n < 192 ∧ s.capped (64 * at_.line.toNat) = false ∧ (k, c) ∈ [(MsgKind.rds, Instr.rds n at_), (.rdx, .rdx n at_), (.upg,
      .upg n at_), (.rdnc, .rdnc n at_)] ∧ s.arrives k at_.line.toNat (fun m => decide (m.src = n) && decide (m.dst =
      homeNode)) m rest ∧ s.reachesAll (s.nodeTag n) (64 * at_.line.toNat) 64 = true ∧ s.handOf at_.line.toNat = none ∧
      (s.filterOf at_.line.toNat).owner = none ∧ (s.filterOf at_.line.toNat).sharers.getLsbD 192 = false ∧ s.filterRoom
      at_.line.toNat ∧ s.noneWaits at_.line.toNat ∧ lineErr (s.meet at_.line.toNat at_.found).mem at_.line.toNat = none)
  ∧ (∃ (s : State) (n : Fin 195) (at_ : LineRead) (m : Msg) (rest : List Msg) (atomic : Bool),
      n < 192 ∧ s.capped (64 * at_.line.toNat) = false ∧ s.arrives (if atomic then .atom else .wrnc) at_.line.toNat (fun m =>
      decide (m.src = n) && decide (m.dst = homeNode)) m rest ∧ s.reachesAll (s.nodeTag n) (64 * at_.line.toNat) 64 = true ∧
      s.handOf at_.line.toNat = none ∧ s.filterOf at_.line.toNat = {} ∧ s.noneWaits at_.line.toNat ∧ lineErr (s.meet
      at_.line.toNat at_.found (!atomic)).mem at_.line.toNat = none ∧ (s.meet at_.line.toNat at_.found (!atomic)).writeFails
      at_.line.toNat = false ∧ s.canonical ∧ (if atomic then m.off + m.size ≤ 64 ∧ m.op.isSome = true else m.mask.length = 64
      ∧ m.data.length = 64))
  ∧ (∃ (s : State) (n : Fin 195) (at_ : LineRead) (k : MsgKind) (c : Instr) (m : Msg) (rest : List Msg) (e : LineErr),
      n < 192 ∧ s.capped (64 * at_.line.toNat) = false ∧ (k, c) ∈ [(MsgKind.rds, Instr.rds n at_), (.rdx, .rdx n at_), (.rdnc,
      .rdnc n at_)] ∧ s.arrives k at_.line.toNat (fun m => decide (m.src = n) && decide (m.dst = homeNode)) m rest ∧
      s.reachesAll (s.nodeTag n) (64 * at_.line.toNat) 64 = true ∧ s.handOf at_.line.toNat = none ∧ (s.filterOf
      at_.line.toNat).owner = none ∧ s.noneWaits at_.line.toNat ∧ s.filterRoom at_.line.toNat ∧ lineErr (s.meet at_.line.toNat
      at_.found).mem at_.line.toNat = some e ∧ e ≠ .correctable)
  ∧ (∃ (s : State) (n : Fin 195) (at_ : LineRead) (k : MsgKind) (c : Instr) (x : Option (Msg × List Msg)),
      n < 192 ∧ (k, c) ∈ [(MsgKind.rds, Instr.rds n at_), (.rdx, .rdx n at_), (.upg, .upg n at_), (.rdnc, .rdnc n at_),
      (.wrnc, .wrnc n at_), (.atom, .atom n at_)] ∧ x = takeMsg (fun m => decide (m.kind = k) && decide (m.line =
      at_.line.toNat) && (decide (m.src = n) && decide (m.dst = homeNode))) s.coh.net ∧ ((x = none ∨ s.capped (64 *
      at_.line.toNat) = true ∧ s.handOf at_.line.toNat = none ∧ s.reachesAll (s.nodeTag n) (64 * at_.line.toNat) 64 = true))) :=
  ⟨⟨(wNet (wMsg .rds) { owner := some 9 }), 4, ⟨wLine, none⟩, .rds, (.rds 4 ⟨wLine, none⟩), (wMsg .rds),
    [{ wMsg .rds with line := 7 }], by decide +kernel⟩,
   ⟨(wNet (wMsg .rds) {}), 4, ⟨wLine, none⟩, .rds, (.rds 4 ⟨wLine, none⟩), (wMsg .rds), [{ wMsg .rds with line := 7 }],
    by decide +kernel⟩,
   ⟨(wNet (wMsg .atom) {}), 4, ⟨wLine, none⟩, (wMsg .atom), [{ wMsg .atom with line := 7 }], true, by decide +kernel⟩,
   ⟨(wNet (wMsg .rds) {}), 4, ⟨wLine, some (.bytes 2)⟩, .rds, (.rds 4 ⟨wLine, some (.bytes 2)⟩), (wMsg .rds),
    [{ wMsg .rds with line := 7 }], .uncorrectable, by decide +kernel⟩,
   ⟨{ wNet (wMsg .rds) {} with mem := { hbm := List.replicate 40 { cap := 4 }, started := List.replicate 240 255999 } }, 4,
    ⟨wLine, none⟩, .rds, (.rds 4 ⟨wLine, none⟩), (some (wMsg .rds, [{ wMsg .rds with line := 7 }])), by decide +kernel⟩⟩

theorem test_met_CachesAndHomeExchange :
  (∃ (s : State) (t : Fin 193) (line : BitVec 38) (k : MsgKind) (c : Instr) (m : Msg) (rest : List Msg) (l : L2Line),
      t < 192 ∧ (k, c) ∈ [(MsgKind.snps, Instr.snps t line), (.snpx, .snpx t line), (.snpcur, .snpcur t line), (.snpinv,
      .snpinv t line), (.inv, .inv t line)] ∧ s.arrives k line.toNat (fun m => decide (m.dst = t)) m rest ∧ m.req % 256 < 192
      ∧ (∀ o ∈ (s.tile t).l2.out, o.line ≠ line.toNat) ∧ s.wbOf t line.toNat = none ∧ l = s.l2 t line.toNat)
  ∧ (∃ (s : State) (t : Fin 193) (line : BitVec 38) (m : Msg) (rest : List Msg) (d : Bytes),
      t < 192 ∧ s.arrives .snps line.toNat (fun m => decide (m.dst = t)) m rest ∧ s.wbOf t line.toNat = some d)
  ∧ (∃ (s : State) (t : Fin 193) (line : BitVec 38) (m : Msg) (rest : List Msg) (o : Outstanding),
      t < 192 ∧ s.arrives .snpx line.toNat (fun m => decide (m.dst = t)) m rest ∧ (s.tile t).l2.out = [o] ∧ o.line =
      line.toNat ∧ o.dest = .store ∧ (s.l2 t line.toNat).st = .i ∧ s.wbOf t line.toNat = none)
  ∧ (∃ (s : State) (t : Fin 193) (line : BitVec 38) (m : Msg) (rest : List Msg) (o : Outstanding),
      t < 192 ∧ s.arrives .data line.toNat (fun m => decide (m.dst = t)) m rest ∧ (s.tile t).l2.out = [o] ∧ o.line =
      line.toNat ∧ o.write = false ∧ m.unit_ = 0 ∧ (s.tile t).l2.held = [] ∧ (s.tile t).l2.lines.length < 16384)
  ∧ (∃ (s : State) (t : Fin 193) (line : BitVec 38) (m : Msg) (rest : List Msg) (o : Outstanding) (p : PendStore) (upgraded : Bool),
      t < 192 ∧ s.arrives (if upgraded then .cmp else .datax) line.toNat (fun m => decide (m.dst = t)) m rest ∧ (s.tile
      t).l2.out = [o] ∧ o.line = line.toNat ∧ o.write = true ∧ (s.tile t).l2.held = [] ∧ (s.tile t).l2.lines.length < 16384 ∧
      (s.tile t).core.storeQ = [p] ∧ p.addr = o.addr ∧ p.data.length = o.size ∧ ((if upgraded then (s.l2 t line.toNat).st = .s
      else m.excl = false ∨ o.done = true)))
  ∧ (∃ (s : State) (t : Fin 193) (line : BitVec 38) (m : Msg) (rest : List Msg) (o : Outstanding),
      t < 192 ∧ s.arrives .cmp line.toNat (fun m => decide (m.dst = t)) m rest ∧ (s.tile t).l2.out = [o] ∧ o.line = line.toNat
      ∧ (s.l2 t line.toNat).st = .i)
  ∧ (∃ (s : State) (t : Fin 193) (line : BitVec 38) (m : Msg) (rest : List Msg) (o : Outstanding),
      t < 192 ∧ s.arrives .atomrsp line.toNat (fun m => decide (m.dst = t)) m rest ∧ (s.tile t).l2.out = [o] ∧ o.line =
      line.toNat ∧ (s.tile t).l2.held = [])
  ∧ (∃ (s : State) (t : Fin 193) (line : BitVec 38) (m : Msg) (rest : List Msg) (o : Outstanding),
      t < 192 ∧ s.arrives .err line.toNat (fun m => decide (m.dst = t)) m rest ∧ (s.tile t).l2.out = [o] ∧ o.line = line.toNat
      ∧ o.write = false ∧ (s.tile t).l2.held = [])
  ∧ (∃ (s : State) (n : Fin 193) (line : BitVec 38) (m : Msg) (rest : List Msg) (x : Txn),
      n < 192 ∧ s.arrives .invack line.toNat (fun m => decide (m.src = n)) m rest ∧ s.handOf line.toNat = some x ∧ n.val ∈
      x.acks ∧ x.inner = false ∧ x.msg.src < 192 ∧ ((x.msg.kind = .rdx ∨ x.msg.kind = .upg)) ∧ s.coh.wait = [])
  ∧ (∃ (s : State) (n : Fin 193) (line : BitVec 38) (m : Msg) (rest : List Msg) (x : Txn),
      n < 192 ∧ s.arrives .snprsp line.toNat (fun m => decide (m.src = n)) m rest ∧ s.handOf line.toNat = some x ∧ x.snoop =
      true ∧ x.inner = false ∧ ((m.rsp = .clean ∨ m.rsp = .dirty)) ∧ m.data.length = 64 ∧ ((x.msg.kind = .rds ∨ x.msg.kind =
      .rdx)) ∧ s.coh.wait = [] ∧ s.scrubbed line.toNat = false ∧ s.writeFails line.toNat = false ∧ s.canonical)
  ∧ (∃ (s : State) (n : Fin 193) (line : BitVec 38) (m : Msg) (rest : List Msg),
      n < 192 ∧ s.arrives .wb line.toNat (fun m => decide (m.src = n)) m rest ∧ s.scrubbed line.toNat = false ∧ s.handOf
      line.toNat = none ∧ m.data.length = 64 ∧ s.writeFails line.toNat = false ∧ s.canonical)
  ∧ (∃ (s : State) (t : Fin 193) (line : BitVec 38),
      t < 192 ∧ lineHost line.toNat = false ∧ (s.l2 t line.toNat).st = .m ∧ (∀ m ∈ s.coh.net, m.kind ≠ .wb))
  ∧ (∃ (s : State) (t : Fin 193) (line : BitVec 38) (m : Msg) (rest : List Msg),
      t < 192 ∧ s.arrives .wback line.toNat (fun m => decide (m.dst = t)) m rest)
  ∧ (∃ (a : Nat),
      ((place a = .lining ∨ place a = .hbm))) :=
  ⟨⟨(wAt (wTo .snps) (wLn .m)), 4, wLine, .snps, (.snps 4 wLine), (wTo .snps), [{ wTo .snps with line := 7 }],
    { st := .m, data := List.replicate 64 3 }, by decide +kernel⟩,
   ⟨(wAt (wTo .snps) { wb := [(0x01000600000 / 64, [4])] }), 4, wLine, (wTo .snps), [{ wTo .snps with line := 7 }], [4],
    by decide +kernel⟩,
   ⟨(wAt (wTo .snpx) { out := [wOut true] }), 4, wLine, (wTo .snpx), [{ wTo .snpx with line := 7 }], (wOut true),
    by decide +kernel⟩,
   ⟨(wAt (wTo .data) { out := [wOut false] }), 4, wLine, (wTo .data), [{ wTo .data with line := 7 }], (wOut false),
    by decide +kernel⟩,
   ⟨(wSt (wAt (wTo .datax) { out := [wOut true] })), 4, wLine, (wTo .datax), [{ wTo .datax with line := 7 }], (wOut true),
    ⟨0x01000600008, [1, 2, 3, 4], false⟩, false, by decide +kernel⟩,
   ⟨(wAt (wTo .cmp) { out := [wOut true] }), 4, wLine, (wTo .cmp), [{ wTo .cmp with line := 7 }], (wOut true),
    by decide +kernel⟩,
   ⟨(wAt (wTo .atomrsp) { out := [{ wOut false with dest := .atom 3 8 }] }), 4, wLine, (wTo .atomrsp),
    [{ wTo .atomrsp with line := 7 }], { wOut false with dest := .atom 3 8 }, by decide +kernel⟩,
   ⟨(wAt (wTo .err) { out := [wOut false] }), 4, wLine, (wTo .err), [{ wTo .err with line := 7 }], (wOut false),
    by decide +kernel⟩,
   ⟨(wHand { wMsg .invack with src := 9 } { msg := wMsg .rdx, acks := [9] } { owner := some 4 }), 9, wLine,
    { wMsg .invack with src := 9 }, [{ wMsg .invack with src := 9, line := 7 }], { msg := wMsg .rdx, acks := [9] },
    by decide +kernel⟩,
   ⟨(wHand { wMsg .snprsp with src := 9, rsp := .dirty } { msg := wMsg .rds, snoop := true } { owner := some 9 }), 9, wLine,
    { wMsg .snprsp with src := 9, rsp := .dirty }, [{ wMsg .snprsp with src := 9, rsp := .dirty, line := 7 }],
    { msg := wMsg .rds, snoop := true }, by decide +kernel⟩,
   ⟨(wNet (wMsg .wb) { owner := some 4 }), 4, wLine, (wMsg .wb), [{ wMsg .wb with line := 7 }], by decide +kernel⟩,
   ⟨(wAt (wTo .data) (wLn .m)), 4, wLine, by decide +kernel⟩,
   ⟨(wAt (wTo .wback) { wb := [(0x01000600000 / 64, [4])] }), 4, wLine, (wTo .wback), [{ wTo .wback with line := 7 }],
    by decide +kernel⟩,
   ⟨0x01000600000, by decide +kernel⟩⟩

theorem test_met_LinkStates :
  (∃ (s : State) (p : Principal) (l : Link) (w : BitVec 8) (c : Instr),
      c = (match l with | .port n => .portControlWrite p n w | .hedom => .hedomLinkControlWrite p w) ∧ s.dictFree = true ∧
      s.writeCheck p (ctlObj l).1 (ctlObj l).2 = 0)
  ∧ (∃ (s : State) (p : Principal) (l : Link) (w : BitVec 8) (c : Instr),
      c = (match l with | .port n => .portControlWrite p n w | .hedom => .hedomLinkControlWrite p w) ∧ ((s.dictFree = false ∨
      s.writeCheck p (ctlObj l).1 (ctlObj l).2 ≠ 0)))
  ∧ (∃ (s : State) (n : Fin 32),
      s.linkLives (.port n) = true ∧ (s.port n.val).st = .down)
  ∧ (∃ (s : State) (n : Fin 32) (lanes : Fin 4),
      s.linkLives (.port n) = true ∧ (s.port n.val).st = .training ∧ lanes ≠ 0 ∧ (s.port n.val).still = true)
  ∧ (∃ (s : State) (lanes : Fin 4),
      s.linkLives .hedom = true ∧ s.hedom.link.st = .training ∧ lanes ≠ 0 ∧ s.hedom.link.out = [] ∧ s.hedom.link.resume =
      false)
  ∧ (∃ (s : State) (lanes : Fin 4),
      s.linkLives .hedom = true ∧ s.hedom.link.st = .training ∧ lanes ≠ 0 ∧ s.hedom.link.still = true ∧ s.hedom.link.resume =
      true ∧ s.hedom.link.rtry = false ∧ s.hedom.link.news = false)
  ∧ (∃ (s : State) (l : Link),
      (s.linkOf l).st = .training)
  ∧ (∃ (s : State) (l : Link) (peer : LinkCounts),
      s.linkLives l = true ∧ (s.linkOf l).st = .retraining ∧ (s.linkOf l).still = true ∧ (s.linkOf l).rtry = false ∧ (s.linkOf
      l).news = false ∧ s.keyFresh l (s.linkOf l).replay.length = true ∧ ((∀ i, i < 15 → let x := s.linkOf l; (if i = 14 then
      x.pool else tabGet 0 x.credits i) + (x.replay.filter (fun q => decide (q.kind = i) && !seqCovered (linkKind l).seqMod
      q.seq peer.ack.toNat)).length + tabGet 0 peer.buffered i + tabGet 0 peer.back i = (linkKind l).room i ∧ tabGet 0
      peer.credits i + tabGet 0 peer.flying i + tabGet 0 x.buf i + tabGet 0 x.back i = (linkKind l).room i)))
  ∧ (∃ (s : State) (l : Link) (c : Instr) (peer : LinkCounts),
      (s.linkOf l).st = .retraining ∧ (s.linkOf l).still = true ∧ ((c = .retrainTimeout l ∨ c = .retrainLock l peer ∧
      s.linkLives l = true ∧ (s.linkOf l).countsHold (linkKind l) peer = false)) ∧ s.hedom.txns = [] ∧ ((l = .hedom →
      s.coh.hand = [])))
  ∧ (∃ (s : State) (n : Fin 32),
      (((s.port n.val).st = .up ∨ (s.port n.val).st = .retraining)))
  ∧ (∃ (s : State) (r : RefClock) (k : Nat),
      k = (match r with | .ref100 => 0 | .ref156 => 1 | .ref25 => 2) ∧ s.pins.refLost.getLsbD k = false ∧ s.hedom.txns = [] ∧
      s.coh.hand = []) :=
  ⟨⟨(wPort 3 (wUpPort fabricLink)), .h, (.port 3), 2, (.portControlWrite .h 3 2), by decide +kernel⟩,
   ⟨(wPort 3 (wUpPort fabricLink)), (.c 4), (.port 3), 2, (.portControlWrite (.c 4) 3 2), by decide +kernel⟩,
   ⟨(wPort 31 {}), 31, by decide +kernel⟩,
   ⟨(wPort 31 { st := .training }), 31, 3, by decide +kernel⟩,
   ⟨(wHed { st := .training }), 2, by decide +kernel⟩,
   ⟨(wHed { wUpPort hedomLink with st := .training, resume := true }), 2, by decide +kernel⟩,
   ⟨(wHed { st := .training }), .hedom, by decide +kernel⟩,
   ⟨(wPort 3 ({ wUpPort fabricLink with st := .retraining })), (.port 3), (wPeer fabricLink
    ({ wUpPort fabricLink with st := .retraining })), by decide +kernel⟩,
   ⟨(wPort 3 { wUpPort fabricLink with st := .retraining }), (.port 3), (.retrainTimeout (.port 3)), wNoPeer,
    by decide +kernel⟩,
   ⟨(wPort 3 (wUpPort fabricLink)), 3, by decide +kernel⟩,
   ⟨(wPort 3 (wUpPort fabricLink)), .ref100, 0, by decide +kernel⟩⟩

theorem test_met_LinkTraffic :
  (∃ (s : State) (l : Link),
      (s.linkOf l).st ≠ .up ∧ (s.linkOf l).st ≠ .attesting)
  ∧ (∃ (s : State) (l : Link) (f : Flit) (x : Port),
      x = s.linkOf l ∧ ((x.st = .up ∨ x.st = .attesting)) ∧ x.still = true ∧ s.keyFresh l 0 = true ∧ ((x.checkFlit (linkKind
      l) f = none ∨ (x.checkFlit (linkKind l) f).isSome = true ∧ x.st = .up ∧ x.asking = false ∧ f.vc.val < 6 ∧ f.seq.toNat %
      (linkKind l).seqMod ≠ (x.ack + 1) % (linkKind l).seqMod ∧ seqCovered (linkKind l).seqMod (f.seq.toNat % (linkKind
      l).seqMod) x.ack = false)))
  ∧ (∃ (s : State) (l : Link) (f : Flit) (x : Port),
      x = s.linkOf l ∧ x.st = .up ∧ (x.checkFlit (linkKind l) f).isSome = true ∧ x.asking = true ∧ ((6 ≤ f.vc.val ∨
      f.seq.toNat % (linkKind l).seqMod ≠ (x.ack + 1) % (linkKind l).seqMod)))
  ∧ (∃ (s : State) (l : Link) (f : Flit) (b : Bytes) (x : Port) (ps : List Packet) (i : Nat),
      x = s.linkOf l ∧ x.st = .up ∧ x.checkFlit (linkKind l) f = some b ∧ x.pool + f.scnt.toNat ≤ (linkKind l).pool ∧ ((∀ i, i
      < 14 → tabGet 0 x.credits i + (if i = 2 * f.cvc.val + flag f.ccls then f.ccnt.toNat else 0) ≤ tabGet 0 (fullCredits
      (linkKind l)) i)) ∧ f.rtry = false ∧ f.vc.val < 5 ∧ f.seq.toNat % (linkKind l).seqMod = (x.ack + 1) % (linkKind
      l).seqMod ∧ x.still = true ∧ s.keyFresh l 0 = true ∧ x.roomFor (linkKind l) (2 * f.vc.val + flag f.cls) = some i ∧ (∀ q
      ∈ x.parts, ∀ h ∈ q.held, h.port = linkNo l) ∧ ps = (x.absorb (linkKind l) (linkNo l) i f b).1 ∧ ((∀ p ∈ ps, listed
      (linkKind l) f.vc.val p.opc = true ∧ (l ≠ .hedom → p.dpid = s.pkg))))
  ∧ (∃ (s : State) (l : Link) (f : Flit) (x : Port),
      x = s.linkOf l ∧ x.st = .up ∧ (x.checkFlit (linkKind l) f).isSome = true ∧ x.asking = false ∧ x.pool + f.scnt.toNat ≤
      (linkKind l).pool ∧ ((∀ i, i < 14 → tabGet 0 x.credits i + (if i = 2 * f.cvc.val + flag f.ccls then f.ccnt.toNat else 0)
      ≤ tabGet 0 (fullCredits (linkKind l)) i)) ∧ ((6 ≤ f.vc.val ∨ f.seq.toNat % (linkKind l).seqMod ≠ (x.ack + 1) % (linkKind
      l).seqMod ∧ seqCovered (linkKind l).seqMod (f.seq.toNat % (linkKind l).seqMod) x.ack = true)) ∧ x.still = true ∧ x.rtry
      = false ∧ x.news = false ∧ s.keyFresh l x.replay.length = true ∧ x.replays < 16 ∧ (∀ q ∈ x.replay, seqCovered (linkKind
      l).seqMod q.seq f.ack.toNat = false))
  ∧ (∃ (s : State) (l : Link) (f : Flit) (x : Port),
      x = s.linkOf l ∧ x.st = .up ∧ (x.checkFlit (linkKind l) f).isSome = true ∧ ((6 ≤ f.vc.val ∧ x.asking = false ∨ f.vc.val
      < 6 ∧ f.seq.toNat % (linkKind l).seqMod = (x.ack + 1) % (linkKind l).seqMod)) ∧ x.still = true ∧ (linkKind l).pool <
      x.pool + f.scnt.toNat ∧ s.hedom.txns = [] ∧ ((l = .hedom → s.coh.hand = [])))
  ∧ (∃ (s : State) (n : Fin 32),
      (s.port n.val).st = .attesting ∧ (s.port n.val).step = 0 ∧ (s.port n.val).still = true)
  ∧ (∃ (s : State) (n : Fin 32),
      (s.port n.val).st = .attesting ∧ 3 ≤ (s.port n.val).step ∧ (s.port n.val).still = true)
  ∧ (∃ (s : State) (n : Fin 32),
      (s.port n.val).st = .up ∧ (s.port n.val).still = true) :=
  ⟨⟨(wHed { st := .down }), .hedom, by decide +kernel⟩,
   ⟨(wHed (wUpPort hedomLink)), .hedom, { wFlit 0 5 false 0 [] with tag := 5 }, (wUpPort hedomLink), by decide +kernel⟩,
   ⟨(wHed { wUpPort hedomLink with asking := true }), .hedom, (wFlit 0 6 false 0 []),
    { wUpPort hedomLink with asking := true }, by decide +kernel⟩,
   ⟨(wHed (wUpPort hedomLink)), .hedom, (wFlit 0 5 false 0 (wRdPkt.bytes hedomLink)), (wFlBody (wFlit 0 5 false 0
    (wRdPkt.bytes hedomLink))), (wUpPort hedomLink), ((wUpPort hedomLink).absorb hedomLink (linkNo .hedom) (((wUpPort
    hedomLink).roomFor hedomLink 0).getD 0) (wFlit 0 5 false 0 (wRdPkt.bytes hedomLink)) (wFlBody (wFlit 0 5 false 0
    (wRdPkt.bytes hedomLink)))).1, (((wUpPort hedomLink).roomFor hedomLink 0).getD 0), by decide +kernel⟩,
   ⟨(wHed (wUpPort hedomLink)), .hedom, (wFlit4 0 4 false), (wUpPort hedomLink), by decide +kernel⟩,
   ⟨(wHed (wUpPort hedomLink)), .hedom, (wFlit 0 5 false 10 []), (wUpPort hedomLink), by decide +kernel⟩,
   ⟨(wPort 3 { st := .attesting }), 3, by decide +kernel⟩,
   ⟨(wPort 3 { st := .attesting, step := 3 }), 3, by decide +kernel⟩,
   ⟨(wPort 3 (wUpPort fabricLink)), 3, by decide +kernel⟩⟩

theorem test_met_FabricPackets :
  (∃ (s : State) (p : Packet) (q : Nat) (c : Instr),
      (((c = .rd ∧ p.opc = 1 ∨ c = .wr ∧ p.opc = 2 ∨ c = .fabricAtom ∧ p.opc = 3)) ∧ nextRequest s.fab.inbox p.opc = some p ∧
      p.group = 0 ∧ s.openCheck p ≠ 0) ∧ (s.dropInbox p).way q (s.answerTo p 0x13 (s.openCheck p) []))
  ∧ (∃ (s : State) (p : Packet) (q : Nat) (c : Instr) (a : Packet) (r : Bytes) (w : Bytes),
      (nextRequest s.fab.inbox p.opc = some p ∧ p.group = 0 ∧ s.openCheck p = 0 ∧ s.quietAt p.addr p.span ∧ 0 < p.span ∧
      s.canonical ∧ homeCharge p.addr p.span ≤ s.gov.shared ∧ ((c = .rd ∧ p.opc = 1 ∧ r = memRead s.mem.bytes p.addr p.len ∧ w
      = [] ∧ a = s.answerTo p 0x10 0 r ∨ c = .wr ∧ p.opc = 2 ∧ p.data.length = p.len ∧ r = [] ∧ w = p.data ∧ a = s.answerTo p
      0x11 0 r ∨ c = .fabricAtom ∧ p.opc = 3 ∧ (∃ x ∈ (atomRead p.data).toList, p.addr % x.2.1 = 0 ∧ r = memRead s.mem.bytes
      p.addr x.2.1 ∧ w = natLe x.2.1 (atomNew x.1 x.2.1 (leNat r) x.2.2.1 x.2.2.2)) ∧ a = s.answerTo p 0x12 0 r))) ∧
      (s.dropInbox p).way q a)
  ∧ (∃ (s : State) (p : Packet) (c : Instr),
      ((c = .rd ∧ p.opc = 1 ∨ c = .wr ∧ p.opc = 2 ∨ c = .fabricAtom ∧ p.opc = 3)) ∧ nextRequest s.fab.inbox p.opc = some p ∧
      p.group = 0 ∧ s.openCheck p = 0 ∧ ((p.opc = 3 → (atomRead p.data).isSome = true)) ∧ ((s.gov.shared < homeCharge p.addr
      p.span ∨ p.opc ≠ 3 ∧ s.anyBusy p.addr p.span = true)))
  ∧ (∃ (s : State) (opc : Nat) (c : Instr),
      ((c = .rd ∧ opc = 1 ∨ c = .wr ∧ opc = 2 ∨ c = .fabricAtom ∧ opc = 3)) ∧ nextRequest s.fab.inbox opc = none)
  ∧ (∃ (s : State) (p : Packet) (x : RTxn) (c : Instr) (t : Nat) (d : Dest) (st : PendStore),
      ((c = .rdrsp ∧ p.opc = 0x10 ∨ c = .wrack ∧ p.opc = 0x11 ∨ c = .fabricAtomrsp ∧ p.opc = 0x12 ∨ c = .fabricErr ∧ p.opc =
      0x13)) ∧ s.fab.inbox.find? (fun q => decide (q.opc = p.opc)) = some p ∧ p.sealed = false ∧ s.fab.txns.filter (fun y =>
      y.takes p) = [x] ∧ x.user = .core t d ∧ t < 192 ∧ ((d = .store → (s.tile t).core.storeQ = [st] ∧ st.addr = x.pkg * 2 ^
      44 + x.addr)) ∧ (∀ r fp n sg off, d ≠ .half r fp n sg off))
  ∧ (∃ (s : State) (p : Packet) (c : Instr),
      ((c = .rdrsp ∧ p.opc = 0x10 ∨ c = .wrack ∧ p.opc = 0x11 ∨ c = .fabricAtomrsp ∧ p.opc = 0x12 ∨ c = .fabricErr ∧ p.opc =
      0x13)) ∧ s.fab.inbox.find? (fun q => decide (q.opc = p.opc)) = some p ∧ p.sealed = false ∧ s.fab.txns.filter (fun y =>
      y.takes p) = [])
  ∧ (∃ (s : State) (tag : BitVec 16) (x : RTxn) (t : Nat) (r : Fin 32) (n : Nat) (sg : Bool),
      s.fab.txns.filter (fun y => decide (y.tag = tag)) = [x] ∧ x.user = .core t (.xreg r n sg) ∧ t < 192 ∧ s.tag t = 0)
  ∧ (∃ (s : State) (s1 : State) (p : Principal) (i : Fin 64) (v : BitVec 128) (new : Nat),
      s.dictFree = true ∧ s.writeCheck p 0x1C30 (i.val + 1) = 0 ∧ s.fab.writes = [] ∧ (new = (let e := v.toNat / 2 ^ 37 * 2 ^
      37; let old := s.redEntry i.val; let used := sumNat ((List.range 64).map (fun j => if j ≠ i.val ∧ redState (s.redEntry
      j) = 1 then redStore (s.redEntry j) else 0)); if !v.getLsbD 36 then (if s.redBad p e then e + 4 * 2 ^ 33 else e) else if
      redState old = 1 ∨ redState old = 3 then old else if s.redBad p e then e + 4 * 2 ^ 33 else if 32 < used + (if redFmt e =
      3 ∨ redFmt e = 4 then 2 else 1) then e + 2 * 2 ^ 33 else e + 2 ^ 36 + 2 ^ 33)) ∧ s1 = s.countedWrite p 0x1C30 (i.val +
      1) (decide (new ≠ v.toNat)))
  ∧ (∃ (s : State) (i : Fin 64),
      redState (s.redEntry i.val) = 1 ∧ (s.fab.chunks.any (fun x => decide (x.entry = i.val)) || s.fab.writes.any (fun w =>
      decide (w.entry = i.val))) = true)
  ∧ (∃ (s : State) (p : Packet) (i : Nat),
      s.fab.inbox.find? (fun q => decide (q.opc = 4)) = some p ∧ p.sealed = false ∧ s.redOf p true = some i ∧ p.data.length =
      256 ∧ s.fab.chunks = [] ∧ s.fab.writes = [] ∧ 1 ≤ (treeChildren (s.tree (redTree (s.redEntry i)))).length)
  ∧ (∃ (s : State) (p : Packet) (i : Nat),
      s.fab.inbox.find? (fun q => decide (q.opc = 4)) = some p ∧ p.sealed = false ∧ s.redOf p true = some i ∧ p.data.length =
      256 ∧ s.fab.chunks.any (fun x => decide (x.entry = i) && decide (x.chunk = (p.addr - redBase (s.redEntry i)) / 256) &&
      x.from_.contains p.spid) = true)
  ∧ (∃ (s : State) (p : Packet) (i : Nat) (q : Nat) (x : RedChunk) (a : Packet),
      (s.fab.inbox.find? (fun q => decide (q.opc = 4)) = some p ∧ p.sealed = false ∧ s.redOf p true = some i ∧ redGroup
      (s.redEntry i) = 0 ∧ redRoot (s.redEntry i) ≠ s.pkg ∧ p.data.length = 256 ∧ s.fab.writes = [] ∧ s.fab.chunks = [x] ∧
      x.entry = i ∧ x.chunk = (p.addr - redBase (s.redEntry i)) / 256 ∧ p.spid ∉ x.from_ ∧ x.forwarded = false ∧ (treeChildren
      (s.tree (redTree (s.redEntry i)))).length = x.from_.length ∧ a =
      { dpid := field (s.tree (redTree (s.redEntry i))) 115 104, opc := 4, len := 256, addr := redBase (s.redEntry i) + 256 * x.chunk, spid := s.pkg, hops := s.obj 0x1C00 6, data := (redBytes (s.redEntry i) ((x.acc.zip (redElems (s.redEntry i) p.data)).map (fun y => (redAdd (s.redEntry i) y.1 y.2).1))).1 })
      ∧ (s.dropInbox p).way q a)
  ∧ (∃ (s : State) (p : Packet) (i : Nat) (w : RedWrite),
      s.fab.inbox.find? (fun q => decide (q.opc = 5)) = some p ∧ p.sealed = false ∧ s.redOf p false = some i ∧ s.fab.chunks =
      [] ∧ s.fab.writes = [w] ∧ w.entry = i ∧ w.chunk = (p.addr - redBase (s.redEntry i)) / 256 ∧ w.taken = true ∧
      p.data.length = 256 ∧ p.addr = redBase (s.redEntry i) + 256 * w.chunk ∧ tabGet 0 s.fab.low i = w.chunk ∧ w.chunk + 1 <
      redSize (s.redEntry i) / 256 ∧ s.fab.done = [] ∧ treeChildren (s.tree (redTree (s.redEntry i))) = [] ∧ s.quietAt p.addr
      256 ∧ s.canonical)
  ∧ (∃ (s : State) (p : Packet) (c : Instr),
      ((c = .red ∧ p.opc = 4 ∨ c = .redres ∧ p.opc = 5)) ∧ s.fab.inbox.find? (fun q => decide (q.opc = p.opc)) = some p ∧
      p.sealed = false ∧ s.redOf p (decide (p.opc = 4)) = none) :=
  ⟨⟨(wFabric { inbox := [{ wReq 1 with addr := 0x40000000000 }] }), { wReq 1 with addr := 0x40000000000 }, 2, .rd, by
    and_intros <;> first | decide +kernel | rfl | nofun, ⟨egress_of_one _ _ _ (by decide +kernel) (by decide +kernel),
    by decide +kernel⟩⟩,
   ⟨(wFabric { inbox := [wReq 1] }), (wReq 1), 2, .rd, ((wFabric {}).answerTo (wReq 1) 0x10 0 (natLe 8 0x1122334455667788)),
    (natLe 8 0x1122334455667788), [], by and_intros <;> first | decide +kernel | rfl | nofun, ⟨egress_of_one _ _ _
    (by decide +kernel) (by decide +kernel), by decide +kernel⟩⟩,
   ⟨{ wFabric { inbox := [wReq 2] } with gov := { shared := 1 } }, (wReq 2), .wr, by decide +kernel⟩,
   ⟨(wFabric { inbox := [wReq 2, wReq 1] }), 1, .rd, by decide +kernel⟩,
   ⟨(wFabric { inbox := [wRsp 0x10], txns := [wTx (.xreg 3 4 true)] }), (wRsp 0x10), (wTx (.xreg 3 4 true)), .rdrsp, 4,
    (.xreg 3 4 true), ⟨0, [], false⟩, by and_intros <;> first | decide +kernel | rfl | nofun⟩,
   ⟨(wFabric { inbox := [wRsp 0x13] }), (wRsp 0x13), .fabricErr, by decide +kernel⟩,
   ⟨(wFabric { txns := [wTx (.xreg 3 4 true)] }), 77, (wTx (.xreg 3 4 true)), 4, 3, 4, true, by decide +kernel⟩,
   ⟨((wRed 1 false {}).setObj 0x1C30 1 0), (wRedS ((wRed 1 false {}).setObj 0x1C30 1 0) 0 (BitVec.ofNat 128 (wEntryRed false
    0))), .h, 0, (BitVec.ofNat 128 (wEntryRed false 0)), (wNew ((wRed 1 false {}).setObj 0x1C30 1 0) 0 (BitVec.ofNat 128
    (wEntryRed false 0))), by decide +kernel⟩,
   ⟨(wRed 1 false { chunks := [wChunk], writes := [⟨0, 9, 0, [], false, 5⟩] }), 0, by decide +kernel⟩,
   ⟨(wRed 1 false { inbox := [wRedPkt 4 11] }), (wRedPkt 4 11), 0, by and_intros <;> first | decide +kernel | rfl | nofun⟩,
   ⟨(wRed 1 false { inbox := [wRedPkt 4 11], chunks := [{ wChunk with from_ := [11] }] }), (wRedPkt 4 11), 0,
    by decide +kernel⟩,
   ⟨(wRed 1 false { inbox := [wRedPkt 4 11], chunks := [wChunk] }), (wRedPkt 4 11), 0, 2, wChunk,
    { dpid := 9, opc := 4, len := 256, addr := 0x01000600100, spid := 5, hops := 16, data := (List.replicate 64 [0x0C, 3, 3, 3]).flatten },
    by decide +kernel, ⟨egress_of_one _ _ _ (by decide +kernel) (by decide +kernel), by decide +kernel⟩⟩,
   ⟨(wRed 0 false { inbox := [wRedPkt 5 9], writes := [⟨0, 1, 0, [], true, 5⟩], low := [1] }), (wRedPkt 5 9), 0, ⟨0, 1, 0,
    [], true, 5⟩, by decide +kernel⟩,
   ⟨(wRed 1 false { inbox := [wRedPkt 4 12] }), (wRedPkt 4 12), .red, by decide +kernel⟩⟩

theorem test_met_HostPacketsAndRings :
  (∃ (s : State) (p : Packet) (c : Instr) (v : Vec),
      hostOpcode c = some p.opc ∧ s.hostAsks p.opc p ∧ s.boot.st = .ready ∧ place (hostAddr p) ≠ .window ∧ ((place (hostAddr
      p) = .host ∨ place (hostAddr p) = .reserved ∨ s.reachesAll 0 (hostAddr p) (hostSpan p) = false)) ∧ v = tabGet ({} : Vec)
      s.hedom.vectors (s.obj 0x1E03 5) ∧ ((2048 ≤ s.obj 0x1E03 5 ∨ v.mask = true)))
  ∧ (∃ (s : State) (p : Packet) (c : Instr),
      hostOpcode c = some p.opc ∧ s.hostAsks p.opc p ∧ s.boot.st = .snowplough ∧ toMailbox (hostAddr p) = false)
  ∧ (∃ (s : State) (opc : Nat) (c : Instr),
      hostOpcode c = some opc ∧ ((s.nextHost opc = none ∨ (∃ p ∈ s.hedom.inbox, s.nextHost opc = some p ∧ (s.hostOrdered p =
      false ∨ s.boot.st ≠ .ready ∧ s.boot.st ≠ .snowplough)))))
  ∧ (∃ (s : State) (p : Packet) (a : Packet) (c : Instr) (r : Bytes) (w : Bytes),
      hostOpcode c = some p.opc ∧ s.hostAsks p.opc p ∧ s.boot.st = .ready ∧ ((place (hostAddr p) = .lining ∨ place (hostAddr
      p) = .hbm)) ∧ s.reachesAll 0 (hostAddr p) (hostSpan p) = true ∧ s.canonical ∧ (s.meet (lineOf (hostAddr p))
      (requestFound c) (decide (p.opc = 5))).quietAt (hostAddr p) (hostSpan p) ∧ 0 < hostSpan p ∧ hostCharge p ≤ s.gov.shared
      ∧ s.capped (64 * lineOf (hostAddr p)) = false ∧ ((p.opc = 4 ∧ r = memRead s.mem.bytes (hostAddr p) p.len ∧ w = [] ∧ a =
      hostAnswerTo p 0x10 0 r ∨ p.opc = 5 ∧ w = p.data ∧ a = hostAnswerTo p 0x12 0 [] ∨ p.opc = 6 ∧ (∃ x ∈ (atomRead
      p.data).toList, hostAddr p % x.2.1 = 0 ∧ r = memRead s.mem.bytes (hostAddr p) x.2.1 ∧ w = natLe x.2.1 (atomNew x.1 x.2.1
      (leNat r) x.2.2.1 x.2.2.2)) ∧ a = hostAnswerTo p 0x17 0 r)))
  ∧ (∃ (s : State) (p : Packet) (c : Instr),
      hostOpcode c = some p.opc ∧ s.hostAsks p.opc p ∧ s.boot.st = .ready ∧ ((place (hostAddr p) = .lining ∨ place (hostAddr
      p) = .hbm)) ∧ s.reachesAll 0 (hostAddr p) (hostSpan p) = true ∧ ((s.capped (64 * lineOf (hostAddr p)) = true ∨
      s.gov.shared < hostCharge p)))
  ∧ (∃ (s : State) (p : Packet) (l : BitVec 38) (c : Instr) (x : RTxn) (t : Nat) (r : Fin 32) (n : Nat) (sg : Bool),
      ((c = .data 192 l ∧ p.opc = 0x10 ∨ c = .datax 192 l ∧ p.opc = 0x11 ∨ c = .cmp 192 l ∧ p.opc = 0x12 ∨ c = .atomrsp 192 l
      ∧ p.opc = 0x17)) ∧ s.nextHost p.opc = some p ∧ s.handOf (lineOf (hostAddr p)) = none ∧ s.hostTxnOf p.tag = some x ∧ t <
      192 ∧ s.hedom.waiting = [] ∧ x.user = .core t (if p.opc = 0x17 then .atom r n else .xreg r n sg) ∧ r ≠ 0 ∧ n ≤ 8)
  ∧ (∃ (s : State) (p : Packet) (l : BitVec 38) (tag : BitVec 16) (c : Instr) (x : RTxn) (t : Nat) (r : Fin 32) (n : Nat) (sg : Bool),
      ((c = .err 192 l ∧ s.nextHost 0x18 = some p ∧ tag = p.tag ∨ c = .hostTimeout tag)) ∧ s.hostTxnOf tag = some x ∧ x.user =
      .core t (.xreg r n sg) ∧ t < 192 ∧ s.hedom.waiting = [] ∧ s.tag t = 0)
  ∧ (∃ (s : State) (p : Packet) (l : BitVec 38) (c : Instr),
      ((c = .data 192 l ∧ p.opc = 0x10 ∨ c = .datax 192 l ∧ p.opc = 0x11 ∨ c = .cmp 192 l ∧ p.opc = 0x12 ∨ c = .atomrsp 192 l
      ∧ p.opc = 0x17 ∨ c = .err 192 l ∧ p.opc = 0x18)) ∧ s.nextHost p.opc = some p ∧ s.handOf (lineOf (hostAddr p)) = none ∧
      s.hostTxnOf p.tag = none)
  ∧ (∃ (s : State) (p : Packet) (l : BitVec 38) (c : Instr) (t : Nat) (x : L2Line),
      ((c = .snps 192 l ∧ p.opc = 8 ∨ c = .snpx 192 l ∧ p.opc = 9 ∨ c = .snpcur 192 l ∧ p.opc = 0x0A ∨ c = .snpinv 192 l ∧
      p.opc = 0x0B ∨ c = .inv 192 l ∧ p.opc = 0x0C)) ∧ s.nextHost p.opc = some p ∧ t < 192 ∧ s.l2 t (lineOf (hostAddr p)) = x
      ∧ x.st ≠ .i ∧ ((∀ y, y < 192 → y ≠ t → (s.l2 y (lineOf (hostAddr p))).st = .i)) ∧ ((∀ y, y < 192 → (s.tile y).l2.out =
      [] ∧ s.wbOf y (lineOf (hostAddr p)) = none)))
  ∧ (∃ (s : State) (p : Principal) (r : Fin 256),
      s.linkCode p (.rcfg r.val) = 3)
  ∧ (∃ (s : State) (p : Principal) (r : Fin 256),
      s.linkCode p (.hidx r.val) = 3)
  ∧ (∃ (s : State) (p : Principal) (r : Fin 256),
      s.linkCode p (.didx r.val) = 3)
  ∧ (∃ (s : State) (p : Principal) (t : TileNo) (w : Fin 4),
      s.linkCode p (.dbpend (4 * t.val + w.val)) = 3)
  ∧ (∃ (s : State) (p : Principal) (n : Fin 2048),
      s.linkCode p (.vctl n.val) = 3)
  ∧ (∃ (s : State) (p : Principal) (r : Fin 256) (n : Fin 2048) (t : TileNo) (w : Fin 4) (v : BitVec 64) (z : BitVec 32) (c : Instr),
      ((c = .rcfgWrite p r v ∧ s.linkCode p (.rcfg r.val) ≠ 3 ∨ c = .hidxWrite p r z ∧ s.linkCode p (.hidx r.val) ≠ 3 ∨ c =
      .didxWrite p r z ∧ s.linkCode p (.didx r.val) ≠ 3 ∨ c = .dbpendClear p t w v ∧ s.linkCode p (.dbpend (4 * t.val +
      w.val)) ≠ 3 ∨ c = .vctlWrite p n v ∧ s.linkCode p (.vctl n.val) ≠ 3)))
  ∧ (∃ (s : State) (p : Packet) (l : BitVec 38) (c : Instr) (t : Nat),
      ((c = .snps 192 l ∧ p.opc = 8 ∨ c = .snpx 192 l ∧ p.opc = 9 ∨ c = .snpcur 192 l ∧ p.opc = 0x0A ∨ c = .snpinv 192 l ∧
      p.opc = 0x0B ∨ c = .inv 192 l ∧ p.opc = 0x0C)) ∧ s.nextHost p.opc = some p ∧ t < 192 ∧ ((s.tile t).l2.out.any (fun o =>
      decide (o.line = lineOf (hostAddr p)) && !isAtomDest o.dest && (o.granted || (List.range 192).all (fun y => decide
      ((s.l2 y (lineOf (hostAddr p))).st = .i))))) = true) :=
  ⟨⟨(wHostIn [wHp 4 0x40000000000]), (wHp 4 0x40000000000), (.rdnc 192 ⟨9, none⟩), {}, by decide +kernel⟩,
   ⟨{ wHostIn [wHp 4 0x400000] with boot := { st := .snowplough } }, (wHp 4 0x400000), (.rdnc 192 ⟨9, none⟩),
    by decide +kernel⟩,
   ⟨(wHostIn [wHp 5 0x400000, wHp 4 0x400000]), 4, (.rdnc 192 ⟨9, none⟩), by decide +kernel⟩,
   ⟨(wHostIn [wHp 4 0x01000600000]), (wHp 4 0x01000600000), (hostAnswerTo (wHp 4 0x01000600000) 0x10 0 (natLe 8
    0x1122334455667788)), (.rdnc 192 ⟨9, none⟩), (natLe 8 0x1122334455667788), [], by decide +kernel⟩,
   ⟨{ wHostIn [wHp 4 0x01000600000] with mem := { hbm := List.replicate 40 { cap := 4 }, started := List.replicate 240 255999 } },
    (wHp 4 0x01000600000), (.rdnc 192 ⟨9, none⟩), by decide +kernel⟩,
   ⟨{ wHostIn [wHp 0x10 0] with hedom := { (wHostIn [wHp 0x10 0]).hedom with txns := [wHtx (.xreg 3 4 true)] } }, (wHp 0x10
    0), 9, (.data 192 9), (wHtx (.xreg 3 4 true)), 4, 3, 4, true, by decide +kernel⟩,
   ⟨{ wHostIn [wHp 0x18 0] with hedom := { (wHostIn [wHp 0x18 0]).hedom with txns := [wHtx (.xreg 3 4 true)] } }, (wHp 0x18
    0), 9, 5, (.err 192 9), (wHtx (.xreg 3 4 true)), 4, 3, 4, true, by decide +kernel⟩,
   ⟨(wHostIn [wHp 0x12 0]), (wHp 0x12 0), 9, (.cmp 192 9), by decide +kernel⟩,
   ⟨(wHsnp 8 .m), (wHp 8 0x40000000040), 9, (.snps 192 9), 4, { st := .m, data := [7] }, by decide +kernel⟩,
   ⟨(wRing 0), .h, 0, by decide +kernel⟩,
   ⟨(wRing (2^63 + 4 * 2^48 + 16)), .h, 0, by decide +kernel⟩,
   ⟨(wRing (2^63 + 4 * 2^48 + 2^36 + 16)), .h, 0, by decide +kernel⟩,
   ⟨{ wRing 0 with hedom := { dbpend := List.replicate 40 0xFF } }, .h, 4, 1, by decide +kernel⟩,
   ⟨(wRing 0), .h, 1, by decide +kernel⟩,
   ⟨(wRing 0), (.c 4), 9, 9, 9, 3, 4, 5, (.vctlWrite (.c 4) 9 4), by decide +kernel⟩,
   ⟨((wHsnp 8 .i).onTile 4 (fun x => { x with l2 := { out := [{ wOut true with line := lineOf 0x40000000040 }] } })), (wHp 8
    0x40000000040), 9, (.snps 192 9), 4, by decide +kernel⟩⟩

theorem test_met_UpdateCommitUnlock :
  (∃ (s : State) (p : Principal),
      ((p = .h ∨ p = .m)) ∧ s.dictFree = true ∧ s.writeCheck p 0x1F02 1 = 0)
  ∧ (∃ (s : State) (p : Principal),
      s.dictFree = true ∧ s.writeCheck p 0x1F02 3 = 0 ∧ s.fw.holder = some p ∧ s.fw.checking = false ∧ Memory.wf s.fw.flash =
      true)
  ∧ (∃ (s : State) (p : Principal) (data : Bytes) (ok : Bool),
      s.dictFree = true ∧ s.writeCheck p 0x1F02 3 = 0 ∧ ((s.fw.holder ≠ some p ∨ s.fw.checking = true ∨ ok = false ∧ data ≠
      [])))
  ∧ (∃ (s : State) (p : Principal),
      s.dictFree = true ∧ s.writeCheck p 0x1F02 1 = 0)
  ∧ (∃ (s : State) (p : Principal),
      s.dictFree = true ∧ s.writeCheck p 0x1F02 1 = 0 ∧ Memory.wf s.fw.flash = true)
  ∧ (∃ (s : State),
      s.fw.checking = true ∧ Memory.wf s.fw.flash = true)
  ∧ (∃ (s : State) (p : Principal),
      s.dictFree = true ∧ s.writeCheck p 0x1F01 6 = 0)
  ∧ (∃ (s : State),
      s.fw.commit = true)
  ∧ (∃ (s : State),
      s.dictFree = true)
  ∧ (∃ (s : State) (p : Principal),
      s.dictFree = true ∧ s.writeCheck p 0x1F03 2 = 0)
  ∧ (∃ (s : State),
      s.unlock.busy = true ∧ s.liveCloaks = [] ∧ ((∀ n, n < 32 → (s.port n).light = true)))
  ∧ (∃ (s : State),
      s.fw.reportDue = true ∧ s.ready = true)
  ∧ (∃ (s : State) (p : Principal) (data : Bytes) (ok : Bool) (c : Instr) (idx : Nat) (sub : Nat),
      (((c = .updateOpen p ∨ c = .finish p ∨ c = .updateAbort p) ∧ idx = 0x1F02 ∧ sub = 1 ∨ c = .updateDataWrite p data ok ∧
      idx = 0x1F02 ∧ sub = 3 ∨ c = .commit p ∧ idx = 0x1F01 ∧ sub = 6 ∨ c = .unlockTokenWrite p data ∧ idx = 0x1F03 ∧ sub =
      2)) ∧ ((s.dictFree = false ∨ s.writeCheck p idx sub ≠ 0)))
  ∧ (∃ (s : State) (a : Nat),
      ((s.pins.debugOpen = false ∨ ∀ g, granuleOf a = some g → entState (s.granule g) ≠ 0))) :=
  ⟨⟨(wFw { slot := 1 }), .h, by decide +kernel⟩,
   ⟨(wFw { holder := some .m, offset := 16777214, target := 1 }), .m, by decide +kernel⟩,
   ⟨(wFw { holder := some .m, offset := 16777214, target := 1 }), .h, [1, 2, 3], true, by decide +kernel⟩,
   ⟨(wFw { holder := some .m }), .m, by decide +kernel⟩,
   ⟨(wFw { holder := some .m, checking := true, status := 2 }), .m, by decide +kernel⟩,
   ⟨(wFw { holder := some .m, checking := true, status := 2 }), by decide +kernel⟩,
   ⟨(wFw { slot := 1 }), .m, by decide +kernel⟩,
   ⟨(wFw { commit := true, cfwSvn := 9, dfwSvn := 4, cfwRevoke := 0xF, cfwKeyIdx := 2 }), by decide +kernel⟩,
   ⟨wUp, by decide +kernel⟩,
   ⟨{ wUp with unlock := { nonce := some 4 } }, .m, by decide +kernel⟩,
   ⟨(({ wUp with unlock := { busy := true, pending := 3 } }.setPort 2 { st := .up }).setPort 3 { st := .failed }),
    by decide +kernel⟩,
   ⟨(wFw { reportDue := true }), by decide +kernel⟩,
   ⟨wUp, (.c 4), [1], true, (.updateDataWrite (.c 4) [1] true), 0x1F02, 3, by decide +kernel⟩,
   ⟨(wMem wUp), 0x01000600000, by decide +kernel⟩⟩

theorem test_met_DictionaryOperations :
  (∃ (s : State) (n : Nat) (c : U64) (p : Principal) (r : ObjRow) (idx : Nat) (sub : Nat),
      s.mailNext n c p ∧ field c.toNat 63 60 = 1 ∧ c.getLsbD 31 = false ∧ idx = field c.toNat 23 8 ∧ sub = field c.toNat 7 0 ∧
      catRow idx sub = some r ∧ mayRead (s.code p r sub) = true ∧ s.ownEntry p idx sub = true ∧ r.dk ≠ .none)
  ∧ (∃ (s : State) (n : Nat) (c : U64) (p : Principal) (idx : Nat) (sub : Nat) (st : Nat),
      s.mailNext n c p ∧ field c.toNat 63 60 = 1 ∧ c.getLsbD 31 = false ∧ idx = field c.toNat 23 8 ∧ sub = field c.toNat 7 0 ∧
      (((catRow idx sub = none ∧ (sub ≠ 0 ∨ catHighest idx = none) ∧ st = 5) ∨ (∃ r ∈ (catRow idx sub).toList, (mayRead
      (s.code p r sub) && s.ownEntry p idx sub && decide (r.dk ≠ .none)) = false ∧ st = 4))))
  ∧ (∃ (s : State) (n : Nat) (c : U64) (p : Principal) (r : ObjRow) (idx : Nat) (sub : Nat) (len : Nat) (a : Nat) (v : Bytes) (b : Bytes),
      s.mailNext n c p ∧ field c.toNat 63 60 = 1 ∧ c.getLsbD 31 = true ∧ idx = field c.toNat 23 8 ∧ sub = field c.toNat 7 0 ∧
      catRow idx sub = some r ∧ mayRead (s.code p r sub) = true ∧ s.ownEntry p idx sub = true ∧ r.dk ≠ .none ∧ len = Nat.min
      (Nat.min (field c.toNat 47 32) 4096) r.ty.size ∧ v = s.objValue p (8 + n) r idx sub ∧ b = v.take len ∧ b ≠ [] ∧ a =
      (s.mslot n).dbuf.toNat ∧ s.reachesAll (if n ≤ 1 then 0 else n - 1) a b.length = true ∧ s.quietAt a b.length ∧
      s.canonical)
  ∧ (∃ (s : State) (n : Nat) (c : U64) (p : Principal) (i : Instr) (op : Nat) (len : Nat),
      s.mailNext n c p ∧ op = field c.toNat 63 60 ∧ ((i = .mailboxRead false ∧ op ≠ 2 ∨ i = .mailboxWrite ∧ op ≠ 1)) ∧ ((op ≠
      1 ∧ op ≠ 2 ∨ c.getLsbD 31 = true ∧ 0 < len ∧ s.reachesAll (if n ≤ 1 then 0 else n - 1) (s.mslot n).dbuf.toNat len =
      false ∧ s.bufHost n len = false ∧ len = (if op = 2 then dcmdLen c.toNat else ((s.dictRead p (8 + n) (dcmdIdx c.toNat)
      (dcmdSub c.toNat) false).2.1.take (dcmdLen c.toNat)).length))))
  ∧ (∃ (s : State) (n : Nat) (c : U64) (p : Principal) (r : ObjRow) (idx : Nat) (sub : Nat) (len : Nat) (v : Bytes) (b : Bytes),
      s.mailNext n c p ∧ field c.toNat 63 60 = 1 ∧ c.getLsbD 31 = true ∧ idx = field c.toNat 23 8 ∧ sub = field c.toNat 7 0 ∧
      catRow idx sub = some r ∧ mayRead (s.code p r sub) = true ∧ s.ownEntry p idx sub = true ∧ r.dk ≠ .none ∧ len = Nat.min
      (Nat.min (field c.toNat 47 32) 4096) r.ty.size ∧ v = s.objValue p (8 + n) r idx sub ∧ b = v.take len ∧ s.bufHost n
      b.length = true)
  ∧ (∃ (s : State) (n : Nat) (c : U64) (p : Principal) (len : Nat),
      s.mailNext n c p ∧ field c.toNat 63 60 = 2 ∧ c.getLsbD 31 = true ∧ len = dcmdLen c.toNat ∧ s.bufHost n len = true)
  ∧ (∃ (s : State) (n : Nat) (c : U64) (p : Principal) (i : Instr) (e : XStage) (st : Nat) (len : Nat),
      (s.setXfer none).mailRuns n c p ∧ s.dict.xfer = some ⟨n, e⟩ ∧ ((e = .done st len [] ∧ i = .mailboxRead false ∧ field
      c.toNat 63 60 = 1 ∨ e = .failed ∧ st = 7 ∧ len = 0 ∧ (i = .mailboxRead false ∧ field c.toNat 63 60 = 1 ∨ i =
      .mailboxWrite ∧ field c.toNat 63 60 = 2))))
  ∧ (∃ (s : State) (n : Nat) (c : U64) (p : Principal) (r : ObjRow) (idx : Nat) (sub : Nat) (b : Bytes) (st : Nat) (len : Nat) (last : Bool),
      (s.setXfer none).mailRuns n c p ∧ s.dict.xfer = some ⟨n, if last then .done st len b else .fetched b⟩ ∧ field c.toNat 63
      60 = 2 ∧ b ≠ [] ∧ idx = field c.toNat 23 8 ∧ sub = field c.toNat 7 0 ∧ catRow idx sub = some r ∧ plainObject idx sub =
      true ∧ s.writeCheck p idx sub = 0)
  ∧ (∃ (s : State) (n : Nat) (c : U64) (p : Principal) (r : ObjRow) (idx : Nat) (sub : Nat),
      s.mailNext n c p ∧ field c.toNat 63 60 = 2 ∧ c.getLsbD 31 = false ∧ idx = field c.toNat 23 8 ∧ sub = field c.toNat 7 0 ∧
      catRow idx sub = some r ∧ plainObject idx sub = true ∧ s.writeCheck p idx sub = 0)
  ∧ (∃ (s : State) (n : Nat) (c : U64) (p : Principal) (idx : Nat) (sub : Nat),
      s.mailNext n c p ∧ field c.toNat 63 60 = 2 ∧ c.getLsbD 31 = false ∧ idx = field c.toNat 23 8 ∧ sub = field c.toNat 7 0 ∧
      s.writeCheck p idx sub ≠ 0)
  ∧ (∃ (s : State) (i : Instr),
      ((i = .mailboxRead false ∨ i = .mailboxWrite)) ∧ ((s.dict.xfer = none ∧ s.nextSlot = none ∨ s.boot.aonOk = false ∨
      s.boot.dead = true)))
  ∧ (∃ (s : State) (s1 : State) (src : Source) (idx : BitVec 16) (sub : BitVec 8) (data : Bytes) (r : ObjRow) (p : Principal) (v : Nat),
      s.dictFree = true ∧ s.presents src = true ∧ p = s.srcPrincipal src ∧ catRow idx.toNat sub.toNat = some r ∧ plainObject
      idx.toNat sub.toNat = true ∧ s.writeCheck p idx.toNat sub.toNat = 0 ∧ v = leNat (data.take r.ty.size) ∧ s1 = s.servedFor
      src (if r.clamp v = v then 0 else 1))
  ∧ (∃ (s : State) (src : Source) (idx : BitVec 16) (sub : BitVec 8),
      s.dictFree = true ∧ s.presents src = true ∧ s.writeCheck (s.srcPrincipal src) idx.toNat sub.toNat ≠ 0)
  ∧ (∃ (s : State) (k : BitVec 8) (data : Bytes) (g : BitVec 16) (w : U32),
      s.dictFree = true ∧ 1 ≤ k.toNat ∧ k.toNat ≤ 64 ∧ s.writeCheck .s 0x1C40 k.toNat = 0 ∧ (s.cloak k.toNat).state = .running
      ∧ w = BitVec.ofNat 32 (leNat (data.take 4)) ∧ g = w.extractLsb' 16 16 ∧ ((g = 0 ∨ s.memberOf g = 0 ∨ s.memberOf g =
      k.toNat)))
  ∧ (∃ (s : State) (s1 : State) (p : Principal),
      s.dictFree = true ∧ s.writeCheck p 0x0003 1 = 0 ∧ s1 = s.countedWrite p 0x0003 1 false)
  ∧ (∃ (s : State) (s1 : State) (p : Principal),
      s.dictFree = true ∧ s.writeCheck p 0x0004 1 = 0 ∧ s1 = s.countedWrite p 0x0004 1 false)
  ∧ (∃ (s : State) (p : Principal) (c : Instr) (idx : Nat),
      ((c = .holdRelease p ∧ idx = 0x0003 ∨ c = .aonRestore p ∧ idx = 0x0004)) ∧ ((s.dictFree = false ∨ s.writeCheck p idx 1 ≠
      0)))
  ∧ (∃ (s : State) (s1 : State) (src : Source) (st : Nat),
      s.dictFree = true ∧ s.presents src = true ∧ st = s.writeCheck (s.srcPrincipal src) 0x0001 1 ∧ s1 = s.servedFor src st)
  ∧ (∃ (s : State) (h : SbHead),
      s.boot.aonOk = true ∧ s.boot.dead = false ∧ s.discovers h = true)
  ∧ (∃ (s : State) (src : Source) (idx : BitVec 16) (sub : BitVec 8) (data : Bytes) (pair : BitVec 24) (c : Instr),
      ((c = .objectWrite src idx sub data ∨ c = .descriptorQuery src pair)) ∧ ((s.dictFree = false ∨ s.presents src = false))) :=
  ⟨⟨(wMail 0 (wDcmd 1 8 0x1C00 6 false) [1, 2, 3]), 0, (wDcmd 1 8 0x1C00 6 false), .h, (wRow 0x1C00 6), 0x1C00, 6,
    by decide +kernel⟩,
   ⟨(wMail 1 (wDcmd 1 300 0x1234 1 false) [1, 2, 3]), 1, (wDcmd 1 300 0x1234 1 false), .h, 0x1234, 1, 5, by decide +kernel⟩,
   ⟨(wMail 1 (wDcmd 1 300 0x1000 1 true) [1, 2, 3]), 1, (wDcmd 1 300 0x1000 1 true), .h, (wRow 0x1000 1), 0x1000, 1, (wLen
    300 0x1000 1), 0x01000600000, (wVal (wMail 1 (wDcmd 1 300 0x1000 1 true) [1, 2, 3]) .h 9 0x1000 1), ((wVal (wMail 1 (wDcmd
    1 300 0x1000 1 true) [1, 2, 3]) .h 9 0x1000 1).take (wLen 300 0x1000 1)), by decide +kernel⟩,
   ⟨(wMail 1 (wDcmd 3 300 0x1000 1 true) [1, 2, 3]), 1, (wDcmd 3 300 0x1000 1 true), .h, .mailboxWrite, 3, 5,
    by decide +kernel⟩,
   ⟨(wMailH 1 (wDcmd 1 4 0x1000 1 true) [1, 2, 3] none), 1, (wDcmd 1 4 0x1000 1 true), .h, (wRow 0x1000 1), 0x1000, 1, (wLen
    4 0x1000 1), (wVal (wMailH 1 (wDcmd 1 4 0x1000 1 true) [1, 2, 3] none) .h 9 0x1000 1), ((wVal (wMailH 1 (wDcmd 1 4 0x1000
    1 true) [1, 2, 3] none) .h 9 0x1000 1).take (wLen 4 0x1000 1)), by decide +kernel⟩,
   ⟨(wMailH 1 (wDcmd 2 4 0x1C00 7 true) [1, 2, 3] none), 1, (wDcmd 2 4 0x1C00 7 true), .h, (dcmdLen (wDcmd 2 4 0x1C00 7
    true).toNat), by decide +kernel⟩,
   ⟨(wMailH 1 (wDcmd 1 4 0x1000 1 true) [1, 2, 3] (some ⟨1, .done 6 4 []⟩)), 1, (wDcmd 1 4 0x1000 1 true), .h, (.mailboxRead
    false), (.done 6 4 []), 6, 4, by decide +kernel⟩,
   ⟨(wMailH 1 (wDcmd 2 4 0x1C00 7 true) [1, 2, 3] (some ⟨1, .fetched [200, 0, 0, 1]⟩)), 1, (wDcmd 2 4 0x1C00 7 true), .h,
    (wRow 0x1C00 7), 0x1C00, 7, [200, 0, 0, 1], 0, 0, false, by decide +kernel⟩,
   ⟨(wMail 1 (wDcmd 2 1 0x1C00 6 false) [200, 2, 3]), 1, (wDcmd 2 1 0x1C00 6 false), .h, (wRow 0x1C00 6), 0x1C00, 6,
    by decide +kernel⟩,
   ⟨(wMail 0 (wDcmd 2 4 0x1C00 4 false) [200, 2, 0]), 0, (wDcmd 2 4 0x1C00 4 false), .h, 0x1C00, 4, by decide +kernel⟩,
   ⟨wUp, .mailboxWrite, by decide +kernel⟩,
   ⟨wDict, (wDict.servedFor (.session 2) 0), (.session 2), 0x1C00, 4, [5, 6, 7, 8, 9], (wRow 0x1C00 4), .m, 0x8070605,
    by decide +kernel⟩,
   ⟨wUp, (.slot 0), 0x1C00, 4, by decide +kernel⟩,
   ⟨{ wTiles { state := .running, group := some 4 } with boot := { st := .ready, rails := 8 } }, 3, [1, 3, 9, 0], 9, 0x90301,
    by decide +kernel⟩,
   ⟨{ wUp with dict := { hold := [(5, true)] } }, ({ wUp with dict := { hold := [(5, true)] } }.countedWrite .m 3 1 false),
    .m, by decide +kernel⟩,
   ⟨({ wUp with dict := { hold := [(5, true)] } }.setObj 0x2000 2 7), (({ wUp with dict := { hold := [(5, true)] } }.setObj
    0x2000 2 7).countedWrite .m 4 1 false), .m, by decide +kernel⟩,
   ⟨wUp, (.c 3), (.holdRelease (.c 3)), 3, by decide +kernel⟩,
   ⟨wDict, (wDict.servedFor (.session 2) 0), (.session 2), 0, by decide +kernel⟩,
   ⟨wUp, { mac := 0x112233445566, dst := wUp.fuses.mac, len := 0, room := 0 }, by decide +kernel⟩,
   ⟨wUp, (.session 2), 0x1C00, 4, [1], 0x1C0004, (.descriptorQuery (.session 2) 0x1C0004), by decide +kernel⟩⟩

theorem test_met_SidebandSessions :
  (∃ (s : State) (h : SbHead) (kindF : Bool) (i : Nat),
      s.portRuns ∧ s.forUs h.dst h.etype = true ∧ headGood h = true ∧ (s.freeSlots kindF).head? = some i ∧ ((kindF = true →
      s.unlock.scope.getLsbD 0 = true)))
  ∧ (∃ (s : State) (h : SbHead) (kindF : Bool),
      s.portRuns ∧ s.forUs h.dst h.etype = true ∧ headGood h = true ∧ ((s.freeSlots kindF = [] ∨ kindF = true ∧
      s.unlock.scope.getLsbD 0 = false)))
  ∧ (∃ (s : State) (h : SbHead) (sid : BitVec 16) (key : Bytes) (sig : Bytes) (i : Nat),
      s.portRuns ∧ s.forUs h.dst h.etype = true ∧ headGood h = true ∧ s.proofSlot h.mac sid key sig = some i ∧ (s.session
      i).challenged = true)
  ∧ (∃ (s : State) (h : SbHead) (sid : BitVec 16) (key : Bytes) (sig : Bytes),
      s.portRuns ∧ s.forUs h.dst h.etype = true ∧ headGood h = true ∧ (((∀ j, j < 5 → (s.session j).st = .setup → (s.session
      j).mac = h.mac → sid ≠ 0 ∧ (s.session j).sid ≠ sid) ∨ ∃ i < 5, s.proofSlot h.mac sid key sig = some i ∧ (s.session
      i).challenged = false)))
  ∧ (∃ (s : State) (i : Fin 5),
      (s.session i.val).st = .setup ∧ (s.session i.val).challenged = true ∧ s.obj 0x2003 2 * 100 ≤ s.gov.uptime - (s.session
      i.val).idle)
  ∧ (∃ (s : State) (f : SbIn),
      s.portRuns ∧ s.forUs f.dst f.etype = true)
  ∧ (∃ (s : State) (s1 : State) (p : Principal) (sid : BitVec 16),
      s.dictFree = true ∧ s.writeCheck p 0x2002 6 = 0 ∧ s1 = s.countedWrite p 0x2002 6 (decide (sid = 0)))
  ∧ (∃ (s : State) (p : Principal),
      ((s.dictFree = false ∨ s.writeCheck p 0x2002 6 ≠ 0)))
  ∧ (∃ (s : State) (i : Fin 5),
      (s.session i.val).st = .opened ∧ s.obj 0x2003 1 * 100 ≤ s.gov.uptime - (s.session i.val).idle)
  ∧ (∃ (s : State) (h : SbHead) (kindF : Bool) (cred : BitVec 8) (qm : Bytes) (key : Bytes) (sig : Bytes) (nm : BitVec 256) (sid : BitVec 16) (f : SbIn) (c : Instr),
      (((c = .hello h kindF cred qm nm ∨ c = .proof h sid key sig) ∧ s.forUs h.dst h.etype = false ∨ c = .discover h ∧
      s.discovers h = false ∨ (c = .close f ∨ c = .subscribe f ∨ c = .unsubscribe f ∨ c = .nop f) ∧ s.forUs f.dst f.etype =
      false ∨ (c = .hello h kindF cred qm nm ∨ c = .proof h sid key sig ∨ c = .close f ∨ c = .discover h ∨ c = .subscribe f ∨
      c = .unsubscribe f ∨ c = .nop f) ∧ (s.boot.aonOk = false ∨ s.boot.dead = true))))
  ∧ (∃ (s : State) (h : SbHead) (kindF : Bool) (cred : BitVec 8) (qm : Bytes) (key : Bytes) (sig : Bytes) (nm : BitVec 256) (sid : BitVec 16) (c : Instr),
      s.portRuns ∧ ((c = .hello h kindF cred qm nm ∨ c = .proof h sid key sig)) ∧ s.forUs h.dst h.etype = true ∧ headGood h =
      false) :=
  ⟨⟨{ wUp with fw := { attKey := some 5 } }, (wHdr { wUp with fw := { attKey := some 5 } } false), false, 0,
    by decide +kernel⟩,
   ⟨(wSb 4 wOpen), (wHdr (wSb 4 wOpen) false), true, by decide +kernel⟩,
   ⟨(wSb 1 { st := .setup, sid := 5, mac := 0x112233445566, challenged := true, cred := 2 }), (wHdr (wSb 1
    { st := .setup, sid := 5, mac := 0x112233445566, challenged := true, cred := 2 }) false), 5, [1], [2], 1,
    by decide +kernel⟩,
   ⟨wS, (wHdr wS false), 5, [1], [2], by decide +kernel⟩,
   ⟨{ wSb 3 { st := .setup, sid := 5, challenged := true, cred := 2, idle := 4 } with gov := { uptime := 10000000 } }, 3,
    by decide +kernel⟩,
   ⟨wS, (wFrame wS 0x23 9 [1]), by decide +kernel⟩,
   ⟨wS, (wS.countedWrite .m 0x2002 6 false), .m, 7, by decide +kernel⟩,
   ⟨wS, (.c 4), by decide +kernel⟩,
   ⟨{ wS with gov := { uptime := 1000000000 } }, 0, by decide +kernel⟩,
   ⟨{ wS with boot := { aonOk := false } }, (wHdr wS false), false, 4, [], [], [], 5, 6,
    { mac := 3, sid := 4, cnt := 5, body := [], tag := 6 }, (.nop { mac := 3, sid := 4, cnt := 5, body := [], tag := 6 }),
    by decide +kernel⟩,
   ⟨wS, { wHdr wS true with ver := 2 }, false, 4, [], [], [], 5, 6, (.hello { wHdr wS true with ver := 2 } false 4 [] 5),
    by decide +kernel⟩⟩

theorem test_met_SidebandRequests :
  (∃ (f : SbIn),
      ((f.ver ≠ 1 ∨ f.body.length < f.len.toNat)))
  ∧ (∃ (s : State) (f : SbIn) (c : Instr) (op : Nat),
      s.portRuns ∧ s.forUs f.dst f.etype = true ∧ requestOp c = some (f, op))
  ∧ (∃ (s : State) (f : SbIn),
      s.portRuns ∧ s.forUs f.dst f.etype = true ∧ s.dict.xfer = none)
  ∧ (∃ (s : State) (i : Nat) (x : Session) (q : Sub) (p : Principal),
      s.portRuns ∧ i < 5 ∧ x = s.session i ∧ x.st = .opened ∧ x.subs = [q] ∧ x.txCnt.toNat < 2 ^ 32 - 2 ∧ x.lastCnt ≠
      0xFFFFFFFF ∧ ((∀ j, j < 5 → j ≠ i → (s.session j).st ≠ .opened)) ∧ p = (if x.kindF then .f else .m) ∧ q.pair % 256 ≠ 0 ∧
      (q.pair ≠ pairOf 0x1F03 1))
  ∧ (∃ (s : State),
      s.portRuns ∧ ((∀ j, j < 5 → (s.session j).st ≠ .opened))) :=
  ⟨⟨{ wFrame wS 0x20 9 [7] with ver := 2 }, by decide +kernel⟩,
   ⟨wUp, (wFrame wS 0x20 9 [1]), (.bread (wFrame wS 0x20 9 [1]) true), 3, by and_intros <;> first | rfl | decide +kernel⟩,
   ⟨wS, (wFrame wS 0x20 9 (wBody 7 0 0 0 0 0 0 [])), by decide +kernel⟩,
   ⟨(wSb 0 { wOpen with subs := [{ pair := 0x1C0004, periodic := false, period := 10, last := none }] }), 0,
    { wOpen with subs := [{ pair := 0x1C0004, periodic := false, period := 10, last := none }] },
    { pair := 0x1C0004, periodic := false, period := 10, last := none }, .m, by decide +kernel⟩,
   ⟨wUp, by decide +kernel⟩⟩

theorem test_met_EnergyTicks :
  (∃ (s : State),
      s.boot.aonOk = true ∧ s.fab.transit = [] ∧ s.cloaks.queue = [])
  ∧ (∃ (s : State),
      s.boot.aonOk = true ∧ s.ready = true ∧ s.fab.transit = [] ∧ s.cloaks.queue = [] ∧ ((∀ n, n < 32 → (s.port n).st = .up →
      (s.port n).asked = true ∨ (s.port n).sinceKey < 2 ^ 40 ∧ s.gov.uptime + 1 - (s.port n).keyAt < 8640000000)))
  ∧ (∃ (s : State),
      s.boot.aonOk = false)
  ∧ (∃ (s : State) (t : TileNo) (n : Nat),
      s.runs t = true ∧ (s.tile t).core.changing = false ∧ (s.tile t).core.waiting = false ∧ n = (if s.gov.stepMHz = 2600 then
      6 else if s.gov.stepMHz = 2200 then 5 else if s.gov.stepMHz = 1800 then 4 else 3) ∧ ((n ≤ (s.tile t).acct.core + (s.tile
      t).acct.unreserved ∨ s.pool (s.tag t) < 8192)))
  ∧ (∃ (s : State) (t : TileNo),
      (s.tile t).core.waiting = true ∧ (s.tile t).eng.seq.run = none ∧ (s.tile t).eng.seq.queue = [] ∧ (s.tile t).lvu.power ≠
      .active)
  ∧ (∃ (s : State),
      s.boot.rails = 8)
  ∧ (∃ (s : State) (s1 : State) (p : Principal),
      s1 = (if s.dictFree then s.countedWrite p 0x2101 3 false else s))
  ∧ (∃ (s : State) (i : MarkIsland),
      s.gov.markBusy = true ∧ i ∉ s.gov.markSeen ∧ ((∀ t : TileNo, (i = .core t ∨ i = .vector t ∨ i = .array t) → s.fenced t =
      false))) :=
  ⟨⟨(wGov { budget := 6000, spent := 50, shared := 5000000 }), by decide +kernel⟩,
   ⟨((wGov { budget := 6000, spent := 50, trim := 3, level := [1, 2] }).setObj 0x1202 3 700), by decide +kernel⟩,
   ⟨{ wUp with boot := { aonOk := false } }, by decide +kernel⟩,
   ⟨(wGov { stepMHz := 2600, cloakPools := [0, 0, 0, 8191] }), 4, 6, by decide +kernel⟩,
   ⟨((wGov { cloakPools := [0, 0, 0, 8191] }).onTile 4 (fun x =>
    { x with core := { x.core with waiting := true }, lvu := { x.lvu with power := .retention } })), 4, by decide +kernel⟩,
   ⟨(wGov {}), by decide +kernel⟩,
   ⟨wUp, (wUp.countedWrite .h 0x2101 3 false), .h, by decide +kernel⟩,
   ⟨(wGov { markBusy := true }), (.array 4), by decide +kernel⟩⟩

theorem test_met_ReadingsAndIntervals :
  (∃ (s : State) (temps : List Int),
      s.boot.rails = 8 ∧ s.cloaks.coarse.active = false ∧ temps.length ≤ 8 ∧ (∀ x ∈ temps, -40 ≤ x ∧ x < 95) ∧ ((∀ k, k < 8 →
      (tabGet ({} : Stack) s.mem.hbm k).level ≤ 4)))
  ∧ (∃ (s : State) (x : Int),
      s.boot.rails = 8 ∧ s.boot.thermtrip = false ∧ 95 ≤ x)
  ∧ (∃ (s : State) (line : Nat) (n : Nat),
      s.boot.rails = 8 ∧ (granuleOf (64 * line)).isSome = true ∧ entState (s.granule ((granuleOf (64 * line)).getD 0)) = 0 ∧
      s.capped (64 * line) = false ∧ n = (if place (64 * line) = .lining then 1 else 2) ∧ n ≤ s.gov.shared ∧ lineErr s.mem
      line = none)
  ∧ (∃ (s : State) (line : Nat),
      ((granuleOf (64 * line) = none ∨ s.boot.rails ≠ 8 ∨ s.capped (64 * line) = true ∨ entState (s.granule ((granuleOf (64 *
      line)).getD 0)) = 2)))
  ∧ (∃ (s : State) (amps : List Nat) (watts : List Nat) (pkg : Nat) (d0 : Nat) (d1 : Nat),
      s.boot.rails = 8 ∧ amps.length = 8 ∧ watts.length = 8 ∧ (∀ w ∈ watts, w ≤ 4000) ∧ pkg ≤ 4000 ∧ d0 ≤ 4000 ∧ d1 ≤ 4000)
  ∧ (∃ (s : State) (mv : List Nat),
      s.boot.rails ≠ 0 ∧ s.boot.aonOk = true ∧ mv.length = 10 ∧ (∀ v ∈ mv, v ≤ 2500))
  ∧ (∃ (s : State) (mv : List Nat) (faults : BitVec 8) (r : Nat) (c : Instr),
      ((c = .pmbAlert faults ∨ c = .pmbusStatusPoll mv faults)) ∧ s.boot.rails ≠ 0 ∧ s.boot.aonOk = true ∧ r < 8 ∧
      faults.getLsbD r = true ∧ ((∀ q, q < r → faults.getLsbD q = false)) ∧ s.boot.railFailed = false)
  ∧ (∃ (s : State) (s1 : State) (p : Principal) (r : Fin 8) (mv : BitVec 16) (row : ObjRow) (v : Nat),
      s.dictFree = true ∧ s.writeCheck p 0x2301 (r.val + 1) = 0 ∧ catRow 0x2301 (r.val + 1) = some row ∧ v = row.clamp
      mv.toNat / 5 * 5 ∧ s1 = s.countedWrite p 0x2301 (r.val + 1) (decide (v ≠ mv.toNat)))
  ∧ (∃ (s : State) (s1 : State) (p : Principal) (b : Bool),
      s.dictFree = true ∧ s.writeCheck p 0x2304 2 = 0 ∧ s1 = s.countedWrite p 0x2304 2 (b && !s.pins.debugOpen))
  ∧ (∃ (s : State) (p : Principal) (r : Fin 8) (mv : BitVec 16) (b : Bool) (c : Instr) (idx : Nat) (sub : Nat),
      ((c = .setPointWrite p r mv ∧ idx = 0x2301 ∧ sub = r.val + 1 ∨ c = .traceEnableWrite p b ∧ idx = 0x2304 ∧ sub = 2)) ∧
      ((s.dictFree = false ∨ s.writeCheck p idx sub ≠ 0)))
  ∧ (∃ (s : State),
      s.cloaks.coarse.active = true ∧ s.cloaks.coarse.sec + 100000 ≤ s.gov.tick)
  ∧ (∃ (s : State),
      s.cloaks.coarse.active = true ∧ s.cloaks.coarse.tenth + 10000 ≤ s.gov.tick)
  ∧ (∃ (s : State) (line : Nat),
      s.lineKeys line = none)
  ∧ (∃ (s : State) (line : Nat) (x : Nat) (m : Nat),
      s.lineKeys line = some (x, m))
  ∧ (∃ (s : State) (line : Nat) (g : Nat),
      granuleOf (64 * line) = some g ∧ ((entState (s.granule g) = 0 ∨ entState (s.granule g) = 2)))
  ∧ (∃ (n : Nat) (m : Bytes) (i : Nat),
      i < m.length + n) :=
  ⟨⟨wUp, [94], by decide +kernel⟩,
   ⟨wUp, 95, by decide +kernel⟩,
   ⟨{ wUp with gov := { shared := 40 } }, 0x400000C0, 2, by decide +kernel⟩,
   ⟨wUp, 0xFFFFFFFFFF, by decide +kernel⟩,
   ⟨(wGov { trim := 9 }), [1, 2, 3, 4, 5, 6, 7, 1151], [1, 2, 3, 4, 5, 6, 7, 8], 9, 8, 7, by decide +kernel⟩,
   ⟨wUp, [1, 2, 3, 4, 5, 6, 7, 8, 9, 10], by decide +kernel⟩,
   ⟨wUp, [], 0x0C, 2, (.pmbAlert 0x0C), by decide +kernel⟩,
   ⟨wUp, (wUp.countedWrite .m 0x2301 (3 + 1) (decide ((wRow 0x2301 4).clamp 777 ≠ 777))), .m, 3, 777, (wRow 0x2301 4), ((wRow
    0x2301 4).clamp 777), by decide +kernel⟩,
   ⟨{ wUp with unlock := { scope := 2 } }, ({ wUp with unlock := { scope := 2 } }.countedWrite .f 0x2304 2 (true &&
    !wUp.pins.debugOpen)), .f, true, by decide +kernel⟩,
   ⟨wUp, (.c 3), 3, 777, true, (.traceEnableWrite (.c 3) true), 0x2304, 2, by decide +kernel⟩,
   ⟨(wCoarse { active := true, sec := 100000, sums := wSums, shown := [(pairOf 0x2105 2, 55)] }), by decide +kernel⟩,
   ⟨(wCoarse
    { active := true, tenth := 190000, sums := wSums, peaks := [(pairOf 0x1903 2, 3)], shown := [(pairOf 0x2105 2, 55)] }),
    by decide +kernel⟩,
   ⟨(wMem wUp), (0x01000600000 / 64), by decide +kernel⟩,
   ⟨(wMem wUp), (granuleBase 425983 / 64), 0, 0, by decide +kernel⟩,
   ⟨(wMem wUp), (0x01000600000 / 64), 32771, by decide +kernel⟩,
   ⟨3, [1, 2], 1, by decide +kernel⟩⟩

theorem test_met_ResetsAndRails :
  (∃ (s : State),
      s.boot.aonOk = true ∧ s.boot.holdoff = false ∧ (tabGet ({} : Session) s.sb.sessions 4).st ≠ .opened)
  ∧ (∃ (s : State) (p : Principal) (c : Instr),
      ((c = .coldResetRequest p ∧ s.dictFree = true ∧ s.writeCheck p 0x2200 4 = 0 ∧ (s.boot.st = .snowplough → s.boot.rails =
      0 → s.boot.railFailed = false) ∧ s.boot.holdoff = false ∨ c = .tripHoldoffEnd ∧ s.boot.holdoff = true ∧
      s.boot.waitingReset = true)) ∧ (tabGet ({} : Session) s.sb.sessions 4).st ≠ .opened)
  ∧ (∃ (s : State) (p : Principal),
      s.dictFree = true ∧ s.writeCheck p 0x2200 5 = 0 ∧ s.boot.rails = 0 ∧ s.boot.holdoff = false ∧ (tabGet ({} : Session)
      s.sb.sessions 4).st ≠ .opened)
  ∧ (∃ (s : State),
      s.boot.held = true)
  ∧ (∃ (s : State),
      s.boot.aonOk = true ∧ s.boot.holdoff = true)
  ∧ (∃ (s : State) (p : Principal),
      s.dictFree = true ∧ s.boot.holdoff = true ∧ s.writeCheck p 0x2200 4 = 0 ∧ s.railSnow = false)
  ∧ (∃ (s : State) (s1 : State) (p : Principal),
      s.dictFree = true ∧ s.writeCheck p 0x2200 5 = 0 ∧ s1 = s.countedWrite p 0x2200 5 false ∧ s.boot.rails ≠ 0)
  ∧ (∃ (s : State),
      s.boot.mainOk = true ∧ s.boot.railsWanted = true ∧ s.boot.rails ≠ 0)
  ∧ (∃ (s : State) (i : Island),
      s.boot.aonOk = true ∧ (i ≠ .security ∧ i ≠ .alwaysOn))
  ∧ (∃ (s : State),
      ((s.boot.mainOk = false ∨ s.boot.railsWanted = false ∨ s.boot.rails = 0)))
  ∧ (∃ (s : State),
      s.boot.railFault = true ∧ s.boot.held = false)
  ∧ (∃ (s : State) (p : Principal),
      s.dictFree = true ∧ s.writeCheck p 0x2200 7 = 0)
  ∧ (∃ (s : State) (p : Principal),
      s.dictFree = true ∧ s.writeCheck p 0x2204 0x41 = 0)
  ∧ (∃ (s : State) (p : Principal),
      s.dictFree = true ∧ s.writeCheck p 0x2205 0x41 = 0)
  ∧ (∃ (s : State) (p : Principal) (b : Bool) (bits : BitVec 16) (c : Instr) (idx : Nat) (sub : Nat),
      ((c = .coldResetRequest p ∧ idx = 0x2200 ∧ sub = 4 ∨ c = .mainRailsWrite p b ∧ idx = 0x2200 ∧ sub = 5 ∨ c =
      .alertAcknowledge p bits ∧ idx = 0x2200 ∧ sub = 7 ∨ c = .clearHLog p ∧ idx = 0x2204 ∧ sub = 0x41 ∨ c = .clearMLog p ∧
      idx = 0x2205 ∧ sub = 0x41)) ∧ ((s.dictFree = false ∨ s.writeCheck p idx sub ≠ 0 ∨ sub = 4 ∧ s.railSnow = true)))
  ∧ (∃ (s : State) (k : BitVec 12) (c : Instr),
      ((c = .railFaultRestart ∧ s.boot.railFault = false ∨ c = .tripHoldoffEnd ∧ s.boot.holdoff = false ∨ c = .resetNRelease k
      ∧ s.boot.held = false ∨ c = .resetNAssert ∧ s.boot.aonOk = false))) :=
  ⟨⟨(wKept { st := .ready, rails := 8, starts := 4, railFailed := true }), by decide +kernel⟩,
   ⟨(wKept { st := .ready, rails := 8, starts := 4 }), .m, (.coldResetRequest .m), by decide +kernel⟩,
   ⟨(wKept { st := .snowplough, starts := 4, railFailed := true }), .m, by decide +kernel⟩,
   ⟨(wKept { starts := 4, held := true }), by decide +kernel⟩,
   ⟨(wKept { st := .tripped, starts := 4, holdoff := true }), by decide +kernel⟩,
   ⟨(wKept { st := .ready, rails := 8, starts := 4, holdoff := true }), .m, by decide +kernel⟩,
   ⟨{ wKept { st := .ready, rails := 8, railsWanted := true } with cloaks := { table := [{}, {}, {}, { state := .running }] }, tiles := [{ acct := { memory := 9 } }] },
    ({ wKept { st := .ready, rails := 8, railsWanted := true } with cloaks := { table := [{}, {}, {}, { state := .running }] }, tiles := [{ acct := { memory := 9 } }] }.countedWrite
    .m 0x2200 5 false), .m, by decide +kernel⟩,
   ⟨(wKept { st := .ready, rails := 8, mainOk := true }), by decide +kernel⟩,
   ⟨(wKept { st := .off, rails := 3 }), (.hbmPhy 2), by decide +kernel⟩,
   ⟨(wKept { st := .ready, rails := 8 }), by decide +kernel⟩,
   ⟨(wKept { st := .off, railFault := true, railFailed := true }), by decide +kernel⟩,
   ⟨(wKept { st := .snowplough, alert := 0xFFFF }), .m, by decide +kernel⟩,
   ⟨{ wKept { st := .ready, rails := 8, alert := 0xFF } with logs := { h := { recs := [{ cls := 4 }], seq := 4 }, m := { recs := [{ cls := 4 }], seq := 4 } } },
    .h, by decide +kernel⟩,
   ⟨{ wKept { st := .ready, rails := 8, alert := 0xFF } with logs := { h := { recs := [{ cls := 4 }], seq := 4 }, m := { recs := [{ cls := 4 }], seq := 4 } } },
    .m, by decide +kernel⟩,
   ⟨(wKept { st := .snowplough, railFailed := true }), .m, true, 0, (.coldResetRequest .m), 0x2200, 4, by decide +kernel⟩,
   ⟨(wKept { st := .ready, rails := 8 }), 0, .railFaultRestart, by decide +kernel⟩⟩

theorem test_met_StartUp :
  (∃ (s : State) (n : Nat),
      s.starting = true ∧ s.boot.step = n ∧ ((n = 2 ∨ n = 3 ∧ s.ident.gradeOk = true ∨ n = 5 ∨ n = 1)))
  ∧ (∃ (s : State),
      s.starting = true ∧ s.boot.step = 4 ∧ s.boot.fails = [])
  ∧ (∃ (s : State),
      s.starting = true ∧ s.boot.step = 6 ∧ s.boot.rails < 8)
  ∧ (∃ (s : State) (n : Nat) (why : Nat) (i : Fin 16) (src : BitVec 8) (x : BitVec 16) (c : Instr),
      ((c = .powerUpStepComplete (some src) x ∧ why = 3 ∨ c = .stepTimeout i src x ∧ why = 4 ∨ c = .powerUpStepComplete none x
      ∧ n = 3 ∧ s.ident.gradeOk = false ∧ src = 0x03 ∧ why = 3 ∧ x = 0)) ∧ s.starting = true ∧ s.boot.step = n ∧ 2 ≤ n ∧ n ≤ 6
      ∧ s.boot.fails = [])
  ∧ (∃ (s : State) (i : Fin 16) (src : BitVec 8) (x : BitVec 16) (c : Instr),
      ((c = .powerUpStepComplete (some src) x ∨ c = .stepTimeout i src x)) ∧ s.starting = true ∧ s.boot.step = 1)
  ∧ (∃ (s : State) (i : Fin 16),
      s.boot.st = .selftest ∧ s.boot.fails = [] ∧ 7 ≤ i.val)
  ∧ (∃ (s : State) (r : SelfTest),
      s.boot.st = .selftest ∧ s.boot.fails.length + (foundAll r s.ident s.fuses).length < 32 ∧ s.boot.fails = [])
  ∧ (∃ (s : State) (r : SelfTest) (i : Fin 16) (src : BitVec 8) (f : Option (BitVec 8)) (x : BitVec 16) (c : Instr),
      ((c = .selftestComplete r ∧ s.boot.st ≠ .selftest ∨ c = .powerUpStepComplete f x ∧ (s.starting = false ∨ f = none ∧
      s.boot.step = 6 ∧ 8 ≤ s.boot.rails) ∨ c = .stepTimeout i src x ∧ s.starting = false ∧ (s.boot.st ≠ .selftest ∨ i.val <
      7)))) :=
  ⟨⟨(wBoot { step := 1 }), 1, by decide +kernel⟩,
   ⟨(wBoot { step := 4 }), by decide +kernel⟩,
   ⟨(wBoot { step := 6, st := .power, rails := 2 }), by decide +kernel⟩,
   ⟨{ wBoot { step := 3 } with ident := { (wBoot {}).ident with sGrade := false, sort := [1] } }, 3, 3, 4, 0x03, 0,
    (.powerUpStepComplete none 0), by decide +kernel⟩,
   ⟨(wBoot { step := 1 }), 4, 0x05, 8, (.stepTimeout 4 0x05 8), by decide +kernel⟩,
   ⟨(wBoot { step := 7, st := .selftest, rails := 8 }), 13, by decide +kernel⟩,
   ⟨(wBoot { step := 7, st := .selftest, rails := 8, mainOk := true }), (wTest [failRecord 14 0x31 2 4, failRecord 8 0x10 1
    3, failRecord 7 0x13 1 41, failRecord 7 0x13 0 12] 0), by decide +kernel⟩,
   ⟨(wBoot { step := 6, st := .power, rails := 8 }), (wTest [] 0), 0, 0, none, 0, (.powerUpStepComplete none 0),
    by decide +kernel⟩⟩

theorem test_met_RinkAndLiningAreNeverFenced :
  (∃ (s : State) (r : SelfTest) (x : U32),
      s.boot.st = .selftest ∧ x ∈ r.fails ∧ ((frStep x = 10 ∨ frStep x = 11)) ∧ frReason x ≠ 0) :=
  ⟨(wBoot { step := 7, st := .selftest, rails := 8, mainOk := true }), (wTest [failRecord 8 0x10 1 191, failRecord 11 0x24 2
    5, failRecord 10 0x20 3 5] 1), (failRecord 11 0x24 2 5), by decide +kernel⟩

/-- A canonical state with bytes in memory and its system granules, from which a step goes on. -/
theorem test_met_StepInvariants : ∃ s u : State, s.canonical ∧ s.systemOk ∧ s.mem.bytes ≠ [] ∧ step s = .next u :=
  ⟨{ (wMem wUp) with pending := [.tickMidpoint] }, _, by decide +kernel, by decide +kernel, by decide +kernel, rfl⟩

theorem test_met_OwnershipOnlyByCloakCommands : ∃ (c : Instr) (s u : State), changesOwnership c = false ∧ exec c s = .next u :=
  ⟨.tickMidpoint, wMem wUp, _, rfl, rfl⟩

/-! ### Commands that cannot be sent -/

theorem test_wf_create : (Instr.create .h 3 4000 false).wf = true := by decide
theorem test_wf_cloak_zero : (Instr.reclaimGranules (.c 0) 3 []).wf = false := by decide
theorem test_wf_cloak_65 : (Instr.finalise (.c 65) 3).wf = false := by decide
theorem test_wf_glide_source : (Instr.gstart 4 (.window (.c 65) 0 0)).wf = false := by decide
theorem test_wf_report_data : (Instr.report (.c 3) 3 [1, 2] 0).wf = false := by decide
theorem test_wf_encapsulated_key : (Instr.decapsulate 3 (List.replicate 65 0) [1] 0).wf = false := by decide
theorem test_wf_granule : (Instr.ownerChangeComplete 425984).wf = false := by decide
theorem test_wf_line : (Instr.patrolScrub 0 none).wf = true ∧ (Instr.patrolScrub 0x03C0000000 none).wf = false := by decide
theorem test_wf_stacks : (Instr.stackTemperatureReading [50, 50]).wf = false := by decide
theorem test_wf_tiles : (Instr.governorTick [50]).wf = false := by decide
theorem test_wf_rails : (Instr.pmbusCurrentSample [] [] 0 0 0).wf = false ∧ (Instr.pmbusStatusPoll [1] 0).wf = false := by decide
theorem test_wf_keys : (Instr.hello { mac := 0, dst := 0, len := 0, room := 0 } false 0 [] 0).wf = false
  ∧ (Instr.proof { mac := 0, dst := 0, len := 0, room := 0 } 0 [] []).wf = false ∧ (Instr.rekey 0 ⟨[], [], 0, 0, []⟩ []).wf = false := by decide

/-! ### The worked examples and tables of the spec -/

/-- 09, Table 9.10: the check values over "123456789". -/
theorem test_stitch_crc32c : stitchRun false 0 (ascii "123456789") = 0xE3069283 := by decide +kernel
theorem test_stitch_crc64 : stitchRun true 0 (ascii "123456789") = 0x6C40DF5F0B497347 := by decide +kernel
theorem test_selector_crc : crc32c (ascii "123456789") = 0xE3069283 := by decide +kernel

/-- 04, Table 4.7a: the ties of FXMULQ in the four modes, and the product that saturates. -/
theorem test_fxmulq_first : [0, 1, 2, 3].map (fun m => fxOp 0x0E m 16 0x0003 0x4000 0) = [(2, false), (1, false), (2, false), (1, false)] := by decide +kernel
theorem test_fxmulq_third : [0, 1, 2, 3].map (fun m => fxOp 0x0E m 16 0xFFFB 0x4000 0) = [(0xFFFE, false), (0xFFFE, false), (0xFFFE, false), (0xFFFD, false)] := by decide +kernel
theorem test_fxmulq_saturates : fxOp 0x0E 0 16 0x8000 0x8000 0 = (0x7FFF, true) := by decide +kernel

/-- 05, "one product": the BF16 pieces of 0x3F808081. -/
theorem test_fp32_pieces : pieces (decodeVal f32 0x3F808081) = (decodeVal bf16 0x3F80, decodeVal bf16 0x3B80, decodeVal bf16 0x3781) := by decide +kernel

/-- 07: a row whose largest element is 0.1 takes the scale 123, and 0.1 the element 102. -/
theorem test_bs8_row : ((bs8Encode false [decodeVal f32 0x3DCCCCCD]).scale, (bs8Encode false [decodeVal f32 0x3DCCCCCD]).els.head?) = (123, some 102) := by decide +kernel

/-- 10, "placing data for tile 168": the slice's first granule, and the line at 0x07B_4021_5A40. -/
theorem test_slice_of_168 : (granuleOf 0x00E00000000, granuleOf 0x00E155FFFFF) = (some 28672, some 28842) := by decide +kernel
theorem test_line_of_stack_5 : (granuleOf 0x07B40215A40, memUnit 0x07B40215A40) = (some 252417, 5) := by decide +kernel

/-- 17, Table 17.9, steps 1, 4 and 7: the bounds of thresholds. -/
def wThr (a b c d : Nat) : State := ((((w0.setObj 0x1901 1 a).setObj 0x1901 2 b).setObj 0x1901 3 c).setObj 0x1901 4 d)
theorem test_threshold_step_1 : (match catRow 0x1901 2 with | some r => ((wThr 85 88 91 94).writeNum .h 0 r 0x1901 2 80).2.obj 0x1901 2 | none => 0) = 85 := by decide +kernel
theorem test_threshold_step_4 : (match catRow 0x1901 1 with | some r => ((wThr 85 85 90 90).writeNum .m 1 r 0x1901 1 87).2.obj 0x1901 1 | none => 0) = 85 := by decide +kernel
theorem test_threshold_step_7 : (match catRow 0x1901 3 with | some r => ((wThr 85 85 90 90).writeNum .h 0 r 0x1901 3 99).2.obj 0x1901 3 | none => 0) = 90 := by decide +kernel

/-- 20, "two starts": 1,343 usable arrays end in Snowplough with record 0xF133053F, and the UART says so. -/
theorem test_floor_record : failRecord 15 0x13 3 1343 = 0xF133053F := by decide +kernel
theorem test_snowplough_line : (State.reset.snowplough 0xF133053F).pins.uart = ["LAP96 SNOWPLOUGH F133053F"] := by decide +kernel
/-- 20 R447: the failure code of a stack trip. -/
theorem test_trip_record : ((w0.trip 0x25 3).boot.record, (w0.trip 0x25 3).boot.st) = (0x02530003, .tripped) := by decide +kernel

/-- The words that the spec writes out: 03 Table 3.4, 08 R196, 04 Table 4.4, 12 Table 12.7, 11 Table 11.8. -/
theorem test_words : coreWord 0xF8000441 = .fence 4 1 ∧ coreWord 0xD0A60001 = .glaunch 5 6 ∧ coreWord 0xB0A60003 = plainVector (.setvl 3) 5 6
    ∧ coreWord 0xB0C30045 = plainVector (.vsend 1 2 5) 0 3 ∧ coreWord 0x80A6387C = .atomic .add 8 true true 5 6 7 := by decide +kernel
theorem test_words_system : [0xE0053100, 0xE0003101, 0xE0000102, 0xE0000103].map coreWord = [.tinva 5 6, .tinvs 6, .tinvd, .tsync] := by decide +kernel

/-! ### Known answers of the standards that Table 0.6 names (FIPS 180-4, FIPS 197, FIPS 202, the GCM specification, SP 800-38B) -/

theorem test_sha256 : Crypto.hash256 (ascii "abc") = natBe 32 0xba7816bf8f01cfea414140de5dae2223b00361a396177a9cb410ff61f20015ad := by decide +kernel
theorem test_sha384 : Crypto.hash384 (ascii "abc")
    = natBe 48 0xcb00753f45a35e8bb5a03d699ac65007272c32ab0eded1631a8b605a43ff5bed8086072ba1e7cc2358baeca134c825a7 := by decide +kernel
theorem test_aes : Crypto.encryptWith (Crypto.roundKeys 0x000102030405060708090a0b0c0d0e0f101112131415161718191a1b1c1d1e1f)
    (natBe 16 0x00112233445566778899aabbccddeeff) = natBe 16 0x8ea2b7ca516745bfeafc49904b496089 := by decide +kernel
theorem test_gcm : Crypto.gcmSeal 0 0 [] (List.replicate 16 0) = natBe 16 0xcea7403d4d606b6e074ec5d3baf39d18
    ∧ Crypto.gcmTag 0 0 [] (List.replicate 16 0) = 0xd0d1c8a799996bf0265b98b5d48ab919 := by decide +kernel
theorem test_cmac : Crypto.cmac 0x603deb1015ca71be2b73aef0857d77811f352c073b6108d72d9810a30914dff4 [] = 0x028962f61b7bf89efc6b551f4667d983 := by decide +kernel
theorem test_sha3 : Crypto.sha3of256 [] = natBe 32 0xa7ffc6f8bf1ed76651c14756a061d662f580ff4de43b49fa82d80a4b80f8434a := by decide +kernel
/-- A signature that another implementation made with the key that it signs. -/
theorem test_ecdsa : Crypto.verify wKey wKey wKeySig = true := by decide +kernel
end

section
/-!
The values of the power-on reset state (20 R433): what its tables, in which nothing is listed, read as at every index.
-/
namespace Sys2Proof.Machine
open Sys2Proof

/-- A sparse map that lists nothing gives the default of every key. -/
@[simp] theorem kvGet_nil {α : Type} (d : α) (k : Nat) : kvGet d [] k = d := rfl

@[simp] theorem State.reset_cloak (k : Nat) : State.reset.cloak k = {} := tabGet_nil _ k

@[simp] theorem State.reset_tile (t : Nat) : State.reset.tile t = {} := tabGet_nil _ t

@[simp] theorem State.reset_ledger (i : Nat) : State.reset.ledger i = {} := kvGet_nil _ i

/-- Settles O7: every Cloak, tile and ledger entry reads as the default one, whose fields are the reset values; the rest are
fields of the reset state itself. -/
theorem resetValues : Obligations.ResetValues := by
  have hcloak (k : Nat) : (State.reset.cloak k).state = .free ∧ (State.reset.cloak k).root = none
      ∧ (State.reset.cloak k).memKey = none := by
    rw [State.reset_cloak]; exact ⟨rfl, rfl, rfl⟩
  have htile (t : Nat) : (State.reset.tile t).owner = 0 ∧ (State.reset.tile t).grp.resident = []
      ∧ (State.reset.tile t).eng.seq.run = none ∧ (State.reset.tile t).glide.streams = []
      ∧ (State.reset.tile t).glide.gates = [] := by
    rw [State.reset_tile]; exact ⟨rfl, rfl, rfl, rfl, rfl⟩
  exact ⟨hcloak, htile, rfl, rfl, rfl, State.reset_ledger, rfl⟩

end Sys2Proof.Machine
end

section
/-!
A tile's Seam (01 R27; 03 R79, R85; 08 R210) and the power states of its vector island (04 R116).
-/
namespace Sys2Proof.Machine
open Sys2Proof

/-- An update of one tile changes nothing else. -/
theorem State.onTile_onlyTile (s : State) (t : Nat) (f : Tile → Tile) : s.onlyTile (s.onTile t f) t :=
  ⟨rfl, fun _ h => s.onTile_tile_ne f h⟩

@[simp] theorem State.onLvu_tile (s : State) (t : Nat) (f : Lvu → Lvu) :
    (s.onLvu t f).tile t = { s.tile t with lvu := f (s.tile t).lvu } := s.onTile_tile t _

theorem State.onLvu_onlyTile (s : State) (t : Nat) (f : Lvu → Lvu) : s.onlyTile (s.onLvu t f) t := s.onTile_onlyTile t _

/-! ### Views of Gates -/

/-- A view of the Gates after an arrival: the Gate that it is for is set, or increased up to the largest value; no other changes. -/
theorem gateVal_gateArrive (v : List U32) (g h n : Nat) (set : Bool) : gateVal (gateArrive v g set n) h =
    if h = g then (if set then n % 2 ^ 32 else Nat.min (gateVal v g + n) (2 ^ 32 - 1)) else gateVal v h := by
  have hput (w : Nat) : gateVal (gatePut v g w) h = if h = g then w % 2 ^ 32 else gateVal v h := by
    simp only [gateVal, gatePut, tabGet_tabSet]
    split <;> simp
  cases set
  · have hmax : Nat.min (gateVal v g + n) (2 ^ 32 - 1) % 2 ^ 32 = Nat.min (gateVal v g + n) (2 ^ 32 - 1) :=
      Nat.mod_eq_of_lt (Nat.lt_of_le_of_lt (Nat.min_le_right _ _) (by decide))
    exact (hput (Nat.min (gateVal v g + n) (2 ^ 32 - 1))).trans (by rw [hmax]; rfl)
  · exact hput n

/-! ### Arrivals at a Seam (R27) -/

theorem Tile.seamOpen_eq (x : Tile) (m : SeamMsg) : x.seamOpen m = !x.seamHolds m := by
  cases m <;> simp [Tile.seamOpen, Tile.seamHolds, SeamMsg.toGroups]

/-- The oldest transfer that the Seam does not hold is the one that arrives. -/
theorem Tile.seamArrive_of_held (x : Tile) (held rest : List SeamMsg) (m : SeamMsg) (hseam : x.seam = held ++ m :: rest)
    (hheld : ∀ k ∈ held, x.seamHolds k = true) (hm : x.seamHolds m = false) :
    x.seamArrive = { x with seam := held ++ rest }.receive m := by
  have hfind : x.seam.find? x.seamOpen = some m := by
    rw [hseam, List.find?_append, List.find?_eq_none.mpr (fun k hk => by simp [Tile.seamOpen_eq, hheld k hk])]
    simp [Tile.seamOpen_eq, hm]
  have herase : x.seam.erase m = held ++ rest := by
    rw [hseam, List.erase_append_right _ (fun hk => by simp [hheld m hk] at hm), List.erase_cons_head]
  rw [Tile.seamArrive, hfind]
  simp only [herase]

/-- A Seam that holds everything lets nothing arrive. -/
theorem Tile.seamArrive_of_all_held (x : Tile) (h : ∀ m ∈ x.seam, x.seamHolds m = true) : x.seamArrive = x := by
  rw [Tile.seamArrive, List.find?_eq_none.mpr (fun m hm => by simp [Tile.seamOpen_eq, h m hm])]

/-- SEAM_ARRIVAL is an arrival in its tile, and changes no other. -/
theorem seamArrival_completes (s : State) (t : TileNo) (p : State → Prop)
    (h : ∀ u : State, u.tile t = (s.tile t).seamArrive → s.onlyTile u t → p u) : Completes (.seamArrival t) s p :=
  ⟨_, rfl, h _ (s.onTile_tile t _) (s.onTile_onlyTile t _)⟩

/-! ### Power states of the vector island (R116) -/

/-- The state after a charge that a tile's account has met. -/
def State.charged (s : State) (t : Nat) (c : ChargeClass) (n : Nat) : State :=
  { s.onTile t (fun x => { x with acct := x.acct.take c n }) with gov := { s.gov with spent := s.gov.spent + n } }

@[simp] theorem State.charged_tile (s : State) (t : Nat) (c : ChargeClass) (n : Nat) :
    (s.charged t c n).tile t = { s.tile t with acct := (s.tile t).acct.take c n } :=
  s.onTile_tile t (fun x => { x with acct := x.acct.take c n })

theorem State.charged_otherTiles (s : State) (t : Nat) (c : ChargeClass) (n : Nat) : s.otherTiles (s.charged t c n) t :=
  fun _ h => s.onTile_tile_ne (fun x => { x with acct := x.acct.take c n }) h

/-- A charge that the account meets is taken from it, without a top-up (R420). -/
theorem State.charge_of_met (s : State) (t : Nat) (c : ChargeClass) (n : Nat) (h : n ≤ (s.tile t).acct.avail c) :
    s.charge t c n = (true, s.charged t c n) := by
  have htop : s.topUp t (n - (s.tile t).acct.avail c) = s := by
    simp [State.topUp, Nat.sub_eq_zero_of_le h]
  simp only [State.charge, htop, if_pos h, State.charged]

theorem State.paid_of_met (s : State) (t : Nat) (c : ChargeClass) (n : Nat) (f : State → State) (h : n ≤ (s.tile t).acct.avail c) :
    s.paid t c n f = f (s.charged t c n) := by
  rw [State.paid, s.charge_of_met t c n h]

theorem exec_retentionEntry (s : State) (t : TileNo) (hruns : s.runs t = true) (hpow : (s.tile t).lvu.power = .active)
    (hidle : s.lvuIdle t = true) :
    exec (.retentionEntry t) s = .next (s.onLvu t (fun x => { x.count 1 1 with power := .retention })) := by
  change execRetentionEntry t s = _
  simp [execRetentionEntry, hruns, hpow, hidle]

/-- COLD_ENTRY makes its island cold, takes a free value, and changes nothing else. -/
theorem coldEntry_completes (s : State) (t : TileNo) (p : State → Prop) (hruns : s.runs t = true)
    (hpow : (s.tile t).lvu.power = .retention) (hidle : s.lvuIdle t = true) (hrel : (s.tile t).lvu.released = true)
    (hdelay : s.obj 0x1400 3 ≠ 4294967295)
    (h : ∀ u : State, u.tile t = { s.tile t with lvu := ((s.tile t).lvu.count 2 1).cold s.freeCtr } → s.otherTiles u t →
      u = { s with tiles := u.tiles, freeCtr := s.freeCtr + 1 } → p u) : Completes (.coldEntry t) s p := by
  have hexec : exec (.coldEntry t) s = .next (s.onLvu t (fun x => (x.count 2 1).cold s.freeCtr)).tick1 := by
    change execColdEntry t s = _
    simp [execColdEntry, hruns, hpow, hidle, hrel, hdelay]
  exact ⟨_, hexec, h _ (s.onLvu_tile t (fun x => (x.count 2 1).cold s.freeCtr))
    (s.onLvu_onlyTile t (fun x => (x.count 2 1).cold s.freeCtr)).2 rfl⟩

/-- A cold island reads zero in every register. -/
theorem Lvu.cold_vreg (x : Lvu) (n r : Nat) : (x.cold n).vreg r = 0 := by
  simp only [Lvu.cold, Lvu.vreg, tabGet_nil, BitVec.ofNat_eq_ofNat, BitVec.toNat_zero]

theorem Lvu.cold_pred (x : Lvu) (n r : Nat) (h : 1 ≤ r) : (x.cold n).pred r = 0 := by
  have hr : r ≠ 0 := by omega
  simp only [Lvu.cold, Lvu.pred, hr, if_false, tabGet_nil, BitVec.ofNat_eq_ofNat, BitVec.toNat_zero]

/-- The charge and the cycles of a wake from retention, and from cold (R116). -/
theorem exec_islandWakeComplete (s : State) (t : TileNo) (c n : Nat) (hruns : s.runs t = true) (hwanted : s.lvuWanted t = true)
    (hpow : (s.tile t).lvu.power = .retention ∧ c = 300 ∧ n = 60 ∨ (s.tile t).lvu.power = .cold ∧ c = 6000 ∧ n = 1200)
    (hmet : c ≤ (s.tile t).acct.vector + (s.tile t).acct.unreserved) :
    exec (.islandWakeComplete t) s =
      .next ((s.charged t .vector c).onLvu t (fun x => { x.count 3 n with power := .active })) := by
  change execIslandWakeComplete t s = _
  rcases hpow with ⟨hpow, rfl, rfl⟩ | ⟨hpow, rfl, rfl⟩ <;>
    simp [execIslandWakeComplete, hruns, hwanted, hpow, s.paid_of_met t .vector _ _ hmet]

/-- Settles O35: each command of the island and each arrival by the lemma on it; what stays is by the lemmas on updates of one tile. -/
theorem vectorIslandAndSeam : Obligations.VectorIslandAndSeam := by
  refine ⟨?retention, ?cold, ?wake, ?gate, ?staged, ?held⟩
  case retention =>
    intro s t hruns hpow hidle
    exact ⟨_, exec_retentionEntry s t hruns hpow hidle, s.onLvu_tile t _, s.onLvu_onlyTile t _⟩
  case cold =>
    intro s t hruns hpow hidle hrel hdelay
    refine coldEntry_completes s t _ hruns hpow hidle hrel hdelay (fun u hu hothers hrest => ?_)
    rw [hu]
    exact ⟨fun r _ => Lvu.cold_vreg _ _ r, fun r hr _ => Lvu.cold_pred _ _ r hr, rfl, rfl, hothers, hrest⟩
  case wake =>
    intro s t c n hruns hwanted hpow hmet
    refine ⟨_, exec_islandWakeComplete s t c n hruns hwanted hpow hmet, ?_, ?_, rfl⟩
    · rw [State.onLvu_tile, State.charged_tile]
      rfl
    · exact fun x hx => ((s.charged t .vector c).onLvu_onlyTile t _).2 x hx |>.trans (s.charged_otherTiles t .vector c x hx)
  case gate =>
    intro s t held rest g n set grp hseam hheld hopen _
    refine seamArrival_completes s t _ (fun u hu honly => ?_)
    rw [Tile.seamArrive_of_held _ held rest _ hseam hheld hopen] at hu
    rw [hu]
    cases grp <;> exact ⟨rfl, (gateVal_gateArrive _ g g n set).trans (if_pos rfl),
      fun h hh => (gateVal_gateArrive _ g h n set).trans (if_neg hh), rfl, rfl, honly⟩
  case staged =>
    intro s t held rest b g n d hseam hheld hawake _
    refine seamArrival_completes s t _ (fun u hu honly => ?_)
    rw [Tile.seamArrive_of_held _ held rest _ hseam hheld hawake] at hu
    rw [hu]
    refine ⟨fun k => ?_, fun h => gateVal_gateArrive _ g h n false, rfl, honly⟩
    exact tabGet_tabSet _ _ b k _
  case held =>
    intro s t hheld
    refine seamArrival_completes s t _ (fun u hu honly => ⟨?_, honly⟩)
    rw [hu, Tile.seamArrive_of_all_held _ hheld]

end Sys2Proof.Machine
end

section
/-!
A grant for a store whose address does not lie in the line that it awaits (12 R287, R289, R292).
-/
namespace Sys2Proof.Machine
open Sys2Proof

/-- Tile 0 awaits line 1 for the store at the head of its store queue, whose address 0 lies in line 0; the DATAX of line 1 is under
way. -/
def strayStore : State :=
  let s := State.reset.onTile 0 (fun x => { x with
    core := { x.core with storeQ := [{ addr := 0, data := [7] }] }
    l2 := { x.l2 with out := [{ line := 1, write := true, addr := 0, size := 1, dest := .store }] } })
  s.setNet [{ kind := .datax, line := 1, src := homeNode, dst := 0 }]

/-- The store is performed in the line of its own address, so the line granted stays in E. -/
theorem strayStore_datax : ((strayStore.dataxIn 0 1).tick1.l2 0 1).st = .e := by decide

/-- Refutes O47 at its clause for DATAX before a store: nothing there says that the store's address lies in the line that it awaits, and
in `strayStore` it does not, so the line granted is E where the statement has M with the store's bytes. (Every access that a C-core
begins awaits the line of its own address; the clause lacks that premise.) -/
theorem not_cachesAndHomeExchange : ¬ Obligations.CachesAndHomeExchange := by
  rintro ⟨-, -, -, -, hstore, -⟩
  obtain ⟨u, hexec, hgranted, -⟩ := hstore strayStore 0 1 _ [] _ _ false (by decide) ⟨rfl, by simp⟩ rfl rfl rfl rfl (by decide) rfl rfl rfl (.inl rfl)
  have hu : u = (strayStore.dataxIn 0 1).tick1 := (Host.Outcome.next.inj hexec).symm
  have hm : ((strayStore.dataxIn 0 1).tick1.l2 0 1).st = .m := by rw [← hu]; exact congrArg L2Line.st hgranted
  rw [strayStore_datax] at hm
  cases hm

end Sys2Proof.Machine
end

section
/-!
Self-test and Snowplough (20 R437 to R445): what entering Snowplough leaves of the device's identity, the records of a start as a
set, and the tiles that they fence (R442).
-/
namespace Sys2Proof.Machine
open Sys2Proof

/-! ### What a sequence of updates leaves as it is -/

/-- What each update of a sequence leaves as it is, the sequence leaves as it is. -/
theorem foldl_keeps {σ α β : Type} (p : σ → β) (f : σ → α → σ) (h : ∀ s a, p (f s a) = p s) (l : List α) :
    ∀ s : σ, p (l.foldl f s) = p s := by
  induction l with
  | nil => exact fun _ => rfl
  | cons a l ih => exact fun s => (ih (f s a)).trans (h s a)

@[simp] theorem State.noteGone_ident (s : State) (k : Nat) : (s.noteGone k).ident = s.ident := by
  unfold State.noteGone; split <;> rfl

@[simp] theorem State.clearCloakKeys_ident (s : State) (k : Nat) : (s.clearCloakKeys k).ident = s.ident := by
  unfold State.clearCloakKeys
  dsimp only
  exact (foldl_keeps State.ident _ (fun _ _ => by rfl) _ _).trans (by simp)

@[simp] theorem State.haltTiles_ident (s : State) (k : Nat) (h : Bool) : (s.haltTiles k h).ident = s.ident :=
  foldl_keeps State.ident _ (fun _ _ => by rfl) _ s

@[simp] theorem State.stopStreams_ident (s : State) (t : Nat) : (s.stopStreams t).ident = s.ident :=
  foldl_keeps State.ident _ (fun s i => by dsimp only; split <;> rfl) _ s

@[simp] theorem State.complete_ident (s : State) (q : QCmd) (r n : Nat) : (s.complete q r n).ident = s.ident := by
  unfold State.complete
  dsimp only
  split
  · simp
  · split <;> rfl
  · rfl

@[simp] theorem State.finishRun_ident (s : State) (k r n : Nat) : (s.finishRun k r n).ident = s.ident := by
  unfold State.finishRun
  split <;> simp

@[simp] theorem State.abortRun_ident (s : State) (k : Nat) : (s.abortRun k).ident = s.ident := by
  unfold State.abortRun
  split <;> simp

@[simp] theorem State.beginDestroy_ident (s : State) (k : Nat) (d : Bool) : (s.beginDestroy k d).ident = s.ident := by
  unfold State.beginDestroy
  dsimp only
  split
  · rw [foldl_keeps State.ident _ State.stopStreams_ident]; rfl
  · simp

@[simp] theorem State.deviceDestroy_ident (s : State) (k : Nat) : (s.deviceDestroy k).ident = s.ident := by
  unfold State.deviceDestroy
  split <;> simp

/-! ### Entering Snowplough (R445) -/

theorem State.fatal_ident (s : State) (r : U32) : (s.fatal r).ident = s.ident := by
  unfold State.fatal
  dsimp only
  exact (foldl_keeps State.ident _ (fun _ _ => by rfl) _ _).trans (by simp)

theorem State.fatal_boot (s : State) (r : U32) : (s.fatal r).boot = s.boot := by
  unfold State.fatal
  dsimp only
  exact (foldl_keeps State.boot _ (fun _ _ => by rfl) _ _).trans (by simp)

/-- Snowplough neither fences a tile nor masks an array. -/
@[simp] theorem State.snowplough_ident (s : State) (r : U32) : (s.snowplough r).ident = s.ident := by
  unfold State.snowplough State.uart State.alert
  dsimp only
  rw [State.fatal_ident]
  dsimp only
  rw [foldl_keeps State.ident _ (fun s k => by simp), foldl_keeps State.ident _ State.clearCloakKeys_ident]

@[simp] theorem State.snowplough_st (s : State) (r : U32) : (s.snowplough r).boot.st = .snowplough := by
  unfold State.snowplough State.uart State.alert
  dsimp only
  rw [State.fatal_boot]

/-! ### The records of a start (R440 to R442) -/

theorem mem_insertFail (r x : U32) (l : List U32) : x ∈ insertFail r l ↔ x = r ∨ x ∈ l := by
  induction l with
  | nil => simp [insertFail]
  | cons y l ih =>
    simp only [insertFail]
    split
    · simp
    · rw [List.mem_cons, ih, List.mem_cons]; exact or_left_comm

/-- The records in order are those found. -/
theorem mem_sortedFails (l : List U32) (x : U32) : ∀ m, x ∈ l.foldl (fun m r => insertFail r m) m ↔ x ∈ l ∨ x ∈ m := by
  induction l with
  | nil => simp
  | cons r l ih =>
    intro m
    rw [List.foldl_cons, ih, mem_insertFail, List.mem_cons, or_left_comm, or_assoc]

@[simp] theorem frStep_failRecord (step src reason unit_ : Nat) : frStep (failRecord step src reason unit_) = step % 16 := by
  simp only [frStep, field, failRecord, BitVec.toNat_ofNat]
  omega

/-- A failure, not a repair, of the Rink, of a station or bridge, or of the Lining is fatal (R32, Table 20.3). -/
theorem isFatal_of_rink_or_lining (x : U32) (hstep : frStep x = 10 ∨ frStep x = 11) (hwhy : frReason x ≠ 0) : isFatal x = true := by
  have : 10 ≤ frStep x ∧ frStep x ≤ 12 := by omega
  simp [isFatal, this, hwhy]

/-- A record fences tile `t`: step 8 or 9 failed a unit of it (R442). -/
def fences (t : Nat) (y : U32) : Bool :=
  (decide (frStep y = 8) || decide (frStep y = 9)) && decide (frReason y ≠ 0) && decide (frUnit y = t)

/-- The fences after one record more. -/
def addFence (m : BitVec 192) (r : U32) : BitVec 192 :=
  if (frStep r = 8 ∨ frStep r = 9) ∧ frReason r ≠ 0 ∧ frUnit r < 192 then m ||| BitVec.ofNat 192 (2 ^ frUnit r) else m

theorem fencedBy_eq (l : List U32) : fencedBy l = l.foldl addFence 0 := rfl

theorem addFence_getLsbD (m : BitVec 192) (y : U32) (t : Nat) (ht : t < 192) :
    (addFence m y).getLsbD t = (m.getLsbD t || fences t y) := by
  have hbit : (BitVec.ofNat 192 (2 ^ frUnit y)).getLsbD t = decide (frUnit y = t) := by
    rw [BitVec.getLsbD_ofNat, Nat.testBit_two_pow]; simp [ht]
  unfold addFence
  split
  · next h =>
    obtain ⟨hstep, hwhy, -⟩ := h
    rw [BitVec.getLsbD_or, hbit]
    rcases hstep with hstep | hstep <;> simp [fences, hstep, hwhy]
  · next h =>
    have hne : fences t y = false := by
      rw [← Bool.not_eq_true]
      intro hf
      simp only [fences, Bool.and_eq_true, Bool.or_eq_true, decide_eq_true_eq] at hf
      obtain ⟨⟨hstep, hwhy⟩, hunit⟩ := hf
      exact h ⟨hstep, hwhy, hunit ▸ ht⟩
    rw [hne, Bool.or_false]

theorem foldl_addFence_getLsbD (l : List U32) (t : Nat) (ht : t < 192) :
    ∀ m, (l.foldl addFence m).getLsbD t = (m.getLsbD t || l.any (fences t)) := by
  induction l with
  | nil => simp
  | cons y l ih => intro m; rw [List.foldl_cons, ih, addFence_getLsbD m y t ht, List.any_cons, Bool.or_assoc]

theorem fencedBy_getLsbD (l : List U32) (t : Nat) (ht : t < 192) : (fencedBy l).getLsbD t = l.any (fences t) := by
  rw [fencedBy_eq, foldl_addFence_getLsbD l t ht]
  simp

/-- The records of worn arrays, of step 7, fence nothing: the fences of a start are those of the failures found. -/
theorem foundAll_any_fences (r : SelfTest) (i : Ident) (z : Fuses) (t : Nat) : (foundAll r i z).any (fences t) = r.fails.any (fences t) := by
  have hworn : ∀ a, fences t (failRecord 7 0x13 (if foundCovered r z a then 0 else 1) a) = false := by simp [fences]
  simp [foundAll, hworn]

@[simp] theorem State.stepResult_ident (s : State) (n r : Nat) : (s.stepResult n r).ident = s.ident := rfl

/-- Self-test that finds a fatal failure: Snowplough, with the fences that its records call for. -/
theorem selftestComplete_of_fatal (s : State) (r : SelfTest) (x : U32) (hst : s.boot.st = .selftest) (hx : x ∈ foundAll r s.ident s.fuses)
    (hfatal : isFatal x = true) :
    Completes (.selftestComplete r) s (fun u => u.boot.st = .snowplough ∧ u.ident = s.ident.start s.fuses r) := by
  refine ⟨_, rfl, ?_⟩
  obtain ⟨y, hy⟩ : ∃ y, ((foundAll r s.ident s.fuses).foldl (fun (l : List U32) x => insertFail x l) []).find? isFatal = some y :=
    Option.isSome_iff_exists.mp (List.find?_isSome.mpr ⟨x, (mem_sortedFails _ x []).mpr (.inl hx), hfatal⟩)
  simp only [hst, hy, ne_eq, not_true_eq_false, if_false, State.tick1]
  refine ⟨State.snowplough_st _ _, ?_⟩
  rw [State.snowplough_ident]
  dsimp only
  rw [foldl_keeps State.ident _ (fun s n => State.stepResult_ident s n _)]

/-- Settles O60: a failure of step 10 or 11 that is no repair is fatal, so self-test ends in Snowplough; and fences come of the records
of steps 8 and 9 alone. -/
theorem rinkAndLiningAreNeverFenced : Obligations.RinkAndLiningAreNeverFenced := by
  intro s r x hst hx hstep hwhy
  obtain ⟨u, hu, hsnow, hident⟩ := selftestComplete_of_fatal s r x hst (List.mem_append_left _ hx)
    (isFatal_of_rink_or_lining x hstep hwhy)
  refine ⟨u, hu, hsnow, fun t ht => ?_⟩
  calc u.ident.fenced.getLsbD t = (fencedBy (foundAll r s.ident s.fuses)).getLsbD t := by rw [hident]; rfl
    _ = r.fails.any (fences t) := by rw [fencedBy_getLsbD _ t ht, foundAll_any_fences]

end Sys2Proof.Machine
end
